-- ==== Sys2Proof/Word.lean ====
section
/-! DEFINITION. Words and bytes of the NKL-9420: the types everything else is written in. -/

namespace Sys2Proof

/-- One byte. -/
abbrev Byte := BitVec 8

/-- A string of bytes, the first at the lowest address. -/
abbrev Bytes := List Byte

/-- A 16-bit status code, count or field. -/
abbrev W16 := BitVec 16

/-- A 32-bit register, handle or field. -/
abbrev W32 := BitVec 32

/-- A 64-bit register, address or count. -/
abbrev W64 := BitVec 64

end Sys2Proof
end

