-- ==== Sys2Proof/Machine/Bytes.lean ====
section
/-! DEFINITION. Byte strings: numbers in both byte orders, decimal and hexadecimal digits, exclusive OR, padding
and cutting into blocks. Every wider access of the model is built from these, so byte order is decided once
(spec 00 R1: multi-byte fields are little-endian unless a rule says otherwise). -/

namespace Sys2Proof.Machine

/-- The byte whose value is `n` modulo 256. -/
def byteOf (n : Nat) : Byte := BitVec.ofNat 8 n

/-- `n` zero bytes. -/
def zeroBytes (n : Nat) : Bytes := List.replicate n 0

/-- The number that a byte string spells, most significant byte first. -/
def beNat (b : Bytes) : Nat := b.foldl (fun a x => a * 256 + x.toNat) 0

/-- The number that a byte string spells, least significant byte first. -/
def leNat (b : Bytes) : Nat := b.foldr (fun x a => a * 256 + x.toNat) 0

/-- The low `n` bytes of a number, least significant first. -/
def natLe : Nat → Nat → Bytes
  | 0, _ => []
  | n + 1, v => byteOf v :: natLe n (v / 256)

/-- The low `n` bytes of a number, most significant first. -/
def natBe (n v : Nat) : Bytes := (natLe n v).reverse

/-- Two bytes, least significant first. -/
def le16 (w : W16) : Bytes := natLe 2 w.toNat

/-- Four bytes, least significant first. -/
def le32 (w : W32) : Bytes := natLe 4 w.toNat

/-- Eight bytes, least significant first. -/
def le64 (w : W64) : Bytes := natLe 8 w.toNat

/-- `len` bytes of `b` from offset `off`; bytes past the end are absent. -/
def sliceOf (b : Bytes) (off len : Nat) : Bytes := (b.drop off).take len

/-- The 16-bit little-endian field at an offset, missing bytes reading zero. -/
def getLe16 (b : Bytes) (off : Nat) : W16 := BitVec.ofNat 16 (leNat (sliceOf b off 2))

/-- The 32-bit little-endian field at an offset, missing bytes reading zero. -/
def getLe32 (b : Bytes) (off : Nat) : W32 := BitVec.ofNat 32 (leNat (sliceOf b off 4))

/-- The 64-bit little-endian field at an offset, missing bytes reading zero. -/
def getLe64 (b : Bytes) (off : Nat) : W64 := BitVec.ofNat 64 (leNat (sliceOf b off 8))

/-- The byte at an offset, a missing byte reading zero. -/
def getByte (b : Bytes) (off : Nat) : Byte := b.getD off 0

/-- The byte at an offset as a number. -/
def getNat8 (b : Bytes) (off : Nat) : Nat := (getByte b off).toNat

/-- Exclusive OR of two byte strings, as long as the shorter. -/
def xorBytes : Bytes → Bytes → Bytes
  | a :: as, b :: bs => (a ^^^ b) :: xorBytes as bs
  | _, _ => []

/-- A byte string cut or extended on the right with zero bytes to exactly `n` bytes. -/
def fitRight (n : Nat) (b : Bytes) : Bytes := b.take n ++ zeroBytes (n - b.length)

/-- A byte string extended on the left with zero bytes to at least `n` bytes. -/
def padLeft (n : Nat) (b : Bytes) : Bytes := zeroBytes (n - b.length) ++ b

/-- A byte string extended on the right with zero bytes to a multiple of `n` bytes. -/
def padTo (n : Nat) (b : Bytes) : Bytes := b ++ zeroBytes ((n - b.length % n) % n)

/-- Cutting a list into pieces of `n`, by fuel. -/
def chunksFuel {α : Type} (n : Nat) : Nat → List α → List (List α)
  | 0, _ => []
  | _ + 1, [] => []
  | f + 1, x :: xs => (x :: xs).take n :: chunksFuel n f ((x :: xs).drop n)

/-- A list cut into pieces of `n` (`n` at least 1), the last piece possibly shorter. -/
def chunks {α : Type} (n : Nat) (b : List α) : List (List α) := chunksFuel n b.length b

/-- Whether every byte is zero. -/
def allZero (b : Bytes) : Bool := b.all (· == 0)

/-- The high nibble of a byte. -/
def hiNib (b : Byte) : Nat := b.toNat / 16

/-- The low nibble of a byte. -/
def loNib (b : Byte) : Nat := b.toNat % 16

/-- The nibbles of a byte string, the high nibble of each byte first. -/
def nibbles : Bytes → List Nat
  | [] => []
  | b :: bs => hiNib b :: loNib b :: nibbles bs

/-- Nibbles packed two to a byte, high first; an odd last nibble has a zero beside it. -/
def packNibbles : List Nat → Bytes
  | [] => []
  | [x] => [byteOf (x * 16)]
  | x :: y :: r => byteOf (x * 16 + y) :: packNibbles r

/-- The number a list of decimal digits spells. -/
def digitsNat (d : List Nat) : Nat := d.foldl (fun a x => a * 10 + x) 0

/-- The last `n` decimal digits of a number, most significant first. -/
def natDigits : Nat → Nat → List Nat
  | 0, _ => []
  | n + 1, v => natDigits n (v / 10) ++ [v % 10]

/-- ASCII decimal digits as digits; `none` if any byte is no digit. -/
def asciiDigits (b : Bytes) : Option (List Nat) :=
  if b.all (fun c => decide (48 ≤ c.toNat ∧ c.toNat ≤ 57)) then some (b.map (fun c => c.toNat - 48)) else none

/-- Digits as ASCII. -/
def digitsAscii (d : List Nat) : Bytes := d.map (fun x => byteOf (x + 48))

/-- The ASCII code of an upper-case hexadecimal digit. -/
def hexChar (n : Nat) : Byte := if n < 10 then byteOf (48 + n) else byteOf (55 + n)

/-- The value of an ASCII hexadecimal digit, upper case. -/
def hexVal (c : Byte) : Option Nat :=
  if 48 ≤ c.toNat ∧ c.toNat ≤ 57 then some (c.toNat - 48)
  else if 65 ≤ c.toNat ∧ c.toNat ≤ 70 then some (c.toNat - 55)
  else none

/-- Bytes as upper-case ASCII hexadecimal. -/
def hexAscii (b : Bytes) : Bytes := (nibbles b).map hexChar

/-- Upper-case ASCII hexadecimal as bytes; `none` if a character is no such digit or the length is odd. -/
def asciiHex : Bytes → Option Bytes
  | [] => some []
  | [_] => none
  | x :: y :: r =>
    match hexVal x, hexVal y, asciiHex r with
    | some a, some b, some t => some (byteOf (a * 16 + b) :: t)
    | _, _, _ => none

/-- Text as ASCII bytes. -/
def ascii (s : String) : Bytes := s.toList.map (fun c => byteOf c.toNat)

/-- The bits of a byte, most significant first. -/
def byteBits (b : Byte) : List Bool := (List.range 8).map (fun i => b.getLsbD (7 - i))

/-- Bits packed eight to a byte, most significant first. -/
def packBits (l : List Bool) : Bytes :=
  (chunks 8 l).map (fun c => byteOf (c.foldl (fun a x => a * 2 + (if x then 1 else 0)) 0 * 2 ^ (8 - c.length)))

/-- `d` at the offset `off` of `b`, whose length it keeps. -/
def putAt (b : Bytes) (off : Nat) (d : Bytes) : Bytes :=
  (b.take off ++ d ++ b.drop (off + d.length)).take b.length

/-- The number of one bits of a number below `2 ^ w`. -/
def popCount (w n : Nat) : Nat := (List.range w).countP (fun i => n.testBit i)

end Sys2Proof.Machine
end

