-- ==== Sys2Proof/Machine/Names.lean ====
section
/-! DEFINITION. The names the spec gives: blocks (00 Table 0.2), ports, initiators and their colours (02 Table 2.12),
status codes (03 Table 3.14 and the tables that extend it). -/

namespace Sys2Proof.Machine

/-- The two PCIe ports. -/
inductive Port where
  | a
  | b
  deriving DecidableEq, Repr

/-- Port A is 0, port B is 1 (02 Table 2.8, DEV_PORT). -/
def Port.idx : Port → Nat
  | .a => 0
  | .b => 1

/-- The port a bit names. -/
def portOfBit (b : Bool) : Port := if b then .b else .a

/-- The other port. -/
def Port.other : Port → Port
  | .a => .b
  | .b => .a

/-- The twenty-three blocks (00 Table 0.2). -/
inductive Blk where
  | hif
  | nif
  | tlk
  | cmq
  | sch
  | txp
  | sce
  | dge
  | pke
  | khs
  | kch
  | bsx
  | rtb
  | rng
  | acu
  | tim
  | dcu
  | jnl
  | ssv
  | lcc
  | evr
  | pmc
  | hlt
  deriving DecidableEq, Repr

/-- The blocks in the order of their indices (00 Table 0.2). -/
def blkList : List Blk :=
  [.hif, .nif, .tlk, .cmq, .sch, .txp, .sce, .dge, .pke, .khs, .kch, .bsx] ++
  [.rtb, .rng, .acu, .tim, .dcu, .jnl, .ssv, .lcc, .evr, .pmc, .hlt]

/-- The index of a block (00 Table 0.2). -/
def Blk.idx : Blk → Nat
  | .hif => 0x00
  | .nif => 0x01
  | .tlk => 0x02
  | .cmq => 0x03
  | .sch => 0x04
  | .txp => 0x05
  | .sce => 0x06
  | .dge => 0x07
  | .pke => 0x08
  | .khs => 0x09
  | .kch => 0x0A
  | .bsx => 0x0B
  | .rtb => 0x0C
  | .rng => 0x0D
  | .acu => 0x0E
  | .tim => 0x0F
  | .dcu => 0x10
  | .jnl => 0x11
  | .ssv => 0x12
  | .lcc => 0x13
  | .evr => 0x14
  | .pmc => 0x15
  | .hlt => 0x16

/-- The block of an index. -/
def blkOfIdx (n : Nat) : Option Blk := blkList[n]?

/-- Who makes an access (02 Table 2.12); the hardware path gives the colour. -/
inductive Initiator where
  | ssv
  | pf (p : Port)
  | vf (p : Port) (n : Nat)
  | bar2 (p : Port)
  | net (tenant : Nat)
  | txp (tenant : Option Nat)
  | dma (tenant : Option Nat)
  | twin
  | dcu
  | lcc
  | test
  | debug
  deriving DecidableEq, Repr

/-- The colour of an initiator (02 R52, Table 2.12). -/
def Initiator.colour : Initiator → Nat
  | .ssv => 0
  | .pf _ => 1
  | .vf _ _ => 2
  | .bar2 _ => 2
  | .net _ => 3
  | .txp _ => 4
  | .dma _ => 5
  | .twin => 6
  | .dcu => 7
  | .lcc => 8
  | .test => 14
  | .debug => 15

/-! ### Status codes -/

def stOk : W16 := 0x0000
def stBadFormat : W16 := 0x0101
def stBadOpcode : W16 := 0x0102
def stBadLength : W16 := 0x0103
def stBadPointer : W16 := 0x0104
def stNotAuthorised : W16 := 0x0201
def stSessionInvalid : W16 := 0x0202
def stReplay : W16 := 0x0203
def stQuorumMissing : W16 := 0x0204
def stCapsuleAuthFail : W16 := 0x0205
def stKeyUnknown : W16 := 0x0301
def stKeyPending : W16 := 0x0302
def stKeyRetired : W16 := 0x0303
def stKeyUsage : W16 := 0x0304
def stKeyDestroyed : W16 := 0x0305
def stBlobInvalid : W16 := 0x0306
def stBlobRollback : W16 := 0x0307
def stKeyHasSuccessor : W16 := 0x0308
def stWrapStrength : W16 := 0x0309
def stRetryLater : W16 := 0x0401
def stBlobTimeout : W16 := 0x0402
def stRouteFull : W16 := 0x0403
def stCacheStashFull : W16 := 0x0404
def stBlobSpace : W16 := 0x0405
def stKeyStateFull : W16 := 0x0406
def stTenantTableFull : W16 := 0x0410
def stTenantFrozen : W16 := 0x0411
def stTenantEpochSpent : W16 := 0x0412
def stTenantInUse : W16 := 0x0413
def stSessionFull : W16 := 0x0414
def stTimeUntrusted : W16 := 0x0501
def stOutsideWindow : W16 := 0x0502
def stRateLimited : W16 := 0x0503
def stPkInputRange : W16 := 0x0601
def stPkPointInvalid : W16 := 0x0602
def stVerifyFail : W16 := 0x0603
def stPinMismatch : W16 := 0x0604
def stAuthTagFail : W16 := 0x0605
def stStandby : W16 := 0x0701
def stDeviceErased : W16 := 0x0702
def stAborted : W16 := 0x0703
def stLocked : W16 := 0x0704
def stTenantNoRoot : W16 := 0x0705
def stTenantState : W16 := 0x0706
def stPairRefused : W16 := 0x0707
def stImageRefused : W16 := 0x070A
def stStreamOrder : W16 := 0x0105
def stStreamState : W16 := 0x0106
def stPolicyConflict : W16 := 0x0206
def stNoRoute : W16 := 0x030A
def stRouteCap : W16 := 0x0407
def stDataTimeout : W16 := 0x0408
def stBudgetFull : W16 := 0x0409
def stChallengeFull : W16 := 0x040A
def stNoBudget : W16 := 0x0504
def stPinFormat : W16 := 0x0606
def stPkDecodeFail : W16 := 0x0607
def stTamperState : W16 := 0x0708
def stLcState : W16 := 0x0709
def stInternalFault : W16 := 0x0F01

end Sys2Proof.Machine
end

