-- ==== Sys2Proof/Machine/Table.lean ====
section
/-! DEFINITION. Tables by number and byte-addressed buffers: the two containers the state of the block is built from.
A table lists what differs from its default; a buffer is a list of (address, byte) pairs in one canonical form. -/

namespace Sys2Proof.Machine

/-- The instant at which a command was stamped: in external time, and on the unit's free-running clock, from which
deadlines are counted (13 R350, 10 R282). -/
structure Stamp where
  time : W64
  clk : Nat
  deriving DecidableEq, Repr

/-- A table of values by number; a number with no entry has the default its reader names. -/
abbrev Tbl (α : Type) := List (Nat × α)

/-- The entry at `k`, if the table has one. -/
def tblFind {α : Type} : Tbl α → Nat → Option α
  | [], _ => none
  | (k', v) :: r, k => if k' = k then some v else tblFind r k

/-- The entry at `k`, or `d` where the table has none. -/
def tblGet {α : Type} (d : α) (t : Tbl α) (k : Nat) : α := (tblFind t k).getD d

/-- The table with `v` at `k`, numbers rising. -/
def tblSet {α : Type} : Tbl α → Nat → α → Tbl α
  | [], k, v => [(k, v)]
  | (k', v') :: r, k, v =>
    if k' = k then (k, v) :: r
    else if k < k' then (k, v) :: (k', v') :: r
    else (k', v') :: tblSet r k v

/-- The table without an entry at `k`. -/
def tblErase {α : Type} (t : Tbl α) (k : Nat) : Tbl α := t.filter (fun p => !(p.1 == k))

/-- The entry at `k` changed by `f`, starting from the default `d`. -/
def tblUpd {α : Type} (d : α) (t : Tbl α) (k : Nat) (f : α → α) : Tbl α := tblSet t k (f (tblGet d t k))

/-- The table with every listed value changed by `f`. -/
def tblMap {α : Type} (t : Tbl α) (f : Nat → α → α) : Tbl α := t.map (fun p => (p.1, f p.1 p.2))

/-- The values listed. -/
def tblVals {α : Type} (t : Tbl α) : List α := t.map Prod.snd

/-- A byte-addressed buffer: what it lists differs from zero, addresses strictly rising. -/
abbrev Memory := List Host.Cell

/-- What an address that a buffer does not list reads as (16 R425, Table 16.9: the mailbox resets to 0). -/
def memDefault : Byte := 0

/-- Whether a buffer is in its canonical form: addresses strictly rising from `lo`, no entry equal to the default. -/
def memWfFrom : Nat → Memory → Bool
  | _, [] => true
  | lo, (a, b) :: r => decide (lo ≤ a) && !(b == memDefault) && memWfFrom (a + 1) r

/-- Whether a buffer is in its canonical form. -/
def memWf (m : Memory) : Bool := memWfFrom 0 m

/-- One byte of a buffer. -/
def memRead : Memory → Nat → Byte
  | [], _ => memDefault
  | (a', b) :: r, a => if a' = a then b else memRead r a

/-- A buffer with nothing listed at `a`. -/
def memDrop : Memory → Nat → Memory
  | [], _ => []
  | (a', b') :: r, a => if a' = a then r else (a', b') :: memDrop r a

/-- A buffer with `b` listed at `a`. -/
def memPut : Memory → Nat → Byte → Memory
  | [], a, b => [(a, b)]
  | (a', b') :: r, a, b =>
    if a' = a then (a, b) :: r
    else if a < a' then (a, b) :: (a', b') :: r
    else (a', b') :: memPut r a b

/-- A buffer after one byte is written; writing the default removes the entry. -/
def memWrite (m : Memory) (a : Nat) (b : Byte) : Memory :=
  if b = memDefault then memDrop m a else memPut m a b

/-- A buffer after a string of bytes is written from `a` upward. -/
def memWriteBytes : Memory → Nat → Bytes → Memory
  | m, _, [] => m
  | m, a, b :: bs => memWriteBytes (memWrite m a b) (a + 1) bs

/-- `n` bytes of a buffer from `a` upward. -/
def memReadBytes (m : Memory) (a n : Nat) : Bytes := (List.range n).map (fun i => memRead m (a + i))

end Sys2Proof.Machine
end

