-- ==== Sys2Proof/Machine/TypesDur.lean ====
section
/-! DEFINITION. The durable state of a unit, which the journal carries and the twin copies (14 R366, 19 R472), and the
effects a journal record has on it. -/

namespace Sys2Proof.Machine

/-- The states of a tenant ID (12 Table 12.1). -/
inductive TenState where
  | closed
  | active
  | frozen
  | restoring
  deriving DecidableEq, Repr

/-- TEN_STATE[2:0] (03 Table 3.13). -/
def TenState.code : TenState → Nat
  | .closed => 0
  | .active => 1
  | .frozen => 2
  | .restoring => 3

/-- A migration offer held by the target (12 R340). -/
structure Offer where
  prepId : W64
  expiry : W64
  nonce : Bytes
  ephPriv : Nat
  sourceUid : W64
  bytes : Bytes
  deriving DecidableEq, Repr

/-- A tenant's durable record (12 R320 to R345, 05 R140 to R144). -/
structure Tenant where
  state : TenState
  openCaps : Bool
  epoch : Nat
  trk : Option Bytes
  twkGen : Nat
  sealedCnt : Nat
  cursor : Nat
  creds : Tbl Bytes
  migratedOut : Bool
  offer : Option Offer
  rerootArmed : Option W64
  snapRef : Option W64
  lastSess : Nat
  deriving DecidableEq, Repr

/-- A tenant ID as delivered: CLOSED, nothing configured (00 R2). -/
def Tenant.none : Tenant :=
  { state := .closed, openCaps := false, epoch := 0, trk := Option.none, twkGen := 0, sealedCnt := 0, cursor := 0,
    creds := [], migratedOut := false, offer := Option.none, rerootArmed := Option.none, snapRef := Option.none,
    lastSess := 0 }

/-- A key state table entry (05 R150). -/
structure KstEntry where
  retire : Option W64
  successor : Option W64
  destroyed : Option W64
  deriving DecidableEq, Repr

/-- An entry that records nothing. -/
def KstEntry.none : KstEntry := { retire := Option.none, successor := Option.none, destroyed := Option.none }

/-- A PIN-verification budget (09 R252, R253). `spent` is the second of external time whose
window is taken as spent under R255. -/
structure Budget where
  limit : Nat
  window : Nat
  current : Nat
  count : Nat
  spent : Option Nat
  deriving DecidableEq, Repr

/-- A session (12 R329 to R336). `bitmap` bit i stands for SEQ `h - i`; `limitFrom` is where the 1 s of a half-open session
counts from; `mark` the last mark sent, `acked` the last the twin acknowledged. -/
structure Session where
  kc : Bytes
  km : Bytes
  h : Nat
  bitmap : Nat
  count : Nat
  opened : W64
  expiry : W64
  cred : Nat
  halfOpen : Bool
  limitFrom : W64
  mark : Nat
  acked : Nat
  deriving DecidableEq, Repr

/-- A queue pair of a tenant (03 Tables 3.6, 3.7). `reading` is the instant at which the read of its next entry was issued
(R486). -/
structure QPair where
  sqBase : W64
  sqSize : Nat
  sqTail : Nat
  sqHead : Nat
  cqBase : W64
  cqSize : Nat
  cqHead : Nat
  cqTail : Nat
  phase : Bool
  intEn : Bool
  enable : Bool
  error : Bool
  owner : Port
  stamps : Tbl Stamp
  reading : Option Nat
  deriving DecidableEq, Repr

/-- A queue pair after reset. -/
def QPair.reset : QPair :=
  { sqBase := 0, sqSize := 0, sqTail := 0, sqHead := 0, cqBase := 0, cqSize := 0, cqHead := 0, cqTail := 0,
    phase := true, intEn := false, enable := false, error := false, owner := .a, stamps := [], reading := none }

/-- The network peer of a session or exchange: where a completion datagram goes (03 R86, R94). -/
structure NetPeer where
  port : Nat
  vlan : Nat
  v6 : Bool
  own : Bytes
  peer : Bytes
  udp : Nat
  deriving DecidableEq, Repr

/-- The path a command came by and its completion leaves by (03 Table 3.4, 12 R326). -/
inductive Path where
  | qp (q : Nat)
  | fifo
  | nct (peer : NetPeer) (sid : Nat)
  | admin (p : Port)
  deriving DecidableEq, Repr

/-- A completion ready to be written: 64 bytes with P or V as 0, the result written before it, and its path. `entered` is
the instant at which its command's last byte came in (R98); none where no command was accepted. -/
structure Cpl where
  tenant : Nat
  path : Path
  bytes : Bytes
  resAddr : W64
  res : Bytes
  tag : Option Nat
  opcode : Nat
  entered : Option Nat
  deriving DecidableEq, Repr

/-- A stream context (08 Table 8.13, R229 to R233). `state` 0 IDLE, 1 OPEN, 2 BUSY, 3 FAILED; `chain` the chaining
value, `acc` the GHASH accumulator, `aadLen` the bytes of AAD absorbed; `prior` is SCX_LAST_STAMP before the command
that holds it. `lost` marks a context whose unit lost its streams (R233). -/
structure Stream where
  state : Nat
  mode : Nat
  dir : Nat
  key : W64
  bytes : Nat
  openStamp : W64
  lastStamp : W64
  prior : W64
  event : BitVec 2
  eventEn : BitVec 2
  lastStatus : W16
  iv : Bytes
  tagLen : Nat
  chain : Bytes
  acc : Nat
  aadLen : Nat
  lost : Bool
  deriving DecidableEq, Repr

/-- A context after reset: IDLE. -/
def Stream.reset : Stream :=
  { state := 0, mode := 0, dir := 0, key := 0, bytes := 0, openStamp := 0, lastStamp := 0, prior := 0, event := 0, eventEn := 0,
    lastStatus := 0, iv := [], tagLen := 0, chain := [], acc := 0, aadLen := 0, lost := false }

/-- An entry of the request-ID memory (03 R82). `key` is the tenant ID, or 4,096 for the device domain (01 R29). -/
structure ReqIdEntry where
  key : Nat
  reqId : W64
  digest : Bytes
  committed : W64
  status : W16
  result : Bytes
  unitOnly : Bool
  deriving DecidableEq, Repr

/-- An enrolled custodian: public key (x then y) and enrolment stamp (11 R298). -/
structure Custodian where
  key : Bytes
  stamp : W64
  deriving DecidableEq, Repr

/-- An approval challenge (11 R304 to R309). `state`: 0 open, 1 consumed, 2 closed, 3 closed by the end of its window,
which still serves commands and approvals stamped inside it (Example 11.1). -/
structure Challenge where
  cls : Nat
  opDigest : Bytes
  bytes : Bytes
  opened : W64
  ends : W64
  approvals : Tbl W64
  state : Nat
  localOnly : Bool
  deriving DecidableEq, Repr

/-- A custodian domain: a tenant's, or the device's at number 4,096 (11 R298). `m` lists the policy values set. -/
structure Domain where
  cust : Tbl Custodian
  m : Tbl Nat
  chal : Tbl Challenge
  deriving DecidableEq, Repr

/-- A domain as delivered. -/
def Domain.none : Domain := { cust := [], m := [], chal := [] }

/-- A route: its digits and its record number (07 R192). -/
structure Route where
  digits : List Nat
  recno : Nat
  deriving DecidableEq, Repr

/-- One route set: its routes and its records (07 R189, R194). -/
structure RouteSet where
  routes : List Route
  recs : Tbl Bytes
  deriving DecidableEq, Repr

/-- A shadow set: the set, the nodes copied from the active set (by the digits that lead to them) and the record
numbers that took a fresh slot (07 R194, R197). -/
structure Shadow where
  set : RouteSet
  copied : List (List Nat)
  fresh : List Nat
  deriving DecidableEq, Repr

/-- A tenant's routes (07 R197). -/
structure Routes where
  active : RouteSet
  shadow : Option Shadow
  epoch : W32
  deriving DecidableEq, Repr

/-- No routes. -/
def Routes.none : Routes := { active := { routes := [], recs := [] }, shadow := Option.none, epoch := 0 }

/-- Time configuration (13 Table 13.6). -/
structure TimeCfg where
  holdLimit : W32
  slewMax : W32
  stepGuard : W32
  srcEn : BitVec 3
  ptp0 : Bytes
  ptp1 : Bytes
  deriving DecidableEq, Repr

/-- The time configuration after reset (13 Table 13.9; the sources enabled are the model's, log 11). -/
def TimeCfg.reset : TimeCfg :=
  { holdLimit := 14400, slewMax := 10000, stepGuard := 10000, srcEn := 7, ptp0 := zeroBytes 48, ptp1 := zeroBytes 48 }

/-- A microcode image slot (04 R120). -/
structure ImgSlot where
  usable : Bool
  version : W32
  svn : W16
  digest : Bytes
  image : Bytes
  deriving DecidableEq, Repr

/-- A slot that holds no usable image. -/
def ImgSlot.none : ImgSlot := { usable := false, version := 0, svn := 0, digest := [], image := [] }

/-- What a snapshot carries (12 R338): the volatile sections, and for another unit the tenant's durable state. `pops`
are the completions that wait in CPL_POP. -/
structure SnapImage where
  tenant : Nat
  epoch : Nat
  qps : Tbl QPair
  sess : Tbl Session
  streams : Tbl Stream
  bud : Tbl Budget
  parked : List Cpl
  pops : List Bytes
  reqids : List ReqIdEntry
  rec_ : Option Tenant
  kst : Tbl KstEntry
  routes : Routes
  dom : Domain
  deriving DecidableEq, Repr

/-- The durable state. `sched` are the scheduled instants of keys whose timers have not fired (04 R112). -/
structure Durable where
  ten : Tbl Tenant
  otp : Tbl Nat
  kst : Tbl KstEntry
  sched : List (Nat × W64)
  bud : Tbl Budget
  sess : Tbl Session
  reqids : List ReqIdEntry
  dom : Tbl Domain
  rt : Tbl Routes
  tcfg : TimeCfg
  revertEn : Bool
  revertHold : Nat
  imgA : ImgSlot
  imgB : ImgSlot
  nextChal : Nat
  snaps : Tbl SnapImage
  deriving DecidableEq, Repr

/-- A session's place in the session table. -/
def sessKey (tenant id : Nat) : Nat := tenant * 65536 + id

/-- What one journal record does to durable state, and what follows from it on the unit that commits it. -/
inductive Effect where
  /-- A tenant's record becomes the one given. -/
  | tenant (t : Nat) (rec : Tenant)
  /-- A tenant's OTP epoch counter is programmed up to a value (05 R137). -/
  | epoch (t n : Nat)
  /-- A sealed blob is written at its index (06 R176). -/
  | blob (t index : Nat) (bytes : Bytes)
  /-- A key state entry becomes the one given (05 R150). -/
  | kst (handle : W64) (e : KstEntry)
  /-- A key's activation and retirement instants are scheduled (04 R107). -/
  | schedule (handle : W64) (due : W64)
  /-- A destroyed key's line is zeroed (05 R152). -/
  | zeroKey (handle : W64)
  /-- A tenant's lines, key state entries, budgets and streams go (05 R141). -/
  | dropKeys (t : Nat)
  /-- A budget is set or removed (09 R252). -/
  | budget (handle : W64) (b : Option Budget)
  | budgetSet (handle : W64) (limit window : Nat) (stamp : W64)
  /-- A session opens (12 R330). -/
  | session (key : Nat) (s : Session)
  /-- A session closes (12 R332). -/
  | closeSession (key : Nat)
  /-- A custodian domain becomes the one given (11 R309). -/
  | domain (d : Nat) (rec : Domain)
  /-- A challenge is consumed (11 R308). -/
  | consumed (d id : Nat)
  /-- A tenant's routes become those given (07 R198); true at a switch of sets (07 R199). -/
  | routes (t : Nat) (rec : Routes) (switched : Bool)
  /-- A tenant's remaining state goes at closure (12 R324). -/
  | closeTenant (t : Nat)
  /-- A tenant's attachments start fetching again (12 R341). -/
  | resumed (t : Nat)
  /-- Undelivered completions, queue pairs and streams of a snapshot are installed (12 R341). -/
  | restored (image : SnapImage)
  /-- Time sources, limits and guards change (13 R358). -/
  | timeCfg (c : TimeCfg)
  /-- Time is set once from a source, by its place in the priority (13 R358). -/
  | timeSet (src : Nat) (offset : Int)
  /-- Revert settings change (14 R379). -/
  | revert (en : Bool) (hold : Nat)
  /-- A staged image becomes pending (04 R125). -/
  | image (digest : Bytes) (version : W32) (svn : W16) (advance : Bool)
  /-- The calibration set is replaced (15 R406). -/
  | calibration (bytes : Bytes)
  /-- The maintenance window opens or closes, this unit only (11 R314). -/
  | maint (window : Option (W64 × W64))
  /-- The event recorder log is erased (17 R433). -/
  | evrClear
  /-- The pair forms with a unit; this one is HOME, and serves as Windward (14 R362). -/
  | paired (uid : W64) (home windward : Bool)
  /-- The pair ends (14 R382). -/
  | unpaired
  /-- The unit promotes itself (14 R371, R376). -/
  | promote (forced : Bool)
  /-- Budgets counted attempts snapshot (09 R254). -/
  | snapshot (bud : Tbl Budget)
  /-- A key-schedule timer fired for a key (04 R110). -/
  | fired (handle : W64) (due : W64)
  /-- An armed re-root lapses (12 R323). -/
  | lapse (t : Nat)
  /-- A snapshot of kind 0 was written under a fresh REF (12 R339). -/
  | saved (t : Nat) (ref : W64) (image : SnapImage)
  /-- An approval or component that came by a custodian port has committed: its RESULT goes out, on the unit that issued
  the record (11 R305, R312). -/
  | portResult (port id : Nat)
  /-- The unit is readmitted or released after an erasure (15 R401, R402). -/
  | readmit
  | release
  deriving DecidableEq, Repr

/-- What a record carries for the request-ID memory and the completion (03 R82). -/
structure RecReq where
  key : Nat
  reqId : W64
  digest : Bytes
  status : W16
  result : Bytes
  deriving DecidableEq, Repr

/-- A journal record (14 R365). `tag` is the command it belongs to, on the unit that issued it. -/
structure JRecord where
  jsn : W64
  effects : List Effect
  req : Option RecReq
  tag : Option Nat
  unitOnly : Bool
  deriving DecidableEq, Repr

/-- A heartbeat of the twin (14 R369). -/
structure Heartbeat where
  role : Nat
  epoch : W64
  jsn : W64
  health : Nat
  now : W64
  deriving DecidableEq, Repr

/-- What is sent to the twin on the Crosswind links (chapter 14; 09 R254, 12 R334, 04 R125, 17 R442): a record with its
numbering, acknowledgements, notices of commits and of DESYNC, heartbeats, the acknowledgement of a session's mark, an
image and the report on it, HANDOVER, the word for an unpairing, the health report, and the parts of a
resynchronisation. -/
inductive TwinMsg where
  | record (r : JRecord)
  | ack (jsn : W64)
  | notice (stamps : List (W64 × W64))
  | desync
  | heartbeat (h : Heartbeat)
  | markAck (ten sid mark : Nat)
  | image (img : Bytes)
  | imageReport (ok : Bool)
  | handover (jsn : W64) (hs : List (Nat × Nat))
  | unpairAsk
  | health (rep : Bytes)
  | resync (fromJsn : W64) (full : Bool)
  | resyncImage (d : Durable)
  | blobs (ten fromIdx toIdx : Nat)
  deriving DecidableEq, Repr

end Sys2Proof.Machine
end

