-- ==== Sys2Proof/Syntax.lean ====
section
/-! DEFINITION. The commands the block takes: one constructor of `Instr` per row of spec/opcode_table.json, and the
types of their operands. What the outside decides (data read, frames received, physical outcomes) is an operand. -/

namespace Sys2Proof

open Sys2Proof.Machine

/-- How a read of host memory fails (03 R71); a completion timeout is HOST_READ_TIMEOUT. -/
inductive ReadFail where
  | unsupported
  | completerAbort
  | poisoned
  deriving DecidableEq, Repr

/-- How a read of host memory ends. -/
inductive ReadResult where
  | data (b : Bytes)
  | failed (k : ReadFail)
  deriving DecidableEq, Repr

/-- A submission queue: queue pair `q` of a tenant, or the admin queue of a port. -/
inductive QId where
  | qp (ten q : Nat)
  | admin (p : Port)
  deriving DecidableEq, Repr

/-- What a read of host memory was for, and of a job's its address (03 R486). -/
inductive ReadSrc where
  | entry (q : QId)
  | capsule (id : Nat)
  | blob (slot : Nat)
  | job (tag : Nat) (addr : W64)
  deriving DecidableEq, Repr

/-- A register access as its initiator issues it (02 R33, R55). `be` lists the byte enables, empty for all enabled;
`vfTable` says that a VF accesses its own BAR2 (02 R50). -/
structure Access where
  ini : Initiator
  vfTable : Bool
  addr : Nat
  write : Bool
  len : Nat
  data : Bytes
  be : List Bool
  deriving DecidableEq, Repr

/-- What a received frame shows at the IP and UDP layers (03 R86): an ordinary one, a fragment, one with IPv4 options or
IPv6 extension headers, a UDP checksum of 0, and a checksum that fails. -/
inductive FrameKind where
  | plain
  | fragment
  | options
  | sumZero
  | sumBad
  deriving DecidableEq, Repr

/-- A network frame as received: `tag` is the VID of its 802.1Q tag, none where it has no tag (03 R95). `src` and `dst`
are IP addresses in network order; `target` is the address an ARP request or solicitation asks for. -/
structure NetFrame where
  port : Nat
  tag : Option Nat
  v6 : Bool
  srcMac : Bytes
  src : Bytes
  dst : Bytes
  target : Bytes
  srcPort : Nat
  dstPort : Nat
  frameLen : Nat
  kind : FrameKind
  payload : Bytes
  deriving DecidableEq, Repr

/-- The VLAN a frame belongs to: a priority tag (VID 0) is treated as no tag (03 R95). -/
def NetFrame.vlan (f : NetFrame) : Nat := f.tag.getD 0

/-- A frame on a custodian port (11 R315). -/
structure CustFrame where
  port : Nat
  seq : Nat
  payload : Bytes
  crcOk : Bool
  deriving DecidableEq, Repr

/-- The window registers of BSX (06 Table 6.7). -/
inductive WinReg where
  | base
  | size
  | ctl
  deriving DecidableEq, Repr

/-- A time source (13 Table 13.1). -/
inductive TimeSrc where
  | ptp0
  | ptp1
  | pps
  | tod
  deriving DecidableEq, Repr

/-- A PTP message as received (13 R347). `secs` and `nanos` are its timestamp; `rxDelta` the correction field in ns. -/
structure PtpMsg where
  port : Nat
  vlan : Nat
  transport : Nat
  unicast : Bool
  domain : Nat
  clockId : Bytes
  portNo : Nat
  src : Bytes
  secs : Nat
  nanos : Nat
  correction : Int
  ptpTimescale : Bool
  clockClass : Nat
  deriving DecidableEq, Repr

/-- A frame received on a Crosswind link: the link, its frame counter, and whether its tag holds under the link's key
(14 R363). The message it carries stands beside it. -/
structure LinkFrame where
  link : Nat
  ctr : Nat
  tagOk : Bool
  deriving DecidableEq, Repr

/-- What the other unit presents in a link handshake (14 R364, R362, R375), its time (TIME64, TIM_STAT.STATE and
holdover age in s, 13 R356) and its tenants' blob index cursors (R377). `lanes` is how many lanes trained (18 R458);
`nonce` and `eph`, a P-384 point x then y, are its part of the exchange; `sigOk` says that its signature holds under
the key of its certificate. -/
structure LinkHello where
  lanes : Nat
  uid : W64
  cert : Bytes
  nonce : Bytes
  eph : Bytes
  sigOk : Bool
  peerUid : W64
  paired : Bool
  role : Nat
  starting : Bool
  home : Bool
  jsn : W64
  keys : List Bytes
  tenants : Bool
  pairing : Bool
  format : Bool
  writes : Nat
  now : W64
  timState : Nat
  holdAge : Nat
  cursors : List (Nat × Nat)
  deriving DecidableEq, Repr

/-- What a Leeward has received by the end of a resynchronisation: the image of all durable state where one was sent,
with the JSN it stands at, the blobs, and how many bytes came (14 R377). -/
structure ResyncData where
  image : Option Durable
  jsn : W64
  blobs : List (Nat × Nat × Bytes)
  bytes : Nat
  deriving DecidableEq, Repr

/-- What happens to a backup cell (15 R391). -/
inductive CellEv where
  | removed
  | inserted
  | low
  | depleted
  | recovered
  deriving DecidableEq, Repr

/-- The supplies the SSV runs from (15 R386). -/
inductive SsvPower where
  | main
  | aux
  | lull
  deriving DecidableEq, Repr

/-- How the host reads of a job end (08 R222, R225): the 16-byte entries of its input, output and AAD lists in the
order read; the AAD and then the input data they name; the input data as the second pass of an AEAD decryption reads
it again (08 R227); and whether the two evaluations of a verdict taken on that data agree (15 R403). Or how the reads
failed, and at which host address; or, for an image staged on the twin, what the twin reports of it (04 R125). -/
inductive JobIo where
  | data (ins outs aads b again : Bytes) (agree : Bool)
  | readFailed (addr : W64)
  | linkLost (addr : W64)
  | twinReport (ok : Bool)
  deriving DecidableEq, Repr

/-- A job that ran into its limit: its tag, what it had read by then, and the 4 KiB segments of output it had written
(08 R224). -/
structure JobStop where
  tag : Nat
  io : JobIo
  segs : Nat
  deriving DecidableEq, Repr

/-- An engine that takes an operation, and how long its loading takes, in ns (10 R275). -/
structure EngLoad where
  eng : Nat
  load : Nat
  deriving DecidableEq, Repr

/-- The raw samples an entropy source gave: of the window that failed, then of the start-up tests repeated (05 R160). -/
structure SourceRuns where
  src : Nat
  runs : List (List Bool)
  deriving DecidableEq, Repr

/-- A function of a PCIe port: 0 the PF, above it a VF. -/
structure PcieFn where
  port : Port
  fn : Nat
  deriving DecidableEq, Repr

/-- A unit HLT tests (17 Table 17.5). -/
inductive KatUnit where
  | scePipe (n : Nat)
  | ghash (n : Nat)
  | numeral (n : Nat)
  | dgePipe (n : Nat)
  | pkeEngine (n : Nat)
  | core (n : Nat)
  | block (b : Blk)
  deriving DecidableEq, Repr

/-- An instruction of the test access port (16 R424). -/
inductive TapIr where
  | bypass
  | idcode
  | extest
  | samplePreload
  | clamp
  | highz
  | dbgAccess
  deriving DecidableEq, Repr

/-- What an SRAM scrub finds (17 R441). -/
inductive EccErr where
  | none
  | correctable
  | uncorrectable
  deriving DecidableEq, Repr

/-- The physical outcomes of a start (19 Tables 19.1, 19.2): what each read of the PUF array gives (05 R128), whether
the decisions taken twice agree, the raw samples of each run of the two entropy sources' start-up tests (05 R159), the
tests that fail, the table that fails its tag (by its partition of Table 19.3), the flushed state that fails its
check, the tenants whose epoch counters hold a weak bit (05 Table 5.3), the stored calibration set, the hold-up bank,
the share of rated wear in 0.1 % the store reports and the flash reads corrected and the store address of one that
could not be (19 Table 19.8), by how many 1/16 °C the two temperature detectors differ before cross-calibration (15
R390), and the record slots whose check fails at read-out (15 R399). -/
structure StartOutcome where
  puf : List Bytes
  decodeAgree : Bool
  rootAgree : Bool
  es1 : List (List Bool)
  es2 : List (List Bool)
  imageAgree : Bool
  katFails : List KatUnit
  restoreFail : Option Nat
  tornFlush : Bool
  otpWeak : List Nat
  calOk : Bool
  holdupMj : Nat
  wear : Nat
  flashFixed : Nat
  flashBad : Option Nat
  tempApart : Nat
  badRecs : List Nat
  deriving DecidableEq, Repr

/-- The commands of the block, one constructor per row of spec/opcode_table.json. Each carries first the instant `t` at
which it happens, in nanoseconds of the unit's free-running clock (log 1). An opcode row names the tag it runs for. -/
inductive Instr where
  /-- SQ_ENTRY_FETCH (R70): A submission entry fetched from a tenant or admin submission queue is checked and its
  inline capsule enters acceptance. -/
  | sqEntryFetch (t : Nat) (q : QId) (entry : Bytes)
  /-- SQ_ENTRY_READ_FAIL (R71): A failed read of a submission entry stops fetching from that queue and sets
  QP_STAT.ERROR or DEV_ADMQ_STAT.FETCH_ERR. -/
  | sqEntryReadFail (t : Nat) (q : QId) (k : ReadFail)
  /-- POINTER_CAPSULE_READ (R71): The read of a pointer-form capsule completes and the capsule enters acceptance, or
  completes with ST_BAD_POINTER on failure. -/
  | pointerCapsuleRead (t : Nat) (id : Nat) (r : ReadResult)
  /-- HOST_READ_TIMEOUT (R486): A read issued to host memory has no completion 50 µs after issue and is declared a
  completion timeout. -/
  | hostReadTimeout (t : Nat) (src : ReadSrc)
  /-- FIFO_COMMAND_TAKE (R77): A command whose words are all in CMD_PUSH is taken once a tag is available and its
  words return to the credit. -/
  | fifoCommandTake (t : Nat) (ten : Nat)
  /-- NCT_DATA_RX (R89): A received NCT DATA datagram is validated, its DSN tracked and its capsules passed to
  acceptance or the datagram dropped. -/
  | nctDataRx (t : Nat) (f : NetFrame)
  /-- NCT_ACK_RX (R91): An acknowledgement from the client releases the acknowledged completion datagrams. -/
  | nctAckRx (t : Nat) (f : NetFrame)
  /-- NCT_ACK_DELAY_EXPIRY (R91): When no DATA datagram has carried an acknowledgement within NCT_ACK_DELAY the module
  sends an ACK datagram. -/
  | nctAckDelayExpiry (t : Nat) (ten sid : Nat)
  /-- NCT_RETRANSMIT (R91): An unacknowledged completion datagram is retransmitted after NCT_RTO with doubling
  interval, and given up after NCT_RETRIES. -/
  | nctRetransmit (t : Nat) (ten sid dsn : Nat)
  /-- NCT_COALESCE_EXPIRY (R92): A held completion datagram leaves when NCT_COALESCE has elapsed since its first
  completion was ready. -/
  | nctCoalesceExpiry (t : Nat) (ten sid : Nat)
  /-- ARP_REQUEST_RX (R93): An ARP request for one of the module's own addresses on the matching port and VLAN is
  answered. -/
  | arpRequestRx (t : Nat) (f : NetFrame)
  /-- NEIGHBOR_SOLICITATION_RX (R93): An IPv6 Neighbor Solicitation for an own address is answered. -/
  | neighborSolicitationRx (t : Nat) (f : NetFrame)
  /-- ICMP_ECHO_REQUEST_RX (R93): An ICMP or ICMPv6 Echo Request to an own address is answered. -/
  | icmpEchoRequestRx (t : Nat) (f : NetFrame)
  /-- PCIE_ATOMIC_IO_REQUEST (R33): An AtomicOp or I/O request is answered with Unsupported Request and changes nothing. -/
  | pcieAtomicIoRequest (t : Nat) (p : Port) (addr : Nat)
  /-- PCIE_CONFIG_REQUEST (R470): A configuration request is answered with Configuration Request Retry Status before
  the port is ready, and normally afterwards. -/
  | pcieConfigRequest (t : Nat) (f : PcieFn) (write : Bool) (reg : Nat) (v : W32)
  /-- PERST_ASSERT (R462): Assertion of a port's PERST resets that port's PCIe interface and configuration space and
  takes its link down. -/
  | perstAssert (t : Nat) (p : Port)
  /-- PERST_RELEASE (R462): Release of a port's PERST lets that port train and answer configuration again. -/
  | perstRelease (t : Nat) (p : Port)
  /-- PORT_LINK_UP (R176): A PCIe port regains link and the blob writes held for it are reissued. -/
  | portLinkUp (t : Nat) (p : Port) (width gen : Nat)
  /-- REGISTER_WRITE (R55): A write to a register with no behaviour of its own is decided by the ACU and applied under
  its access code. -/
  | registerWrite (t : Nat) (a : Access)
  /-- BLK_QUIESCE (R36): Writing BLK_CTL.QUIESCE makes a block finish its work in hand and accept none. -/
  | blkQuiesce (t : Nat) (ini : Initiator) (b : Blk) (v : Bool)
  /-- BLK_ENABLE (R36): A write of BLK_CTL.ENABLE is honoured as a disable only while the block is quiesced. -/
  | blkEnable (t : Nat) (ini : Initiator) (b : Blk) (v : Bool)
  /-- SELFTEST_REQ (R35): Writing BLK_CTL.SELFTEST_REQ requests a full known-answer test of the block at its next idle
  slots. -/
  | selftestReq (t : Nat) (ini : Initiator) (b : Blk)
  /-- INT_STAT_CLEAR (R38): A write of 1 to an INT_STAT bit clears it, releases the held error record when it is the
  held bit, and may re-signal the vector. -/
  | intStatClear (t : Nat) (ini : Initiator) (b : Blk) (v : W32)
  /-- INT_TEST (R35): Writing INT_TEST sets the matching INT_STAT bits without an error record. -/
  | intTest (t : Nat) (ini : Initiator) (b : Blk) (v : W32)
  /-- ACU_VIO_NEXT (R60): Writing ACU_VIO_NEXT discards the oldest violation record and shows the next. -/
  | acuVioNext (t : Nat) (ini : Initiator)
  /-- QP_SQ_TAIL_DOORBELL (R75): A write to QP_SQ_TAIL stamps and makes fetchable the entries it covers, or is ignored
  with DOORBELL_ERR. -/
  | qpSqTailDoorbell (t : Nat) (ini : Initiator) (ten q : Nat) (v : W32)
  /-- QP_CQ_HEAD_DOORBELL (R74): A write to QP_CQ_HEAD frees completion queue slots so that parked completions can be
  written. -/
  | qpCqHeadDoorbell (t : Nat) (ini : Initiator) (ten q : Nat) (v : W32)
  /-- QP_ENABLE (R73): Writing ENABLE from 0 to 1 resets the queue positions and phase and starts fetching. -/
  | qpEnable (t : Nat) (ini : Initiator) (ten q : Nat) (intEn : Bool)
  /-- QP_DISABLE (R73): Writing ENABLE to 0 stops fetching at once; ACTIVE clears after the last command in flight
  completes. -/
  | qpDisable (t : Nat) (ini : Initiator) (ten q : Nat) (intEn : Bool)
  /-- QP_SQ_BASE_WRITE (R48): A write to a submission queue base of an inactive queue pair is accepted and moves the
  queue pair to the port that carried it. -/
  | qpSqBaseWrite (t : Nat) (ini : Initiator) (ten q : Nat) (hi : Bool) (v : W32)
  /-- ADMQ_SQ_TAIL_DOORBELL (R487): A write to ADMQ_SQ_TAIL makes admin entries fetchable, or is ignored with
  DOORBELL_ERR. -/
  | admqSqTailDoorbell (t : Nat) (p : Port) (v : W32)
  /-- ADMQ_CQ_HEAD_DOORBELL (R487): A write to ADMQ_CQ_HEAD frees admin completion slots so that waiting completions
  are written. -/
  | admqCqHeadDoorbell (t : Nat) (p : Port) (v : W32)
  /-- ADMQ_SQ_SIZE_WRITE (R487): An accepted write of ADMQ_SQ_SIZE restarts or disables the admin submission queue and
  applies staged base writes. -/
  | admqSqSizeWrite (t : Nat) (p : Port) (v : W32)
  /-- ADMQ_CQ_SIZE_WRITE (R487): An accepted write of ADMQ_CQ_SIZE restarts or disables the admin completion queue and
  applies staged base writes. -/
  | admqCqSizeWrite (t : Nat) (p : Port) (v : W32)
  /-- CMD_PUSH (R78): A word pushed into CMD_PUSH is appended, or discarded with OVERRUN or FRAME_ERR. -/
  | cmdPush (t : Nat) (ini : Initiator) (ten : Nat) (w : W64)
  /-- CPL_POP (R79): A 64-bit read of CPL_POP returns and removes the next completion word, or 0 when empty. -/
  | cplPop (t : Nat) (ini : Initiator) (ten : Nat)
  /-- CPL_FLUSH (R80): Writing CPL_CTL.FLUSH discards the completions held in CPL_POP at the next completion boundary. -/
  | cplFlush (t : Nat) (ini : Initiator) (ten : Nat)
  /-- CMD_DROP (R80): Writing CPL_CTL.CMD_DROP discards the words of a command not yet fully pushed. -/
  | cmdDrop (t : Nat) (ini : Initiator) (ten : Nat)
  /-- GETWORK (R113): A waiting TXP context is granted the next ready tag chosen by priority level and deficit round
  robin and runs its opcode program. -/
  | getwork (t : Nat) (core ctx : Nat)
  /-- TAG_AGE_PROMOTE (R101): A tag that has waited SCH_AGE at its level moves up one level. -/
  | tagAgePromote (t : Nat) (tag : Nat)
  /-- YIELD (R117): A program executes YIELD, releasing engine slots and returning its tag to level 7. -/
  | yieldTag (t : Nat) (tag : Nat)
  /-- CYCLE_BUDGET_EXHAUSTED (R117): A dispatch whose cycle budget runs out ends the command with ST_INTERNAL_FAULT
  and releases its resources. -/
  | cycleBudgetExhausted (t : Nat) (tag : Nat)
  /-- SCH_AGE_WRITE (R104): A write to SCH_AGE takes effect at once for every waiting tag. -/
  | schAgeWrite (t : Nat) (ini : Initiator) (v : W32)
  /-- KEY_SCHEDULE_TIMER (R151): A key activation or retirement timer fires and records the key's state change. -/
  | keyScheduleTimer (t : Nat)
  /-- BUDGET_ROLLOVER_TIMER (R111): A rate-budget window rollover timer fires and resets the window's count. -/
  | budgetRolloverTimer (t : Nat)
  /-- BUDGET_SNAPSHOT (R254): Every 1 s the system timer writes a snapshot of the budget table to the journal. -/
  | budgetSnapshot (t : Nat)
  /-- KEY_GENERATE (R266): Creates a symmetric key from ATTR with a fresh value and returns its handle and KCV. -/
  | keyGenerate (t : Nat) (tag : Nat)
  /-- KEY_IMPORT_BLOCK (R148): Imports an X9.143 key block under a K1 key and creates a handle. -/
  | keyImportBlock (t : Nat) (tag : Nat)
  /-- KEY_EXPORT_BLOCK (R156): Exports a key as an X9.143 key block under a K1 key as its EXPORT field permits. -/
  | keyExportBlock (t : Nat) (tag : Nat)
  /-- KEY_IMPORT_PUBLIC (R155): Checks and imports a public key supplied in clear and creates a handle. -/
  | keyImportPublic (t : Nat) (tag : Nat)
  /-- KEY_DERIVE (R267): Derives and stores a DUKPT initial key or EMV ICC master key from a parent key. -/
  | keyDerive (t : Nat) (tag : Nat)
  /-- KEY_ROTATE (R154): Creates a successor key and records it with a retirement instant in the old key's KST entry. -/
  | keyRotate (t : Nat) (tag : Nat)
  /-- KEY_RETIRE (R151): Sets or brings forward a key's retirement instant. -/
  | keyRetire (t : Nat) (tag : Nat)
  /-- KEY_DESTROY (R152): Marks a key DESTROYED at commit so that its blob is refused forever. -/
  | keyDestroy (t : Nat) (tag : Nat)
  /-- KEY_INFO (R268): Returns a key's attributes, state, KCV, successor and effective retirement. -/
  | keyInfo (t : Nat) (tag : Nat)
  /-- WRAP_ADVANCE (R144): Advances the tenant's TWK generation. -/
  | wrapAdvance (t : Nat) (tag : Nat)
  /-- PIN_TRANSLATE (R248): Translates a PIN block between keys and formats with fresh fill. -/
  | pinTranslate (t : Nat) (tag : Nat)
  /-- PIN_TRANSLATE_ROUTED (R248): Translates a PIN block to the key of the PAN's route record. -/
  | pinTranslateRouted (t : Nat) (tag : Nat)
  /-- PIN_VERIFY_OFFSET (R249): Verifies a PIN by the decimalised offset method against the PVK's budget. -/
  | pinVerifyOffset (t : Nat) (tag : Nat)
  /-- PIN_VERIFY_REFERENCE (R250): Verifies a PIN block against a reference block. -/
  | pinVerifyReference (t : Nat) (tag : Nat)
  /-- PIN_CHANGE (R251): Verifies the old PIN and returns a new offset or reference block for the new PIN. -/
  | pinChange (t : Nat) (tag : Nat)
  /-- PIN_OFFSET_GENERATE (R249): Returns the offset that makes a PIN verify under the PVK. -/
  | pinOffsetGenerate (t : Nat) (tag : Nat)
  /-- PIN_BUDGET_SET (R252): Creates, replaces or deletes the PIN-verification budget of a key. -/
  | pinBudgetSet (t : Nat) (tag : Nat)
  /-- PIN_BUDGET_GET (R256): Returns a key's budget with window and count brought forward to the stamp. -/
  | pinBudgetGet (t : Nat) (tag : Nat)
  /-- DUKPT_PIN_TRANSLATE (R260): Derives the DUKPT PIN key and translates the terminal's PIN block. -/
  | dukptPinTranslate (t : Nat) (tag : Nat)
  /-- DUKPT_PIN_TRANSLATE_ROUTED (R260): Translates a DUKPT PIN block to the key of the PAN's route record. -/
  | dukptPinTranslateRouted (t : Nat) (tag : Nat)
  /-- DUKPT_MAC_VERIFY (R260): Verifies a MAC under a derived DUKPT MAC key. -/
  | dukptMacVerify (t : Nat) (tag : Nat)
  /-- DUKPT_IK_EXPORT (R260): Derives a DUKPT initial key and returns it only as an X9.143 block under a trusted KBPK. -/
  | dukptIkExport (t : Nat) (tag : Nat)
  /-- MAC_GENERATE (R261): Generates a MAC over the data under an M1, M3 or M6 key. -/
  | macGenerate (t : Nat) (tag : Nat)
  /-- MAC_VERIFY (R261): Verifies a MAC in constant time. -/
  | macVerify (t : Nat) (tag : Nat)
  /-- MAC_VERIFY_ROUTED (R261): Verifies a MAC under the route record's MAC key, retrying under its active successor. -/
  | macVerifyRouted (t : Nat) (tag : Nat)
  /-- EMV_ARQC_VERIFY (R263): Verifies an ARQC and returns an ARPC by the requested method. -/
  | emvArqcVerify (t : Nat) (tag : Nat)
  /-- EMV_SCRIPT_MAC (R263): Returns the script MAC under the integrity session key. -/
  | emvScriptMac (t : Nat) (tag : Nat)
  /-- EMV_SCRIPT_ENCRYPT (R263): Encrypts script data in CBC mode under the confidentiality session key. -/
  | emvScriptEncrypt (t : Nat) (tag : Nat)
  /-- CSC_GENERATE (R264): Computes a card security code. -/
  | cscGenerate (t : Nat) (tag : Nat)
  /-- CSC_VERIFY (R264): Verifies a card security code in constant time. -/
  | cscVerify (t : Nat) (tag : Nat)
  /-- TOKENISE (R265): Encrypts the middle digits of a PAN by FF1 into a token. -/
  | tokenise (t : Nat) (tag : Nat)
  /-- DETOKENISE (R265): Decrypts a token to a PAN returned only sealed. -/
  | detokenise (t : Nat) (tag : Nat)
  /-- BLOB_READ_COMPLETE (R174): A blob read completes and KHS checks it, filling the line for every waiter or
  refusing it under Table 6.1. -/
  | blobReadComplete (t : Nat) (slot : Nat) (r : ReadResult)
  /-- BLOB_READ_RETRY (R174): A blob-fetch retry timer fires and the failed read is reissued. -/
  | blobReadRetry (t : Nat) (slot : Nat)
  /-- BLOB_FETCH_DEADLINE (R174): A blob fetch not complete 200 µs after first issue is abandoned with ST_BLOB_TIMEOUT
  for every waiter. -/
  | blobFetchDeadline (t : Nat) (slot : Nat)
  /-- LINE_REMASK (R178): A line due after 2^20 deliveries or 10 s is re-masked with a fresh value. -/
  | lineRemask (t : Nat) (line : Nat)
  /-- AGE_EVICT_VISIT (R187): The ageing visit evicts unpinned lines of a tenant older than its AGE_LIMIT. -/
  | ageEvictVisit (t : Nat) (ten : Nat)
  /-- LINE_ECC_ERROR (R179): An uncorrectable line store error zeroes the line and refetches its blob for the waiters. -/
  | lineEccError (t : Nat) (line : Nat)
  /-- REHASH_START (R183): Writing KCH_REHASH_CTL.START copies the new seed and starts a rehash. -/
  | rehashStart (t : Nat) (ini : Initiator)
  /-- REHASH_DONE (R184): The walker finishes, the stash is reinserted, the banks swap and the old bank is cleared. -/
  | rehashDone (t : Nat)
  /-- BSX_WIN_WRITE (R169): A write to a blob store window register is applied whole or ignored with REFUSED. -/
  | bsxWinWrite (t : Nat) (ini : Initiator) (reg : WinReg) (v : W64)
  /-- AEAD_ENCRYPT (R222): Runs a GCM or CCM encryption job over host data. -/
  | aeadEncrypt (t : Nat) (tag : Nat)
  /-- AEAD_DECRYPT (R227): Runs a two-pass AEAD decryption job and writes plaintext only after the tag verifies. -/
  | aeadDecrypt (t : Nat) (tag : Nat)
  /-- CIPHER_ENCRYPT (R222): Runs a CBC or CTR encryption job. -/
  | cipherEncrypt (t : Nat) (tag : Nat)
  /-- CIPHER_DECRYPT (R222): Runs a CBC or CTR decryption job. -/
  | cipherDecrypt (t : Nat) (tag : Nat)
  /-- STREAM_OPEN (R229): Opens a stream context with key, mode and IV. -/
  | streamOpen (t : Nat) (tag : Nat)
  /-- STREAM_UPDATE (R230): Processes the next data of an open stream at the expected offset. -/
  | streamUpdate (t : Nat) (tag : Nat)
  /-- STREAM_FINAL (R230): Processes the tail of a stream, returns any tag and returns the context to IDLE. -/
  | streamFinal (t : Nat) (tag : Nat)
  /-- STREAM_ABORT (R229): Aborts a stream, stopping any held job at its next segment boundary. -/
  | streamAbort (t : Nat) (tag : Nat)
  /-- STREAM_IDLE_EXPIRY (R232): A context idle for SCE_STREAM_IDLE becomes IDLE, is zeroed and sets SCX_EVENT.EXPIRED. -/
  | streamIdleExpiry (t : Nat) (ten c : Nat)
  /-- RANDOM_GET (R161): Returns random bytes from D1. -/
  | randomGet (t : Nat) (tag : Nat)
  /-- DIGEST (R235): Hashes inline or listed data. -/
  | digest (t : Nat) (tag : Nat)
  /-- HMAC_GENERATE (R235): Returns an HMAC under an M7 key. -/
  | hmacGenerate (t : Nat) (tag : Nat)
  /-- HMAC_VERIFY (R235): Verifies an HMAC in constant time. -/
  | hmacVerify (t : Nat) (tag : Nat)
  /-- JOB_SLOT_GRANT (R223): A waiting command receives a job slot and its job is placed on the least loaded pipeline. -/
  | jobSlotGrant (t : Nat) (tag : Nat)
  /-- JOB_SLOT_TIMEOUT (R223): A command without a job slot after 2 ms completes with ST_RETRY_LATER. -/
  | jobSlotTimeout (t : Nat) (tag : Nat)
  /-- JOB_END (R222): A job ends and its tag returns to level 7 to finish. -/
  | jobEnd (t : Nat) (tag : Nat) (io : JobIo)
  /-- JOB_TIMEOUT (R224): A job not ended 8 ms after leaving its slot queue stops with ST_DATA_TIMEOUT. -/
  | jobTimeout (t : Nat) (j : JobStop)
  /-- PK_SIGN (R289): Hands a signature operation to PKE. -/
  | pkSign (t : Nat) (tag : Nat)
  /-- PK_VERIFY (R281): Hands a signature verification to PKE. -/
  | pkVerify (t : Nat) (tag : Nat)
  /-- PK_ENCRYPT (R291): Hands an RSA-OAEP encryption to PKE. -/
  | pkEncrypt (t : Nat) (tag : Nat)
  /-- PK_DECRYPT (R291): Hands an RSA-OAEP decryption to PKE, sealed capsules only. -/
  | pkDecrypt (t : Nat) (tag : Nat)
  /-- PK_KEYGEN (R292): Generates a key pair on PKE and creates private and public handles. -/
  | pkKeygen (t : Nat) (tag : Nat)
  /-- PK_AGREE (R293): Performs key agreement on PKE and derives and stores a new key. -/
  | pkAgree (t : Nat) (tag : Nat)
  /-- PK_AGREE_CHECK (R291): Checks a peer public key on PKE. -/
  | pkAgreeCheck (t : Nat) (tag : Nat)
  /-- PK_CANCEL (R294): Aborts every uncompleted public-key command of the tenant with the given request ID. -/
  | pkCancel (t : Nat) (tag : Nat)
  /-- PKE_ENGINE_GRANT (R283): A free engine takes the head of the queue ordered by latest start and begins LOADING. -/
  | pkeEngineGrant (t : Nat) (e : EngLoad)
  /-- PK_DISPATCH_DEADLINE (R282): A public-key tag not dispatched 4 ms after its stamp is withdrawn with ST_RETRY_LATER. -/
  | pkDispatchDeadline (t : Nat) (tag : Nat)
  /-- PK_LATEST_START_EXPIRY (R282): An operation without its first program step by L completes with ST_RETRY_LATER. -/
  | pkLatestStartExpiry (t : Nat) (tag : Nat)
  /-- PKE_OPERATION_COMPLETE (R285): An engine signals the end of an operation and the tag returns to level 7. -/
  | pkeOperationComplete (t : Nat) (eng : Nat) (fault : Bool)
  /-- PKE_ZEROING_DONE (R285): An engine finishes zeroing its operand memory and returns to the pool or is withdrawn. -/
  | pkeZeroingDone (t : Nat) (eng : Nat)
  /-- PKE_ENGINE_TEST (R284): An engine whose last test is 90 ms old runs slot 0x00 after its operation, or at a key
  generation round boundary. -/
  | pkeEngineTest (t : Nat) (eng : Nat) (pass : Bool)
  /-- RT_RECORD_SET (R190): Writes a route record in the tenant's shadow set. -/
  | rtRecordSet (t : Nat) (tag : Nat)
  /-- RT_ROUTE_UPDATE (R202): Applies set and delete entries to the shadow set, whole or not at all. -/
  | rtRouteUpdate (t : Nat) (tag : Nat)
  /-- RT_COMMIT (R199): Makes the shadow set active and increments the route epoch. -/
  | rtCommit (t : Nat) (tag : Nat)
  /-- RT_ABORT (R197): Discards the tenant's shadow set. -/
  | rtAbort (t : Nat) (tag : Nat)
  /-- RT_LOOKUP (R203): Looks up a PAN in the active or shadow set and returns the record. -/
  | rtLookup (t : Nat) (tag : Nat)
  /-- RT_STATUS (R201): Returns the tenant's route epoch and route and record counts. -/
  | rtStatus (t : Nat) (tag : Nat)
  /-- RT_COMPACT (R207): Starts compacting the node pool into one contiguous run. -/
  | rtCompact (t : Nat) (tag : Nat)
  /-- COMPACTION_DONE (R207): Compaction finishes and RT_COMPACT completes with the free space. -/
  | compactionDone (t : Nat)
  /-- RTB_OLD_SET_FREE (R199): 24 clocks after a set switch the nodes and slots of the old set alone return to the pool. -/
  | rtbOldSetFree (t : Nat) (ten : Nat)
  /-- QUORUM_OPEN (R304): Opens an approval challenge for a class and operation digest. -/
  | quorumOpen (t : Nat) (tag : Nat)
  /-- QUORUM_APPROVE (R305): Relays an approval record for checking and verification. -/
  | quorumApprove (t : Nat) (tag : Nat)
  /-- APPROVAL_VERIFY_DONE (R305): An approval's signature verification ends and the record is committed or refused. -/
  | approvalVerifyDone (t : Nat) (id : Nat) (agree : Bool)
  /-- QUORUM_STATUS (R317): Returns the state and approvals of a challenge. -/
  | quorumStatus (t : Nat) (tag : Nat)
  /-- QUORUM_CLOSE (R308): Closes a challenge. -/
  | quorumClose (t : Nat) (tag : Nat)
  /-- CHALLENGE_WINDOW_END (R308): A challenge closes at the end of its approval window. -/
  | challengeWindowEnd (t : Nat) (dom id : Nat)
  /-- CUST_ENROL (R299): Enrols a custodian key with proof of possession under quorum. -/
  | custEnrol (t : Nat) (tag : Nat)
  /-- CUST_REMOVE (R303): Removes a custodian unless it would break the policy. -/
  | custRemove (t : Nat) (tag : Nat)
  /-- POLICY_SET (R303): Sets the domain's M per class unless it breaks R303. -/
  | policySet (t : Nat) (tag : Nat)
  /-- CUST_LIST (R317): Returns the domain's enrolled custodians and policies. -/
  | custList (t : Nat) (tag : Nat)
  /-- CEREMONY_OPEN (R311): Opens a key component ceremony with its accumulator. -/
  | ceremonyOpen (t : Nat) (tag : Nat)
  /-- CEREMONY_COMPONENT (R312): Relays a sealed component to be checked and XORed into the accumulator, creating the
  key on the last. -/
  | ceremonyComponent (t : Nat) (tag : Nat)
  /-- CEREMONY_CLOSE (R313): Zeroes and closes a ceremony. -/
  | ceremonyClose (t : Nat) (tag : Nat)
  /-- CEREMONY_WINDOW_END (R313): A ceremony is zeroed and lost at the end of its window. -/
  | ceremonyWindowEnd (t : Nat) (id : Nat)
  /-- MAINT_OPEN (R314): Opens this unit's maintenance window and tells the SSV. -/
  | maintOpen (t : Nat) (tag : Nat)
  /-- MAINT_CLOSE (R314): Closes this unit's maintenance window and tells the SSV. -/
  | maintClose (t : Nat) (tag : Nat)
  /-- MAINT_WINDOW_END (R314): The maintenance window closes at its end and the SSV is told. -/
  | maintWindowEnd (t : Nat)
  /-- CUST_APPROVAL_FRAME (R305): An APPROVAL frame on a custodian port delivers an approval record for checking. -/
  | custApprovalFrame (t : Nat) (f : CustFrame)
  /-- CUST_COMPONENT_FRAME (R312): A COMPONENT frame on a custodian port delivers a sealed component. -/
  | custComponentFrame (t : Nat) (f : CustFrame)
  /-- CUST_HANDSHAKE_FRAME (R310): A HANDSHAKE frame carries custodian session handshake messages. -/
  | custHandshakeFrame (t : Nat) (f : CustFrame)
  /-- CUST_LIST_FRAME (R315): A LIST frame asks for the open challenges of the port's domain. -/
  | custListFrame (t : Nat) (f : CustFrame)
  /-- CUST_ACK_FRAME (R316): An ACK frame acknowledges a frame the module sent. -/
  | custAckFrame (t : Nat) (f : CustFrame)
  /-- CUST_FRAME_RETRANSMIT (R316): A frame without ACK after 2 ms is retransmitted, up to 4 times. -/
  | custFrameRetransmit (t : Nat) (port seq : Nat)
  /-- SESSION_HELLO (R330): Authenticates a client credential, agrees session keys and commits a half-open session. -/
  | sessionHello (t : Nat) (tag : Nat)
  /-- SESSION_CLOSE (R332): Closes a session of the tenant. -/
  | sessionClose (t : Nat) (tag : Nat)
  /-- SESSION_STATUS (R343): Returns a session's stamps, count and H. -/
  | sessionStatus (t : Nat) (tag : Nat)
  /-- SESSION_HALF_OPEN_TIMEOUT (R331): A half-open session with no sealed capsule 1 s after opening is closed. -/
  | sessionHalfOpenTimeout (t : Nat) (ten sid : Nat)
  /-- SESSION_MARK_SEND (R334): The Windward sends a session's mark to the Leeward on the 2,048 rise or at least every
  100 µs. -/
  | sessionMarkSend (t : Nat) (ten sid : Nat)
  /-- SESSION_MARK_ACK (R334): Acknowledgement of a mark releases capsules waiting at step 9 for gating. -/
  | sessionMarkAck (t : Nat) (ten sid mark : Nat)
  /-- CRED_ENROL (R327): Enrols a client credential under quorum. -/
  | credEnrol (t : Nat) (tag : Nat)
  /-- CRED_REMOVE (R327): Removes a client credential and closes its sessions. -/
  | credRemove (t : Nat) (tag : Nat)
  /-- TENANT_POLICY_SET (R328): Sets the tenant's OPEN_CAPS policy. -/
  | tenantPolicySet (t : Nat) (tag : Nat)
  /-- TENANT_INFO (R343): Returns the tenant's ID, epoch, state and policy. -/
  | tenantInfo (t : Nat) (tag : Nat)
  /-- TENANT_CREATE (R321): Opens a closed tenant ID at a new epoch with its first credential and root. -/
  | tenantCreate (t : Nat) (tag : Nat)
  /-- TENANT_CLOSE (R324): Freezes the tenant and, after the drain, removes all its state at a new epoch. -/
  | tenantClose (t : Nat) (tag : Nat)
  /-- TENANT_REROOT (R323): Replaces the tenant's root and advances its epoch, or arms a ceremony re-root. -/
  | tenantReroot (t : Nat) (tag : Nat)
  /-- REROOT_ARMING_LAPSE (R323): An armed re-root lapses 24 h after its arming stamp. -/
  | rerootArmingLapse (t : Nat) (ten : Nat)
  /-- TENANT_FREEZE (R337): Freezes the tenant, stopping new work and cancelling its RSA key generations. -/
  | tenantFreeze (t : Nat) (tag : Nat)
  /-- TENANT_DRAIN_DONE (R337): A frozen tenant holds no tag and its pending freeze or close commits. -/
  | tenantDrainDone (t : Nat) (ten : Nat)
  /-- TENANT_RESUME (R341): Makes a frozen or restoring tenant active and starts fetching. -/
  | tenantResume (t : Nat) (tag : Nat)
  /-- MIGRATE_PREPARE (R340): Issues a signed migration offer on the target unit. -/
  | migratePrepare (t : Nat) (tag : Nat)
  /-- MIGRATE_SAVE (R338): Writes a sealed snapshot of a drained frozen tenant. -/
  | migrateSave (t : Nat) (tag : Nat)
  /-- MIGRATE_RESTORE (R341): Installs a snapshot and leaves the tenant RESTORING. -/
  | migrateRestore (t : Nat) (tag : Nat)
  /-- VF_BIND_WRITE (R325): A write to CMQ_TVF_A or CMQ_TVF_B binds or unbinds a tenant's VF, or is refused. -/
  | vfBindWrite (t : Nat) (ini : Initiator) (p : Port) (v : W32)
  /-- CMQ_TCFG_WRITE (R96): A write to CMQ_TCFG changes a tenant's attachments and FIFO port. -/
  | cmqTcfgWrite (t : Nat) (ini : Initiator) (v : W32)
  /-- PTP_SYNC_RX (R347): A Sync or follow-up from a configured master yields a time sample. -/
  | ptpSyncRx (t : Nat) (m : PtpMsg)
  /-- PTP_ANNOUNCE_RX (R347): An Announce from a configured master is judged for qualification. -/
  | ptpAnnounceRx (t : Nat) (m : PtpMsg)
  /-- PDELAY_REQ_RX (R347): A Pdelay_Req on a peer-delay port is answered. -/
  | pdelayReqRx (t : Nat) (m : PtpMsg)
  /-- PPS_EDGE (R346): A rising edge of PPS_IN, named by a TOD message, yields a time sample. -/
  | ppsEdge (t : Nat) (refOk : Bool)
  /-- TOD_MESSAGE_RX (R348): A TOD message is received and checked, naming the second of an edge. -/
  | todMessageRx (t : Nat) (msg : Bytes)
  /-- TIME_SOURCE_LOST (R346): A source class times out and TIM falls back or enters holdover. -/
  | timeSourceLost (t : Nat) (src : TimeSrc)
  /-- HOLDOVER_EXPIRED (R352): Holdover age reaches HOLDOVER_LIMIT and time becomes untrusted. -/
  | holdoverExpired (t : Nat)
  /-- SOURCE_REJECT_END (R355): At the next whole hour a source disqualified under R355 may qualify again. -/
  | sourceRejectEnd (t : Nat) (src : TimeSrc)
  /-- TIME_CONFIG_SET (R358): Configures time sources, holdover limit, slew and guard. -/
  | timeConfigSet (t : Nat) (tag : Nat)
  /-- TIME_ACCEPT (R358): Sets time once from the highest qualified but refused source. -/
  | timeAccept (t : Nat) (tag : Nat)
  /-- TWIN_PAIR (R362): Pairs this unit with the named unit when both commands meet. -/
  | twinPair (t : Nat) (tag : Nat)
  /-- TWIN_PAIR_TIMEOUT (R362): A TWIN_PAIR that has not met its counterpart within 600 s completes with ST_PAIR_REFUSED. -/
  | twinPairTimeout (t : Nat) (tag : Nat)
  /-- TWIN_UNPAIR (R382): Ends the pair, emptying the Leeward, or unpairs alone with FORCE. -/
  | twinUnpair (t : Nat) (tag : Nat)
  /-- TWIN_STATUS (R383): Returns pair status, role epoch and JSNs. -/
  | twinStatus (t : Nat) (tag : Nat)
  /-- TWIN_PROMOTE (R376): Makes a Leeward or HELD unit Windward under quorum while its twin is silent. -/
  | twinPromote (t : Nat) (tag : Nat)
  /-- TWIN_HANDOVER (R379): Schedules a handover at the next whole second at least 100 ms away. -/
  | twinHandover (t : Nat) (tag : Nat)
  /-- TWIN_REVERT_SET (R379): Sets REVERT_EN and REVERT_HOLD. -/
  | twinRevertSet (t : Nat) (tag : Nat)
  /-- TWIN_RESTART (R380): Resets a Leeward unit so that it starts on its pending image. -/
  | twinRestart (t : Nat) (tag : Nat)
  /-- LINK_HANDSHAKE (R364): An identity-authenticated ECDH exchange keys a Crosswind link. -/
  | linkHandshake (t : Nat) (l : Nat) (h : LinkHello)
  /-- LINK_REKEY (R364): A link is rekeyed after 2^32 frames or 1 h. -/
  | linkRekey (t : Nat) (l : Nat)
  /-- JOURNAL_RECORD_RX (R365): The Leeward receives a journal record, acknowledges the first copy and applies it in
  JSN order. -/
  | journalRecordRx (t : Nat) (f : LinkFrame) (r : JRecord)
  /-- JOURNAL_ACK_RX (R365): The Windward counts the first acknowledgement and the record commits. -/
  | journalAckRx (t : Nat) (f : LinkFrame) (jsn : W64)
  /-- JOURNAL_ACK_TIMEOUT (R367): No acknowledgement within 50 µs makes the Windward unsynchronised and send DESYNC. -/
  | journalAckTimeout (t : Nat) (jsn : W64)
  /-- COMMIT_NOTICE_RX (R488): The Leeward receives the commit stamps of records. -/
  | commitNoticeRx (t : Nat) (f : LinkFrame) (stamps : List (W64 × W64))
  /-- DESYNC_NOTICE_RX (R367): A DESYNC notice makes the Leeward STALE. -/
  | desyncNoticeRx (t : Nat) (f : LinkFrame)
  /-- IMAGE_STAGE_RX (R125): The Leeward receives a streamed image, verifies it twice and reports. -/
  | imageStageRx (t : Nat) (f : LinkFrame) (img : Bytes) (agree : Bool)
  /-- HEARTBEAT_SEND (R369): Every 100 µs a serving unit sends a heartbeat on each link and toggles the wire. -/
  | heartbeatSend (t : Nat)
  /-- HEARTBEAT_RX (R369): A heartbeat or wire edge from the twin refreshes its path. -/
  | heartbeatRx (t : Nat) (f : LinkFrame) (h : Heartbeat)
  /-- PATH_SILENT (R369): A path carries no heartbeat for 1 ms and becomes silent. -/
  | pathSilent (t : Nat) (path : Nat)
  /-- PROMOTION_ADMISSION (R371): At 11 ms after the last heartbeat the promoted unit ends its hold-off and begins
  admission. -/
  | promotionAdmission (t : Nat)
  /-- RESYNC_COMPLETE (R377): The Leeward has applied every record and the Windward sets SYNC. -/
  | resyncComplete (t : Nat) (d : Option ResyncData)
  /-- HANDOVER_START (R378): At instant S the Windward stops admission. -/
  | handoverStart (t : Nat)
  /-- HANDOVER_CUTOFF (R378): At S + 0.9 ms the Windward ends unrecorded state-changing commands and sends HANDOVER. -/
  | handoverCutoff (t : Nat)
  /-- HANDOVER_RECORD_RX (R378): The Leeward applies HANDOVER, takes the role and begins admission. -/
  | handoverRecordRx (t : Nat) (f : LinkFrame) (jsn : W64) (hs : List (Nat × Nat))
  /-- REVERT_HOLD_MET (R379): The revert conditions hold for REVERT_HOLD and the handover instant is armed. -/
  | revertHoldMet (t : Nat)
  /-- START_HANDSHAKE_TIMEOUT (R375): A starting paired unit that hears no twin for 20 ms settles its role from its
  shutdown role. -/
  | startHandshakeTimeout (t : Nat)
  /-- JOURNAL_BUFFER_SPACE (R476): A record waiting for journal buffer space enters the buffer. -/
  | journalBufferSpace (t : Nat)
  /-- SENSOR_TRIGGER (R388): An SSV source triggers and its configured response is taken. -/
  | sensorTrigger (t : Nat) (src : Nat) (value : W32) (detail : Nat)
  /-- CELL_EVENT (R391): A cell removal, insertion, low or depleted condition is judged under Table 15.2. -/
  | cellEvent (t : Nat) (cell : Nat) (ev : CellEv)
  /-- SSV_POWER_STATE_CHANGE (R386): The SSV moves between MAIN, AUX and Lull as supplies change. -/
  | ssvPowerStateChange (t : Nat) (p : SsvPower)
  /-- SSV_COLD_START (R387): The SSV starts with no prior supply, holding no ESH. -/
  | ssvColdStart (t : Nat)
  /-- DETECTOR_SELFTEST (R392): The SSV stimulates a detector and handles a failed response. -/
  | detectorSelftest (t : Nat) (src : Nat) (pass : Bool)
  /-- SSV_RECORD_COPY (R399): A tamper record is copied to the evidence area and marked COPIED. -/
  | ssvRecordCopy (t : Nat)
  /-- SSV_REC_CLEAR (R399): Writing SSV_REC_CLEAR discards copied records up to a sequence number. -/
  | ssvRecClear (t : Nat) (ini : Initiator) (v : W32)
  /-- SSV_LATCH_CLEAR (R393): Clearing an SSV_LATCH bit releases the alarm unless its condition is still present. -/
  | ssvLatchClear (t : Nat) (ini : Initiator) (word : Nat) (v still : W32)
  /-- SSV_READMIT (R401): Generates a fresh ESH and releases new roots for an empty unit. -/
  | ssvReadmit (t : Nat) (tag : Nat)
  /-- SSV_RESTART (R408): Restarts an erased unit's core die. -/
  | ssvRestart (t : Nat) (tag : Nat)
  /-- SSV_RELEASE (R402): Releases a readmitted unit from ERASED_HOLD to serve alone. -/
  | ssvRelease (t : Nat) (tag : Nat)
  /-- CAL_WRITE (R406): Replaces the calibration set with clamped values. -/
  | calWrite (t : Nat) (tag : Nat)
  /-- CAL_READ (R405): Returns the calibration set. -/
  | calRead (t : Nat) (tag : Nat)
  /-- IMG_ACCEPT (R125): Reads, verifies, stages and commits a microcode image into the unused slot. -/
  | imgAccept (t : Nat) (tag : Nat)
  /-- LC_TRANSITION (R417): A signed transition request written to LCC_CMD is checked and its OTP words programmed. -/
  | lcTransition (t : Nat) (ini : Initiator) (ok agree : Bool)
  /-- LC_TRANSITION_RESET (R417): After DONE the unit resets when no tag is held or 50 ms later. -/
  | lcTransitionReset (t : Nat)
  /-- DBG_CHALLENGE (R421): LCC writes a fresh debug challenge to the mailbox. -/
  | dbgChallenge (t : Nat) (ini : Initiator)
  /-- DEBUG_RESPONSE (R422): A signed debug response is checked and grants colour 15 its scope. -/
  | debugResponse (t : Nat) (ini : Initiator) (agree : Bool)
  /-- DBG_CLOSE (R423): Ends the debug reopening in force. -/
  | dbgClose (t : Nat) (ini : Initiator)
  /-- TAP_INSTRUCTION (R424): A boundary-scan instruction is loaded and acted on or treated as BYPASS. -/
  | tapInstruction (t : Nat) (ir : TapIr)
  /-- EVR_EPOCH_END (R429): An EVR epoch timer fires, the channel writes its record and opens the next epoch. -/
  | evrEpochEnd (t : Nat) (ch : Nat)
  /-- EVR_FLUSH (R431): Writing EVR_FLUSH writes buffered records to the log. -/
  | evrFlush (t : Nat) (ini : Initiator)
  /-- EVR_CAPPLY (R430): Writing EVR_CAPPLY closes the open epoch and applies the staged channel configuration. -/
  | evrCapply (t : Nat) (ini : Initiator)
  /-- EVR_CTL_EN_WRITE (R430): A change of EVR_CTL.EN acts as an EVR_CAPPLY on every channel. -/
  | evrCtlEnWrite (t : Nat) (ini : Initiator) (v : Bool)
  /-- EVR_READ (R433): Copies log records to host memory. -/
  | evrRead (t : Nat) (tag : Nat)
  /-- EVR_CLEAR (R433): Erases the event recorder log. -/
  | evrClear (t : Nat) (tag : Nat)
  /-- PMC_SNAP (R438): Writing PMC_CTL.SNAP copies all counters into the snapshot in one clock. -/
  | pmcSnap (t : Nat) (ini : Initiator)
  /-- PMC_FREEZE (R434): Writing PMC_CTL.FREEZE stops or restarts every counter. -/
  | pmcFreeze (t : Nat) (ini : Initiator) (v : Bool)
  /-- PMC_COUNTER_WRITE (R434): A write to a counter stores the value and discards that clock's events. -/
  | pmcCounterWrite (t : Nat) (ini : Initiator) (c : Nat) (v : W64)
  /-- KAT_RUN (R440): HLT runs a known-answer test on a unit and withdraws it on failure. -/
  | katRun (t : Nat) (u : KatUnit) (pass : Bool)
  /-- SRAM_SCRUB (R441): HLT reads SRAM words and handles correctable and uncorrectable errors. -/
  | sramScrub (t : Nat) (b : Blk) (addr : Nat) (e : EccErr)
  /-- HLT_EPOCH_END (R441): At the end of a 60 s HLT epoch blocks with no correctable error return to health 0. -/
  | hltEpochEnd (t : Nat)
  /-- HEALTH_REPORT_PUBLISH (R442): Every 100 ms HLT publishes the health report to the twin, HLT_REPORT and the
  sideband. -/
  | healthReportPublish (t : Nat)
  /-- RNG_HEALTH_TEST_FAIL (R160): An entropy source fails a health test and is restarted, marked failed or halts the
  RNG. -/
  | rngHealthTestFail (t : Nat) (r : SourceRuns)
  /-- DRBG_RESEED (R161): A DRBG reseeds after 2^20 requests or 1 s. -/
  | drbgReseed (t : Nat) (d : Nat)
  /-- MASK_SEED_RENEW (R163): A mask generator requests its next seed at 49,152 blocks and switches at 65,536. -/
  | maskSeedRenew (t : Nat) (pipe : Nat)
  /-- RNG_RAW_READ (R167): A read of RNG_RAW returns 64 raw samples of the selected source. -/
  | rngRawRead (t : Nat) (ini : Initiator)
  /-- TWIN_DIV_LOG_READ (R374): A read of TWIN_DIV_LOG returns and removes the next held divergence entry. -/
  | twinDivLogRead (t : Nat) (ini : Initiator)
  /-- I3C_ADDRESS_ASSIGN (R467): The I3C target takes a dynamic address by ENTDAA or SETDASA. -/
  | i3cAddressAssign (t : Nat) (addr : Nat)
  /-- SUPPLIES_VALID (R448): VIN and VAUX become valid and the core die starts. -/
  | suppliesValid (t : Nat)
  /-- MODULE_START (R469): The start-up sequence regenerates roots, loads microcode, restores tables and sets READY. -/
  | moduleStart (t : Nat) (o : StartOutcome)
  /-- HOLDUP_CHARGED (R449): The hold-up bank reaches 150 mJ and a waiting READY is set. -/
  | holdupCharged (t : Nat) (mJ : Nat)
  /-- MOD_RESET_ASSERT (R461): MOD_RESET_N held for 10 µs resets the core die. -/
  | modResetAssert (t : Nat)
  /-- MOD_RESET_RELEASE (R461): Release of MOD_RESET_N starts the core die. -/
  | modResetRelease (t : Nat)
  /-- POWER_FAIL_TRIGGER (R463): PWR_FAIL_N or the supply detector puts the module in flush-only mode. -/
  | powerFailTrigger (t : Nat) (src : Nat)
  /-- FLUSH_COMPLETE (R477): The flush ends and the core die idles, or restarts when supplies remain valid. -/
  | flushComplete (t : Nat) (us : Nat) (supplies torn : Bool)
  /-- HOLDUP_LOW (R478): In service the hold-up energy falls below 150 mJ and READY clears. -/
  | holdupLow (t : Nat) (mJ : Nat)
  /-- THERMAL_TRIP (R466): The core junction reaches 110 °C and READY clears until the next start. -/
  | thermalTrip (t : Nat)
  /-- STORE_RECLAIM (R474): Background reclamation frees objects sealed under another state or ESC. -/
  | storeReclaim (t : Nat) (n : Nat)
  /-- TABLE_CHECKPOINT (R476): A durable table is checkpointed in the background to bound the journal tail. -/
  | tableCheckpoint (t : Nat)
  /-- PORT_LINK_LOSS (R176): A PCIe port loses link while its PERST is not asserted; blob reads through it fail at
  once and committed blob writes are held in their pending-write ... -/
  | portLinkLoss (t : Nat) (p : Port)
  /-- NET_PORT_LINK_CHANGE (R97): A NET port gains or loses link or FEC lock, changing NIF_PSTAT.LINK and FEC_LOCK. -/
  | netPortLinkChange (t : Nat) (n : Nat) (link fec : Bool)
  /-- CUST_PORT_LINK_CHANGE (R319): A custodian port's link comes up or goes down, changing DCU_PORT_STAT.LINK and
  setting DCU_INT_STAT.PORT_LINK. -/
  | custPortLinkChange (t : Nat) (port : Nat) (up : Bool)
  /-- REQID_ENTRY_EXPIRY (R82): A request-ID entry expires 10 s after its commit stamp and leaves the request-ID memory. -/
  | reqidEntryExpiry (t : Nat) (key : Nat) (reqId : W64)
  /-- MIGRATION_OFFER_EXPIRY (R340): A migration offer held by the target lapses one hour after MIGRATE_PREPARE and
  CMQ_TMIG.PREPARED clears. -/
  | migrationOfferExpiry (t : Nat) (ten : Nat)
  /-- SERVE_OK_PROGRESS_TIMEOUT (R368): The SCH dispatcher or CMQ completion writer makes no progress for 100 µs while
  holding work, and SERVE_OK falls. -/
  | serveOkProgressTimeout (t : Nat)
  /-- EVR_LOG_WRITE_DONE (R431): A write of the EVR buffer to the log area completes, freeing buffer space and
  clearing FLUSH_BUSY. -/
  | evrLogWriteDone (t : Nat) (n : Nat)
  /-- HEALTH_REPORT_RX (R442): A health report from the twin arrives over a link and replaces TWIN_HEALTH. -/
  | healthReportRx (t : Nat) (f : LinkFrame) (rep : Bytes)
  /-- DELAY_REQ_SEND (R347): At the LOG_DELAY interval the module sends a Delay_Req or Pdelay_Req to its configured
  PTP master. -/
  | delayReqSend (t : Nat) (e : Nat)
  /-- DELAY_RESP_RX (R347): A Delay_Resp or Pdelay_Resp from a configured master is received and completes the
  path-delay measurement. -/
  | delayRespRx (t : Nat) (m : PtpMsg)
  deriving DecidableEq, Repr

end Sys2Proof
end

