-- ==== Sys2Proof/Decode.lean ====
section
/-! DEFINITION. Reading a command from a word: the table gives no row any bits (no `fixed`, no `fields`), so no word
spells a command. -/

namespace Sys2Proof

/-- The command a word spells by the table's bits: none, for the table gives none. -/
def decodeTableWord (_nbits _w : Nat) : Option Instr := none

end Sys2Proof
end

