-- ==== Sys2Proof/Machine/Hash.lean ====
section
/-! DEFINITION. Hash functions: SHA-2 (FIPS 180-4), SHA-3 and SHAKE (FIPS 202), HMAC (FIPS 198-1), the counter-mode
key derivation of SP 800-108 and CRC-32C, which the spec names by their standards (08 R234, 05 R141, 11 R316).
PRESUMED: the functions themselves are the published standards' (log 6). -/

namespace Sys2Proof.Machine

/-- The 64 round constants of SHA-256, entry `i` in bits 32 i and up. -/
def sha256K : Nat :=
  0xab1c5ed5923f82a459f111f13956c25be9b5dba5b5c0fbcf71374491428a2f98 * 2 ^ 0 +
  0xc19bf1749bdc06a780deb1fe72be5d74550c7dc3243185be12835b01d807aa98 * 2 ^ 256 +
  0x76f988da5cb0a9dc4a7484aa2de92c6f240ca1cc0fc19dc6efbe4786e49b69c1 * 2 ^ 512 +
  0x1429296706ca6351d5a79147c6e00bf3bf597fc7b00327c8a831c66d983e5152 * 2 ^ 768 +
  0x92722c8581c2c92e766a0abb650a735453380d134d2c6dfc2e1b213827b70a85 * 2 ^ 1024 +
  0x106aa070f40e3585d6990624d192e819c76c51a3c24b8b70a81a664ba2bfe8a1 * 2 ^ 1280 +
  0x682e6ff35b9cca4f4ed8aa4a391c0cb334b0bcb52748774c1e376c0819a4c116 * 2 ^ 1536 +
  0xc67178f2bef9a3f7a4506ceb90befffa8cc7020884c8781478a5636f748f82ee * 2 ^ 1792

/-- The 80 round constants of SHA-512, entry `i` in bits 64 i and up. -/
def sha512K : Nat :=
  0xe9b5dba58189dbbcb5c0fbcfec4d3b2f7137449123ef65cd428a2f98d728ae22 * 2 ^ 0 +
  0xab1c5ed5da6d8118923f82a4af194f9b59f111f1b605d0193956c25bf348b538 * 2 ^ 256 +
  0x550c7dc3d5ffb4e2243185be4ee4b28c12835b0145706fbed807aa98a3030242 * 2 ^ 512 +
  0xc19bf174cf6926949bdc06a725c7123580deb1fe3b1696b172be5d74f27b896f * 2 ^ 768 +
  0x240ca1cc77ac9c650fc19dc68b8cd5b5efbe4786384f25e3e49b69c19ef14ad2 * 2 ^ 1024 +
  0x76f988da831153b55cb0a9dcbd41fbd44a7484aa6ea6e4832de92c6f592b0275 * 2 ^ 1280 +
  0xbf597fc7beef0ee4b00327c898fb213fa831c66d2db43210983e5152ee66dfab * 2 ^ 1536 +
  0x142929670a0e6e7006ca6351e003826fd5a79147930aa725c6e00bf33da88fc2 * 2 ^ 1792 +
  0x53380d139d95b3df4d2c6dfc5ac42aed2e1b21385c26c92627b70a8546d22ffc * 2 ^ 2048 +
  0x92722c851482353b81c2c92e47edaee6766a0abb3c77b2a8650a73548baf63de * 2 ^ 2304 +
  0xc76c51a30654be30c24b8b70d0f89791a81a664bbc423001a2bfe8a14cf10364 * 2 ^ 2560 +
  0x106aa07032bbd1b8f40e35855771202ad69906245565a910d192e819d6ef5218 * 2 ^ 2816 +
  0x34b0bcb5e19b48a82748774cdf8eeb991e376c085141ab5319a4c116b8d2d0c8 * 2 ^ 3072 +
  0x682e6ff3d6b2b8a35b9cca4f7763e3734ed8aa4ae3418acb391c0cb3c5c95a63 * 2 ^ 3328 +
  0x8cc702081a6439ec84c87814a1f0ab7278a5636f43172f60748f82ee5defb2fc * 2 ^ 3584 +
  0xc67178f2e372532bbef9a3f7b2c67915a4506cebde82bde990befffa23631e28 * 2 ^ 3840 +
  0xf57d4f7fee6ed178eada7dd6cde0eb1ed186b8c721c0c207ca273eceea26619c * 2 ^ 4096 +
  0x1b710b35131c471b113f9804bef90dae0a637dc5a2c898a606f067aa72176fba * 2 ^ 4352 +
  0x431d67c49c100d4c3c9ebe0a15c9bebc32caab7b40c7249328db77f523047d84 * 2 ^ 4608 +
  0x6c44198c4a4758175fcb6fab3ad6faec597f299cfc657e2a4cc5d4becb3e42b6 * 2 ^ 4864

/-- Initial value of SHA-256. -/
def sha256Iv : List (BitVec 32) :=
  [0x6a09e667, 0xbb67ae85, 0x3c6ef372, 0xa54ff53a,
   0x510e527f, 0x9b05688c, 0x1f83d9ab, 0x5be0cd19]

/-- Initial value of SHA-224. -/
def sha224Iv : List (BitVec 32) :=
  [0xc1059ed8, 0x367cd507, 0x3070dd17, 0xf70e5939,
   0xffc00b31, 0x68581511, 0x64f98fa7, 0xbefa4fa4]

/-- Initial value of SHA-512. -/
def sha512Iv : List (BitVec 64) :=
  [0x6a09e667f3bcc908, 0xbb67ae8584caa73b, 0x3c6ef372fe94f82b, 0xa54ff53a5f1d36f1,
   0x510e527fade682d1, 0x9b05688c2b3e6c1f, 0x1f83d9abfb41bd6b, 0x5be0cd19137e2179]

/-- Initial value of SHA-384. -/
def sha384Iv : List (BitVec 64) :=
  [0xcbbb9d5dc1059ed8, 0x629a292a367cd507, 0x9159015a3070dd17, 0x152fecd8f70e5939,
   0x67332667ffc00b31, 0x8eb44a8768581511, 0xdb0c2e0d64f98fa7, 0x47b5481dbefa4fa4]

/-- The 24 round constants of Keccak, entry `i` in bits 64 i and up. -/
def keccakRc : Nat :=
  0x8000000080008000800000000000808a00000000000080820000000000000001 * 2 ^ 0 +
  0x800000000000800980000000800080810000000080000001000000000000808b * 2 ^ 256 +
  0x000000008000000a00000000800080090000000000000088000000000000008a * 2 ^ 512 +
  0x80000000000080038000000000008089800000000000008b000000008000808b * 2 ^ 768 +
  0x800000008000000a000000000000800a80000000000000808000000000008002 * 2 ^ 1024 +
  0x8000000080008008000000008000000180000000000080808000000080008081 * 2 ^ 1280

/-- The rotation of each Keccak lane, lane (x, y) at place x + 5 y. -/
def keccakRot : List Nat :=
  [0, 1, 62, 28, 27, 36, 44, 6, 55, 20, 3, 10, 43, 25, 39, 41, 45, 15, 21, 8, 18, 2, 61, 56, 14]

/-- Message padding of SHA-2: `bl` bytes a block, the length in the last `ll` bytes. -/
def shaPad (bl ll : Nat) (d : Bytes) : Bytes :=
  let m := d ++ [0x80]
  m ++ zeroBytes ((2 * bl - ll - m.length % bl) % bl) ++ natBe ll (8 * d.length)

/-- The message schedule: `n` more words, newest first. -/
def shaSchedule {w : Nat} (s0 s1 : BitVec w → BitVec w) : Nat → List (BitVec w) → List (BitVec w)
  | 0, acc => acc
  | n + 1, acc =>
    shaSchedule s0 s1 n ((s1 (acc.getD 1 0) + acc.getD 6 0 + s0 (acc.getD 14 0) + acc.getD 15 0) :: acc)

/-- The working variables of a SHA-2 round. -/
structure ShaVars (w : Nat) where
  a : BitVec w
  b : BitVec w
  c : BitVec w
  d : BitVec w
  e : BitVec w
  f : BitVec w
  g : BitVec w
  h : BitVec w

/-- One round of SHA-2. -/
def shaRound {w : Nat} (S0 S1 : BitVec w → BitVec w) (v : ShaVars w) (kw : BitVec w) : ShaVars w :=
  let ch := (v.e &&& v.f) ^^^ (~~~v.e &&& v.g)
  let maj := (v.a &&& v.b) ^^^ (v.a &&& v.c) ^^^ (v.b &&& v.c)
  let t1 := v.h + S1 v.e + ch + kw
  let t2 := S0 v.a + maj
  { a := t1 + t2, b := v.a, c := v.b, d := v.c, e := v.d + t1, f := v.e, g := v.f, h := v.g }

/-- One block of SHA-2 absorbed. -/
def shaBlock {w : Nat} (S0 S1 s0 s1 : BitVec w → BitVec w) (ks : List (BitVec w)) (hv : List (BitVec w))
    (blk : Bytes) : List (BitVec w) :=
  let words := (chunks (w / 8) blk).map (fun b => BitVec.ofNat w (beNat b))
  let ws := (shaSchedule s0 s1 (ks.length - 16) words.reverse).reverse
  let v0 : ShaVars w :=
    { a := hv.getD 0 0, b := hv.getD 1 0, c := hv.getD 2 0, d := hv.getD 3 0,
      e := hv.getD 4 0, f := hv.getD 5 0, g := hv.getD 6 0, h := hv.getD 7 0 }
  let v := (List.zipWith (· + ·) ks ws).foldl (shaRound S0 S1) v0
  List.zipWith (· + ·) hv [v.a, v.b, v.c, v.d, v.e, v.f, v.g, v.h]

/-- The round constants of SHA-256 as a list. -/
def sha256Ks : List (BitVec 32) := (List.range 64).map (fun i => BitVec.ofNat 32 (sha256K >>> (32 * i)))

/-- The round constants of SHA-512 as a list. -/
def sha512Ks : List (BitVec 64) := (List.range 80).map (fun i => BitVec.ofNat 64 (sha512K >>> (64 * i)))

/-- One block of SHA-256. -/
def sha256Block (hv : List (BitVec 32)) (blk : Bytes) : List (BitVec 32) :=
  shaBlock (fun x => x.rotateRight 2 ^^^ x.rotateRight 13 ^^^ x.rotateRight 22)
    (fun x => x.rotateRight 6 ^^^ x.rotateRight 11 ^^^ x.rotateRight 25)
    (fun x => x.rotateRight 7 ^^^ x.rotateRight 18 ^^^ (x >>> 3))
    (fun x => x.rotateRight 17 ^^^ x.rotateRight 19 ^^^ (x >>> 10)) sha256Ks hv blk

/-- One block of SHA-512. -/
def sha512Block (hv : List (BitVec 64)) (blk : Bytes) : List (BitVec 64) :=
  shaBlock (fun x => x.rotateRight 28 ^^^ x.rotateRight 34 ^^^ x.rotateRight 39)
    (fun x => x.rotateRight 14 ^^^ x.rotateRight 18 ^^^ x.rotateRight 41)
    (fun x => x.rotateRight 1 ^^^ x.rotateRight 8 ^^^ (x >>> 7))
    (fun x => x.rotateRight 19 ^^^ x.rotateRight 61 ^^^ (x >>> 6)) sha512Ks hv blk

/-- SHA-256 with a given initial value, the whole 32-byte state out. -/
def sha32 (iv : List (BitVec 32)) (d : Bytes) : Bytes :=
  (((chunks 64 (shaPad 64 8 d)).foldl sha256Block iv).map (fun x => natBe 4 x.toNat)).flatten

/-- SHA-512 with a given initial value, the whole 64-byte state out. -/
def sha64 (iv : List (BitVec 64)) (d : Bytes) : Bytes :=
  (((chunks 128 (shaPad 128 16 d)).foldl sha512Block iv).map (fun x => natBe 8 x.toNat)).flatten

/-- One lane of a Keccak state. -/
def lane (s : List (BitVec 64)) (x y : Nat) : BitVec 64 := s.getD (x % 5 + 5 * (y % 5)) 0

/-- One round of Keccak. -/
def keccakRound (s : List (BitVec 64)) (rc : BitVec 64) : List (BitVec 64) :=
  let c := (List.range 5).map (fun x => lane s x 0 ^^^ lane s x 1 ^^^ lane s x 2 ^^^ lane s x 3 ^^^ lane s x 4)
  let d := (List.range 5).map (fun x => c.getD ((x + 4) % 5) 0 ^^^ (c.getD ((x + 1) % 5) 0).rotateLeft 1)
  let th := s.mapIdx (fun i v => v ^^^ d.getD (i % 5) 0)
  let rot := th.mapIdx (fun i v => v.rotateLeft (keccakRot.getD i 0))
  -- lane (x, y) of the result of pi comes from lane (x + 3 y, x)
  let b := (List.range 25).map (fun i => lane rot (i % 5 + 3 * (i / 5)) (i % 5))
  let ch := (List.range 25).map (fun i =>
    let x := i % 5
    let y := i / 5
    lane b x y ^^^ (~~~ lane b (x + 1) y &&& lane b (x + 2) y))
  match ch with
  | [] => []
  | h :: t => (h ^^^ rc) :: t

/-- The Keccak permutation. -/
def keccakF (s : List (BitVec 64)) : List (BitVec 64) :=
  (List.range 24).foldl (fun s i => keccakRound s (BitVec.ofNat 64 (keccakRc >>> (64 * i)))) s

/-- The state as bytes. -/
def keccakBytes (s : List (BitVec 64)) : Bytes := (s.map (fun x => natLe 8 x.toNat)).flatten

/-- Squeezing blocks of `rate` bytes. -/
def keccakSqueeze (rate : Nat) : Nat → List (BitVec 64) → Bytes
  | 0, _ => []
  | n + 1, s => (keccakBytes s).take rate ++ keccakSqueeze rate n (keccakF s)

/-- A Keccak sponge: rate in bytes, domain byte, output length. -/
def keccak (rate : Nat) (dom : Byte) (outLen : Nat) (d : Bytes) : Bytes :=
  let m := padTo rate (d ++ [dom])
  let m' := m.take (m.length - 1) ++ (m.drop (m.length - 1)).map (fun b => b ||| 0x80)
  let absorb := fun (s : List (BitVec 64)) (b : Bytes) =>
    let w := (chunks 8 b).map (fun x => BitVec.ofNat 64 (leNat x))
    keccakF (s.mapIdx (fun i v => v ^^^ w.getD i 0))
  let s := (chunks rate m').foldl absorb (List.replicate 25 0)
  (keccakSqueeze rate (outLen / rate + 1) s).take outLen

/-- The hash functions of Table 8.9. -/
inductive HashAlg where
  | sha224
  | sha256
  | sha384
  | sha512
  | sha512_256
  | sha3_224
  | sha3_256
  | sha3_384
  | sha3_512
  deriving DecidableEq, Repr

/-- The initial value of SHA-512/256: SHA-512's own, each word combined with a constant, hashing its own name. -/
def sha512t256Iv : List (BitVec 64) :=
  let iv := sha512Iv.map (fun x => x ^^^ 0xa5a5a5a5a5a5a5a5)
  (chunks 8 (sha64 iv (ascii "SHA-512/256"))).map (fun b => BitVec.ofNat 64 (beNat b))

/-- Digest length in bytes. -/
def HashAlg.outLen : HashAlg → Nat
  | .sha224 => 28
  | .sha256 => 32
  | .sha384 => 48
  | .sha512 => 64
  | .sha512_256 => 32
  | .sha3_224 => 28
  | .sha3_256 => 32
  | .sha3_384 => 48
  | .sha3_512 => 64

/-- Block length in bytes, for HMAC. -/
def HashAlg.blockLen : HashAlg → Nat
  | .sha224 => 64
  | .sha256 => 64
  | .sha384 => 128
  | .sha512 => 128
  | .sha512_256 => 128
  | .sha3_224 => 144
  | .sha3_256 => 136
  | .sha3_384 => 104
  | .sha3_512 => 72

/-- The digest of a message. -/
def hash (h : HashAlg) (d : Bytes) : Bytes :=
  match h with
  | .sha224 => (sha32 sha224Iv d).take 28
  | .sha256 => sha32 sha256Iv d
  | .sha384 => (sha64 sha384Iv d).take 48
  | .sha512 => sha64 sha512Iv d
  | .sha512_256 => (sha64 sha512t256Iv d).take 32
  | .sha3_224 => keccak 144 0x06 28 d
  | .sha3_256 => keccak 136 0x06 32 d
  | .sha3_384 => keccak 104 0x06 48 d
  | .sha3_512 => keccak 72 0x06 64 d

/-- SHA-256. -/
def sha256 (d : Bytes) : Bytes := hash .sha256 d

/-- SHA-384. -/
def sha384 (d : Bytes) : Bytes := hash .sha384 d

/-- SHAKE128 with an output length. -/
def shake128 (outLen : Nat) (d : Bytes) : Bytes := keccak 168 0x1f outLen d

/-- SHAKE256 with an output length. -/
def shake256 (outLen : Nat) (d : Bytes) : Bytes := keccak 136 0x1f outLen d

/-- HMAC (FIPS 198-1). -/
def hmac (h : HashAlg) (key d : Bytes) : Bytes :=
  let k := fitRight h.blockLen (if key.length > h.blockLen then hash h key else key)
  hash h (k.map (fun b => b ^^^ 0x5c) ++ hash h (k.map (fun b => b ^^^ 0x36) ++ d))

/-- The CRC-32C polynomial step over the eight bits of a byte (reflected). -/
def crc32cByte (c : BitVec 32) (b : Byte) : BitVec 32 :=
  (List.range 8).foldl (fun c _ => if c.getLsbD 0 then (c >>> 1) ^^^ 0x82F63B78 else c >>> 1)
    (c ^^^ b.setWidth 32)

/-- CRC-32C (Castagnoli) of a byte string. -/
def crc32c (d : Bytes) : BitVec 32 := ~~~ (d.foldl crc32cByte 0xFFFFFFFF)

end Sys2Proof.Machine
end

