-- ==== Sys2Proof/Machine/Curves.lean ====
section
/-! DEFINITION. Elliptic curves: P-256, P-384, P-521 with ECDSA (FIPS 186-5) and ECDH (SP 800-56A), Ed25519
(RFC 8032) and X25519 (RFC 7748), which the spec names by their standards (10 R277 to R291). PRESUMED: the curves and
schemes themselves are the published standards' (log 6). -/

namespace Sys2Proof.Machine

/-- Modular exponentiation over the low `n` bits of the exponent. -/
def powModBits (m : Nat) : Nat → Nat → Nat → Nat → Nat
  | 0, _, _, acc => acc
  | n + 1, b, e, acc =>
    if e = 0 then acc
    else powModBits m n (b * b % m) (e / 2) (if e % 2 = 1 then acc * b % m else acc)

/-- `b ^ e` modulo `m`. -/
def powMod (b e m : Nat) : Nat := powModBits m (e.log2 + 1) (b % m) e (1 % m)

/-- Inverse modulo a prime. -/
def invMod (a p : Nat) : Nat := powMod a (p - 2) p

/-- The prime-field curves of Table 10.2. -/
inductive NistCurve where
  | p256
  | p384
  | p521
  deriving DecidableEq, Repr

/-- The parameters of a short Weierstrass curve with a = -3. -/
structure CurveParams where
  p : Nat
  b : Nat
  n : Nat
  gx : Nat
  gy : Nat
  len : Nat

/-- The parameters of each curve (FIPS 186-5, SP 800-186). -/
def NistCurve.params : NistCurve → CurveParams
  | .p256 =>
    { p := 2 ^ 256 - 2 ^ 224 + 2 ^ 192 + 2 ^ 96 - 1
      b := 0x5ac635d8aa3a93e7b3ebbd55769886bc651d06b0cc53b0f63bce3c3e27d2604b
      n := 0xffffffff00000000ffffffffffffffffbce6faada7179e84f3b9cac2fc632551
      gx := 0x6b17d1f2e12c4247f8bce6e563a440f277037d812deb33a0f4a13945d898c296
      gy := 0x4fe342e2fe1a7f9b8ee7eb4a7c0f9e162bce33576b315ececbb6406837bf51f5
      len := 32 }
  | .p384 =>
    { p := 2 ^ 384 - 2 ^ 128 - 2 ^ 96 + 2 ^ 32 - 1
      b := 0xb3312fa7e23ee7e4988e056be3f82d19181d9c6efe8141120314088f5013875ac656398d8a2ed19d2a85c8edd3ec2aef
      n := 0xffffffffffffffffffffffffffffffffffffffffffffffffc7634d81f4372ddf581a0db248b0a77aecec196accc52973
      gx := 0xaa87ca22be8b05378eb1c71ef320ad746e1d3b628ba79b9859f741e082542a385502f25dbf55296c3a545e3872760ab7
      gy := 0x3617de4a96262c6f5d9e98bf9292dc29f8f41dbd289a147ce9da3113b5f0b8c00a60b1ce1d7e819d7a431d7c90ea0e5f
      len := 48 }
  | .p521 =>
    { p := 2 ^ 521 - 1
      b := 0x051953eb9618e1c9a1f929a21a0b68540eea2da725b99b315f3b8b489918ef109e156193951ec7e937b1652c0bd3bb1bf073573df883d2c34f1ef451fd46b503f00
      n := 0x1fffffffffffffffffffffffffffffffffffffffffffffffffffffffffffffffffa51868783bf2f966b7fcc0148f709a5d03bb5c9b8899c47aebb6fb71e91386409
      gx := 0x0c6858e06b70404e9cd9e3ecb662395b4429c648139053fb521f828af606b4d3dbaa14b5e77efe75928fe1dc127a2ffa8de3348b3c1856a429bf97e7e31c2e5bd66
      gy := 0x11839296a789a3bc0045c8a5fb42c7d1bd998f54449579b446817afbd17273e662c97ee72995ef42640c550b9013fad0761353c7086a272c24088be94769fd16650
      len := 66 }

/-- A point in Jacobian coordinates; z = 0 is the point at infinity. -/
structure Jac where
  x : Nat
  y : Nat
  z : Nat

/-- The point at infinity. -/
def jacZero : Jac := { x := 1, y := 1, z := 0 }

/-- Subtraction modulo `p` of reduced numbers. -/
def subMod (p a b : Nat) : Nat := (a + p - b % p) % p

/-- Doubling on a curve with a = -3. -/
def jacDbl (p : Nat) (a : Jac) : Jac :=
  if a.z = 0 ∨ a.y = 0 then jacZero
  else
    let d := a.z * a.z % p
    let g := a.y * a.y % p
    let bt := a.x * g % p
    let al := 3 * (subMod p a.x d * ((a.x + d) % p)) % p
    let x3 := subMod p (al * al % p) (8 * bt)
    let z3 := subMod p (subMod p ((a.y + a.z) * (a.y + a.z) % p) g) d
    let y3 := subMod p (al * subMod p (4 * bt % p) x3 % p) (8 * (g * g % p))
    { x := x3, y := y3, z := z3 }

/-- Addition. -/
def jacAdd (p : Nat) (a b : Jac) : Jac :=
  if a.z = 0 then b
  else if b.z = 0 then a
  else
    let z1 := a.z * a.z % p
    let z2 := b.z * b.z % p
    let u1 := a.x * z2 % p
    let u2 := b.x * z1 % p
    let s1 := a.y * b.z % p * z2 % p
    let s2 := b.y * a.z % p * z1 % p
    if u1 = u2 then (if s1 = s2 then jacDbl p a else jacZero)
    else
      let h := subMod p u2 u1
      let r := subMod p s2 s1
      let h2 := h * h % p
      let h3 := h * h2 % p
      let v := u1 * h2 % p
      let x3 := subMod p (subMod p (r * r % p) h3) (2 * v)
      let y3 := subMod p (r * subMod p v x3 % p) (s1 * h3 % p)
      { x := x3, y := y3, z := h * a.z % p * b.z % p }

/-- Scalar multiplication over the low bits of the scalar. -/
def jacMulBits (p : Nat) : Nat → Nat → Jac → Jac → Jac
  | 0, _, _, acc => acc
  | n + 1, k, q, acc =>
    if k = 0 then acc else jacMulBits p n (k / 2) (jacDbl p q) (if k % 2 = 1 then jacAdd p acc q else acc)

/-- `k` times a point. -/
def jacMul (p k : Nat) (q : Jac) : Jac := jacMulBits p (k.log2 + 1) k q jacZero

/-- Affine coordinates; `none` at infinity. -/
def jacAffine (p : Nat) (a : Jac) : Option (Nat × Nat) :=
  if a.z = 0 then none
  else
    let zi := invMod a.z p
    let zi2 := zi * zi % p
    some (a.x * zi2 % p, a.y * zi2 % p * zi % p)

/-- Whether a pair of coordinates is a point of the curve. -/
def NistCurve.onCurve (c : NistCurve) (x y : Nat) : Bool :=
  let k := c.params
  decide (x < k.p ∧ y < k.p) && y * y % k.p == (subMod k.p (x * x % k.p * x % k.p) (3 * x) + k.b) % k.p

/-- The base point. -/
def NistCurve.base (c : NistCurve) : Jac := { x := c.params.gx, y := c.params.gy, z := 1 }

/-- A public point as bytes: x then y, big-endian. -/
def NistCurve.pointBytes (c : NistCurve) (q : Nat × Nat) : Bytes :=
  natBe c.params.len q.1 ++ natBe c.params.len q.2

/-- A public point from bytes, checked to be on the curve. -/
def NistCurve.pointOf (c : NistCurve) (b : Bytes) : Option (Nat × Nat) :=
  let x := beNat (b.take c.params.len)
  let y := beNat (b.drop c.params.len)
  if b.length = 2 * c.params.len ∧ c.onCurve x y = true then some (x, y) else none

/-- The public point of a private scalar. -/
def NistCurve.public (c : NistCurve) (d : Nat) : Option (Nat × Nat) :=
  jacAffine c.params.p (jacMul c.params.p d c.base)

/-- The randomised representation of a scalar multiplication: the scalar s is applied as s + m·n, the point starts with the
coordinate z (10 R276). -/
structure Blind where
  m : Nat
  z : Nat

/-- A point in Jacobian coordinates with a given Z. -/
def jacAt (p : Nat) (q : Nat × Nat) (z : Nat) : Jac := { x := q.1 * (z * z % p) % p, y := q.2 * (z * z % p * z % p) % p, z := z }

/-- A secret scalar times a point, on randomised representations. -/
def NistCurve.blindMul (c : NistCurve) (b : Blind) (s : Nat) (q : Nat × Nat) : Option (Nat × Nat) :=
  jacAffine c.params.p (jacMul c.params.p (s + b.m * c.params.n) (jacAt c.params.p q b.z))

/-- The base point's coordinates. -/
def NistCurve.basePoint (c : NistCurve) : Nat × Nat := (c.params.gx, c.params.gy)

/-- The leftmost bits of a digest as a number, as many as the order has. -/
def NistCurve.digestNat (c : NistCurve) (d : Bytes) : Nat :=
  let nb := c.params.n.log2 + 1
  let v := beNat d
  if 8 * d.length > nb then v / 2 ^ (8 * d.length - nb) else v

/-- An ECDSA signature under a secret number `k` whose point has the coordinate `x`; `none` where a part is zero. `k` is
inverted as (k·b)^-1·b (10 R276). -/
def ecdsaFrom (c : NistCurve) (d k b : Nat) (digest : Bytes) (x : Nat) : Option (Nat × Nat) :=
  let n := c.params.n
  let r := x % n
  let kInv := invMod (k * b % n) n * b % n
  let s := kInv * ((c.digestNat digest + r * d) % n) % n
  if r = 0 ∨ s = 0 then none else some (r, s)

/-- ECDSA verification. -/
def ecdsaVerify (c : NistCurve) (q : Nat × Nat) (digest : Bytes) (r s : Nat) : Bool :=
  let n := c.params.n
  let p := c.params.p
  if r = 0 ∨ s = 0 ∨ n ≤ r ∨ n ≤ s then false
  else
    let w := invMod s n
    let u1 := c.digestNat digest * w % n
    let u2 := r * w % n
    match jacAffine p (jacAdd p (jacMul p u1 c.base) (jacMul p u2 { x := q.1, y := q.2, z := 1 })) with
    | none => false
    | some (x, _) => x % n == r

/-- The field prime of Curve25519. -/
def p25519 : Nat := 2 ^ 255 - 19

/-- The order of the base point of Ed25519. -/
def ordEd : Nat := 2 ^ 252 + 27742317777372353535851937790883648493

/-- One step of the Montgomery ladder: (x2, z2, x3, z3) and one scalar bit. -/
def ladderStep (x1 : Nat) (bit : Bool) (st : Nat × Nat × Nat × Nat) : Nat × Nat × Nat × Nat :=
  let p := p25519
  let (x2, z2, x3, z3) := st
  let (x2, z2, x3, z3) := if bit then (x3, z3, x2, z2) else (x2, z2, x3, z3)
  let a := (x2 + z2) % p
  let aa := a * a % p
  let b := subMod p x2 z2
  let bb := b * b % p
  let e := subMod p aa bb
  let c := (x3 + z3) % p
  let d := subMod p x3 z3
  let da := d * a % p
  let cb := c * b % p
  let x3' := (da + cb) * (da + cb) % p
  let df := subMod p da cb
  let z3' := x1 * (df * df % p) % p
  let x2' := aa * bb % p
  let z2' := e * ((aa + 121665 * e) % p) % p
  if bit then (x3', z3', x2', z2') else (x2', z2', x3', z3')

/-- The clamped scalar of X25519 and Ed25519. -/
def clamp25519 (b : Bytes) : Nat := leNat (b.take 32) % 2 ^ 254 / 8 * 8 + 2 ^ 254

/-- X25519 (RFC 7748): the shared value, 32 bytes. The ladder starts from projective coordinates with a given Z
(10 R276). -/
def x25519At (z : Nat) (scalar u : Bytes) : Bytes :=
  let k := clamp25519 scalar
  let x1 := leNat (u.take 32) % 2 ^ 255 % p25519
  let st := (List.range 255).foldl (fun st i => ladderStep x1 (k.testBit (254 - i)) st) (z, 0, x1 * z % p25519, z)
  natLe 32 (st.1 * invMod st.2.1 p25519 % p25519)

/-- X25519 from Z = 1. -/
def x25519 (scalar u : Bytes) : Bytes := x25519At 1 scalar u

/-- The X25519 public value of a secret. -/
def x25519Public (scalar : Bytes) : Bytes := x25519 scalar (natLe 32 9)

/-- The curve constant d of Ed25519. -/
def edD : Nat := subMod p25519 0 (121665 * invMod 121666 p25519 % p25519)

/-- A point of Ed25519 in extended coordinates. -/
structure EdPt where
  x : Nat
  y : Nat
  z : Nat
  t : Nat

/-- The neutral point. -/
def edZero : EdPt := { x := 0, y := 1, z := 1, t := 0 }

/-- Addition (complete). -/
def edAdd (a b : EdPt) : EdPt :=
  let p := p25519
  let aa := subMod p a.y a.x * subMod p b.y b.x % p
  let bb := (a.y + a.x) * (b.y + b.x) % p
  let cc := 2 * (a.t * b.t % p) * edD % p
  let dd := 2 * (a.z * b.z) % p
  let e := subMod p bb aa
  let f := subMod p dd cc
  let g := (dd + cc) % p
  let h := (bb + aa) % p
  { x := e * f % p, y := g * h % p, z := f * g % p, t := e * h % p }

/-- Scalar multiplication. -/
def edMulBits : Nat → Nat → EdPt → EdPt → EdPt
  | 0, _, _, acc => acc
  | n + 1, k, q, acc => if k = 0 then acc else edMulBits n (k / 2) (edAdd q q) (if k % 2 = 1 then edAdd acc q else acc)

/-- `k` times a point. -/
def edMul (k : Nat) (q : EdPt) : EdPt := edMulBits (k.log2 + 1) k q edZero

/-- The 32-byte encoding of a point. -/
def edEncode (a : EdPt) : Bytes :=
  let p := p25519
  let zi := invMod a.z p
  natLe 32 (a.y * zi % p + (a.x * zi % p) % 2 * 2 ^ 255)

/-- A point from its encoding (RFC 8032, section 5.1.3). -/
def edDecode (b : Bytes) : Option EdPt :=
  let p := p25519
  let v := leNat (b.take 32)
  let y := v % 2 ^ 255
  let sg := v / 2 ^ 255
  let u := subMod p (y * y % p) 1
  let w := (edD * (y * y % p) + 1) % p
  let x0 := u * (w * w % p * w % p) % p * powMod (u * powMod w 7 p % p) ((p - 5) / 8) p % p
  let vx := w * (x0 * x0 % p) % p
  let root : Option Nat :=
    if vx = u then some x0
    else if vx = subMod p 0 u then some (x0 * powMod 2 ((p - 1) / 4) p % p)
    else none
  if b.length ≠ 32 ∨ p ≤ y then none
  else match root with
    | none => none
    | some x =>
      if x = 0 ∧ sg = 1 then none
      else
        let x' := if x % 2 = sg then x else p - x
        some { x := x', y := y, z := 1, t := x' * y % p }

/-- The base point of Ed25519. -/
def edBase : EdPt := (edDecode (natLe 32 (4 * invMod 5 p25519 % p25519))).getD edZero

/-- The scalar and prefix of an Ed25519 secret. -/
def edSecret (seed : Bytes) : Nat × Bytes :=
  let h := hash .sha512 seed
  (clamp25519 h, h.drop 32)

/-- The public key of an Ed25519 secret. -/
def edPublic (seed : Bytes) : Bytes := edEncode (edMul (edSecret seed).1 edBase)

/-- A secret scalar times the base point, on randomised representations (10 R276). -/
def edBlindMul (b : Blind) (s : Nat) : EdPt :=
  let p := p25519
  edMul (s + b.m * ordEd)
    { x := edBase.x * b.z % p, y := edBase.y * b.z % p, z := edBase.z * b.z % p, t := edBase.t * b.z % p }

/-- Whether extended coordinates are those of a point of the curve. -/
def edOn (a : EdPt) : Bool :=
  let p := p25519
  let (x2, y2, z2) := (a.x * a.x % p, a.y * a.y % p, a.z * a.z % p)
  a.x * a.y % p == a.t * a.z % p && subMod p y2 x2 * z2 % p == (z2 * z2 + edD * (x2 * y2 % p)) % p

/-- An Ed25519 signature, 64 bytes; `none` where an output point is off the curve (10 R278). -/
def edSign (b : Blind) (seed msg : Bytes) : Option Bytes :=
  let (a, pf) := edSecret seed
  let pt := edBlindMul b a
  let r := leNat (hash .sha512 (pf ++ msg)) % ordEd
  let rp := edBlindMul b r
  let rb := edEncode rp
  let k := leNat (hash .sha512 (rb ++ edEncode pt ++ msg)) % ordEd
  if edOn pt && edOn rp then some (rb ++ natLe 32 ((r + k * a) % ordEd)) else none

/-- Equality of points. -/
def edEq (a b : EdPt) : Bool :=
  let p := p25519
  a.x * b.z % p == b.x * a.z % p && a.y * b.z % p == b.y * a.z % p

/-- Ed25519 verification (RFC 8032, with the cofactor). -/
def edVerify (pk msg sig : Bytes) : Bool :=
  match edDecode pk, edDecode (sig.take 32) with
  | some a, some r =>
    let s := leNat (sig.drop 32)
    let k := leNat (hash .sha512 (sig.take 32 ++ pk ++ msg)) % ordEd
    decide (sig.length = 64 ∧ s < ordEd) &&
      edEq (edMul (8 * s) edBase) (edAdd (edMul 8 r) (edMul (8 * k) a))
  | _, _ => false

end Sys2Proof.Machine
end

