-- ==== Sys2Proof/Config.lean ====
section
/-! DEFINITION. What one unit, its maker's image or its chance fixes, and the spec does not: constants with no body,
so that nothing can be proved of their values, and the figures the spec does fix for every unit. -/

namespace Sys2Proof.Config

/-- The random and otherwise open byte drawn at each place of the counter `free` (05 R161: D0, D1 and every mask,
nonce, salt and fill; log 5). FREE VALUE. -/
opaque freeByte : Nat → Byte

/-- A free number drawn at each place of the counter `free`, for choices the spec leaves open (log 5). FREE VALUE. -/
opaque freeNat : Nat → Nat

/-- 64 raw samples of an entropy source, ES1 or ES2, at each place of the counter `free` (05 R167; log 5). FREE VALUE. -/
opaque rawSample : Bool → Nat → W64

/-- The unit's serial number, DEV_UID (02 Table 2.8: per unit; log 11). FREE VALUE. -/
opaque devUid : W64

/-- The outer code of the fuzzy extractor, BCH(511, 259): the code word of 259 bits (05 R127: the spec gives no
generator; log 9). FREE VALUE. -/
opaque bchEncode : List Bool → List Bool

/-- The 259 bits a word of 511 decodes to; past 28 errors, whatever the decoder gives (log 9). FREE VALUE. -/
opaque bchDecode : List Bool → List Bool

/-- What a read of the PUF array inside a life-cycle transition gives, by draw and place (05 R127; log 9). FREE VALUE. -/
opaque pufByte : Nat → Nat → Byte

/-- The helper data in OTP at delivery: offsets from place 0, check value from place 1,278 (05 R127; log 10).
FREE VALUE. -/
opaque helperByte : Nat → Byte

/-- The unit's own identity certificate, byte by index, and its length (05 R133; log 7). FREE VALUE. -/
opaque certByte : Nat → Byte

/-- Length of the identity certificate, read modulo 4,001 (05 R166: 0 to 4,000; log 7). FREE VALUE. -/
opaque certLen : Nat

/-- Cost units of an opcode from an image's descriptors (04 Table 4.4), read as 1 to 512; PIN_TRANSLATE is 40 by the
spec itself (log 16). FREE VALUE. -/
opaque opcodeCost : Bytes → Nat → Nat

/-- How many dispatches an opcode may take, from an image's descriptors (04 R117), read as 1 to 3 (log 16).
FREE VALUE. -/
opaque opcodeDispatches : Bytes → Nat → Nat

/-- Bytes a journal record takes in the journal buffer, by its sequence number: the spec gives no record format
(log 22). FREE VALUE. -/
opaque recordBytes : Nat → Nat

/-- The program store and tables of local memory under an image, by address (04 Table 4.4; log 8). FREE VALUE. -/
opaque imageText : Bytes → Nat → Byte

/-- What a context's data area holds before its first command, by core and address (04 Table 4.4; log 8). FREE VALUE. -/
opaque contextByte : Nat → Nat → Byte

/-- The Psiec Authority's signature verdict over a message: key and scheme are the maker's (00 R2; log 7).
FREE VALUE. -/
opaque psiecVerdict : Bytes → Bytes → Bool

/-- The P-384 public key an X.509 certificate certifies, x then y, empty where the Psiec Authority did not issue it
(12 R340, 14 R362; log 7). FREE VALUE. -/
opaque certKey : Bytes → Bytes

/-- The serial number an X.509 certificate names (14 R362; log 7). FREE VALUE. -/
opaque certUid : Bytes → W64

/-- The version an image of the microcode names (04 R120; its format is the maker's, log 8). FREE VALUE. -/
opaque imageVersion : Bytes → W32

/-- The security version an image names (log 8). FREE VALUE. -/
opaque imageSvn : Bytes → W16

/-- The program slots beyond Table 10.1 that a maker's image fills (10 R272; log 8). FREE VALUE. -/
opaque imagePrograms : Bytes → W64

/-- Whether bit `n` of a tenant's epoch counter in OTP, counted from 1, passes its margin reads within 8 pulses (05 R138;
log 53). FREE VALUE. -/
opaque otpHolds : Nat → Nat → Bool

/-- Whether an image's signature passes (log 8). FREE VALUE. -/
opaque imageVerdict : Bytes → Bool

/-- Whether an image reads a journal format, by number (14 R381; its format is the maker's, log 8). FREE VALUE. -/
opaque imageReads : Bytes → Nat → Bool

/-- The image the unit carries in slot A at delivery (00 R2; log 8). FREE VALUE. -/
opaque factoryImage : Bytes

/-- A prime found by key generation for a wanted bit length and exponent, by draw (10 R292; log 5). FREE VALUE. -/
opaque rsaPrime : Nat → Nat → Nat → Nat

/-- The pipeline, among those in service, that a command's micro-operations go to, by tag and instant (08 R215 gives no
placement; log 47). FREE VALUE. -/
opaque uopPipe : Nat → Nat → Nat

/-- Whether the free blocks of a broken pool take nodes of these words (07 R204; log 18). -/
opaque poolFits : Nat → List Nat → Bool

/-- The largest free block of the route node pool while it is broken up, before it is bounded (07 R206; log 18).
FREE VALUE. -/
opaque poolBlock : Nat → Nat

/-- The key field that the key data of an X9.143 block holds for an asymmetric key, and back: the spec gives no format
(05 R148; log 28). FREE VALUE. -/
opaque asymIn : Bytes → Bytes

/-- The key data of an X9.143 block for the key field of an asymmetric key (05 R148; log 28). FREE VALUE. -/
opaque asymOut : Bytes → Bytes

/-- Nominal voltage of a rail of Table 15.1 in mV, where the spec names none (15 R406: clamps are parts of nominal;
log 11). FREE VALUE. -/
opaque railNominal : Nat → Nat

/-- The bytes of a message between twins: the spec states that frames carry it and not its coding (14 R363; log 62). FREE
VALUE. -/
opaque linkBytes : Machine.TwinMsg → Bytes

/-- What each unit signs in a link's exchange, of its own part and the other's: R364 gives the form of R330 and not the
transcript (log 62). FREE VALUE. -/
opaque linkDigest : Bytes → Bytes → Bytes

/-- The keys of a link, of Z, of the own part and the other's: 32 bytes to seal with and 32 to open with (14 R364; log 62).
FREE VALUE. -/
opaque linkKeys : Bytes → Bytes → Bytes → Bytes

/-- The encrypted body of a snapshot, which only an NKL-9420 interprets (12 R338: its sections are opaque; log 40).
FREE VALUE. -/
opaque snapBody : Machine.SnapImage → Bytes

/-- What the body of another unit's snapshot holds (log 40). FREE VALUE. -/
opaque snapDecode : Bytes → Option Machine.SnapImage

/-- Where the PCI Express Capability stands in a function's configuration space (03 R486 names registers of it; log 11).
FREE VALUE. -/
opaque pcieCap : Nat

end Sys2Proof.Config
end

