-- ==== Sys2Proof/Machine/TypesHost.lean ====
section
/-! DEFINITION. State of the host side: common page headers, DEV header, HIF, NIF, CMQ, SCH, TXP and ACU (chapters 02
to 04), and the outputs the unit drives. -/

namespace Sys2Proof.Machine

/-- The common header of a block (02 Tables 2.1 to 2.6). `locked` is the lock of 15 R403; `testLeft` are the units that the
requested self-test has still to test and `testBad` says that one of its units failed. -/
structure BlkHdr where
  ctl : W32
  ready : Bool
  fault : Bool
  health : Nat
  intStat : W32
  intEn : W32
  errCode : W32
  errAddr : W64
  locked : Bool
  testReq : Bool
  testLeft : List Nat
  testBad : Bool
  deriving DecidableEq, Repr

/-- A common header after reset (02 Table 2.1). -/
def BlkHdr.reset : BlkHdr :=
  { ctl := 1, ready := false, fault := false, health := 0, intStat := 0, intEn := 0, errCode := 0,
    errAddr := 0, locked := false, testReq := false, testLeft := [], testBad := false }

/-- An MSI-X table entry: address, data and vector control (02 Table 2.8, reset per PCIe: masked; log 11). -/
structure MsixEntry where
  addr : W64
  data : W32
  ctl : W32
  deriving DecidableEq, Repr

/-- An MSI-X entry after reset: masked. -/
def MsixEntry.reset : MsixEntry := { addr := 0, data := 0, ctl := 1 }

/-- A message-signalled interrupt: the function it comes from, its vector, address and data (02 R50). -/
structure MsixMsg where
  vf : Nat
  vector : Nat
  addr : W64
  data : W32
  deriving DecidableEq, Repr

/-- One port's admin queue (02 Table 2.8, 03 R487). `stopped` says that a failed read stopped it; `reading` is the instant
at which the read of its next entry was issued (R486). -/
structure AdminQ where
  sqBaseNew : W64
  sqBase : W64
  sqSize : Nat
  sqTail : Nat
  sqHead : Nat
  cqBaseNew : W64
  cqBase : W64
  cqSize : Nat
  cqHead : Nat
  cqTail : Nat
  phase : Bool
  doorbellErr : Bool
  fetchErr : Bool
  stopped : Bool
  stamps : Tbl Stamp
  reading : Option Nat
  deriving DecidableEq, Repr

/-- An admin queue after reset. -/
def AdminQ.reset : AdminQ :=
  { sqBaseNew := 0, sqBase := 0, sqSize := 0, sqTail := 0, sqHead := 0, cqBaseNew := 0, cqBase := 0, cqSize := 0,
    cqHead := 0, cqTail := 0, phase := true, doorbellErr := false, fetchErr := false, stopped := false, stamps := [],
    reading := none }

/-- What each port has of its own (02 R43) and its PCIe interface (03 Table 3.20, 18 R462, R470). `cfg` is keyed by
4,096 × function + register; `posted` are messages queued while the port takes no posted writes (01 Table 1.3). -/
structure PortState where
  intEn : W32
  bar2En : Bool
  msix : Tbl MsixEntry
  pba : Tbl Bool
  vfMsix : Tbl MsixEntry
  vfPba : Tbl Bool
  admq : AdminQ
  linkUp : Bool
  width : Nat
  gen : Nat
  perst : Bool
  cfgReady : Bool
  cfg : Tbl W32
  posted : List MsixMsg
  deriving DecidableEq, Repr

/-- A port after reset. -/
def PortState.reset : PortState :=
  { intEn := 0, bar2En := false, msix := [], pba := [], vfMsix := [], vfPba := [], admq := AdminQ.reset,
    linkUp := false, width := 0, gen := 0, perst := false, cfgReady := false, cfg := [],
    posted := [] }

/-- A tenant's direct FIFO (03 R76 to R80). `discard` counts words of a torn command still to be discarded; `left` are
the words of a partly read completion; `stamps` the arrival stamp of each word held; `granted` says that a tag is kept for
the command at its head (R77, R106). -/
structure Fifo where
  push : List W64
  stamps : List Stamp
  discard : Nat
  cpl : List Bytes
  left : List W64
  overrun : Bool
  frameErr : Bool
  granted : Bool
  deriving DecidableEq, Repr

/-- A FIFO after reset. -/
def Fifo.reset : Fifo :=
  { push := [], stamps := [], discard := 0, cpl := [], left := [], overrun := false, frameErr := false, granted := false }

/-- A completion datagram sent and not yet acknowledged (03 R91). -/
structure NctSent where
  dsn : Nat
  recs : Bytes
  count : Nat
  due : Nat
  gap : Nat
  tries : Nat
  deriving DecidableEq, Repr

/-- NCT transport state of a session (03 R89 to R92, 12 R341). -/
structure NctSess where
  peer : NetPeer
  ackDsn : Nat
  bitmap : Nat
  nextDsn : Nat
  sent : List NctSent
  held : List Cpl
  heldSince : Nat
  outstanding : Nat
  window : Option Nat
  ackDue : Option Nat
  lastReset : Option Nat
  fresh : Bool
  deriving DecidableEq, Repr

/-- The host-facing state of a tenant: attachments, functions, queues, interrupts (03, 12 R345). -/
structure TenHost where
  attA : Bool
  attB : Bool
  attNet : Bool
  fifoPort : Port
  fifoPortNew : Option Port
  tvec : Nat
  tnct : Nat
  vfA : Nat
  vfB : Nat
  bindRefused : Bool
  sessCap : Nat
  qp : Tbl QPair
  fifo : Fifo
  intStat : BitVec 6
  intEn : BitVec 6
  errQp : Nat
  parked : List Cpl
  weight : Nat
  cap : Nat
  maxPrio : Nat
  kstCap : Nat
  tage : Nat
  lineMax : Nat
  routeCap : Nat
  recCap : Nat
  draining : Bool
  deriving DecidableEq, Repr

/-- A tenant's host-facing state after reset. -/
def TenHost.reset : TenHost :=
  { attA := false, attB := false, attNet := false, fifoPort := .a, fifoPortNew := none, tvec := 0, tnct := 128,
    vfA := 0, vfB := 0, bindRefused := false, sessCap := 256, qp := [], fifo := Fifo.reset, intStat := 0, intEn := 0,
    errQp := 0, parked := [], weight := 16, cap := 256, maxPrio := 4, kstCap := 8192, tage := 0, lineMax := 393216,
    routeCap := 65536, recCap := 1024, draining := false }

/-- Where a command stands between its tag and its completion. -/
inductive Phase where
  /-- Waits at step 9 of acceptance for its session's mark (12 R334). -/
  | gate
  /-- On the ready lists at a level since an instant (04 R100, R101). -/
  | ready (level since : Nat)
  /-- Held by a context, its program running (04 R113). -/
  | running
  /-- Held by a context that waits for key lines or fetch slots (06 R172). -/
  | keys
  /-- Waits for a job slot since an instant (08 R223). -/
  | slot (since : Nat)
  /-- Its job runs on an engine (08 R222). -/
  | job
  /-- Handed to PKE (04 R118). -/
  | pke
  /-- Its journal record is issued and not committed (01 R28). -/
  | commit (jsn : W64)
  /-- Its record waits for journal buffer space (19 R476). -/
  | space
  /-- Waits for verifications of approvals in progress (11 R307) or for one of its own. -/
  | verify
  /-- Waits for its tenant's drain (12 R337). -/
  | drain
  /-- Waits for its twin (14 R362, R382, 04 R125). -/
  | twin
  /-- Waits for compaction to finish (07 R207). -/
  | compact
  /-- Waits for the Leeward's acknowledgement of its budget count, the `n`th sent, since an instant (09 R254). -/
  | count (n since : Nat)
  /-- A duplicate that waits for the original in flight (01 R29). -/
  | dup (original : Nat)
  /-- Complete; its completion waits for room in its queue, holding the tag (03 R487, 01 R25). -/
  | done
  deriving DecidableEq, Repr

/-- A command that holds a tag (03 R81). `entered` is the instant its last byte came in (00 R6); `readAt` the instant
its host reads were asked for (03 R486); `stamp` and `since` are its stamp in external time and on the free-running
clock; `dup` marks a completion that answers a duplicate (03 R83). -/
structure Cmd where
  tenant : Nat
  admin : Bool
  path : Path
  sqHead : Nat
  resAddr : W64
  resSize : Nat
  opcode : Nat
  session : Nat
  seq : W64
  reqId : W64
  prio : Nat
  wasSealed : Bool
  sealKey : Option Bytes
  digest : Bytes
  body : Bytes
  stamp : W64
  since : Nat
  entered : Nat
  level : Nat
  phase : Phase
  core : Nat
  ctx : Nat
  runs : Nat
  pins : List Nat
  slots : List Nat
  stage : Nat
  mem : List Bytes
  outcome : Option (W16 × Bytes)
  dup : Bool
  readAt : Nat
  reached : Option W64
  scratch : Tbl Bytes
  pipes : List Nat
  arpc : Bool
  deriving DecidableEq, Repr

/-- One violation record (02 Table 2.16). -/
structure Violation where
  w0 : W64
  w1 : W64
  w2 : W64
  w3 : W64
  deriving DecidableEq, Repr

/-- The access control units (02 R51 to R60). -/
structure AcuState where
  fifo : List Violation
  lost : W32
  seq : W32
  deriving DecidableEq, Repr

/-- The store of violations after reset. -/
def AcuState.reset : AcuState := { fifo := [], lost := 0, seq := 0 }

/-- A fetched entry whose capsule has not been accepted: `got` is the capsule once it is inside, with the instant of its
last byte; a pointer-form capsule is read from host memory (03 R71, R75). -/
structure PtrRead where
  q : QId
  sqHead : Nat
  entry : Bytes
  stamp : Stamp
  issued : Nat
  got : Option (Nat × Bytes)
  deriving DecidableEq, Repr

/-- NIF configuration of a port, an address entry and a next hop (03 Table 3.18). -/
structure NetPort where
  ctl : W32
  link : Bool
  fec : Bool
  mac : BitVec 48
  deriving DecidableEq, Repr

/-- A port after reset (MTU 9,216). -/
def NetPort.reset : NetPort := { ctl := 0x24000000, link := false, fec := false, mac := 0 }

/-- An address or next-hop entry (03 Table 3.19). -/
structure NetEntry where
  ctl : W32
  addr : Bytes
  mac : BitVec 48
  deriving DecidableEq, Repr

/-- An entry after reset. -/
def NetEntry.reset : NetEntry := { ctl := 0, addr := zeroBytes 16, mac := 0 }

/-- The network interface (03 Table 3.18). -/
structure NifState where
  port : Tbl NetPort
  addr : Tbl NetEntry
  nh : Tbl NetEntry
  udpPort : Nat
  rto : Nat
  retries : Nat
  ackDelay : Nat
  coalesce : Nat
  drop : W64
  giveup : W64
  sess : Tbl NctSess
  deriving DecidableEq, Repr

/-- The network interface after reset. -/
def NifState.reset : NifState :=
  { port := [], addr := [], nh := [], udpPort := 47420, rto := 100, retries := 6, ackDelay := 2, coalesce := 0,
    drop := 0, giveup := 0, sess := [] }

/-- The command queue manager (03 Tables 3.17, 12 Table 12.10). `waiting` are the tags whose completions wait for room,
in the order in which they finished (03 R75); `lastPath` is the tenant path served last in rotation (04 R106). -/
structure CmqState where
  cmds : Tbl Cmd
  hwm : Nat
  tsel : Nat
  ptr : Tbl PtrRead
  nextPtr : Nat
  waiting : List Nat
  lastPath : Nat
  deriving DecidableEq, Repr

/-- A ring place: a tenant at a level with its deficit (04 R102). `visited` marks a visit in progress. -/
structure RingPlace where
  tenant : Nat
  deficit : Nat
  visited : Bool
  tags : List Nat
  deriving DecidableEq, Repr

/-- A timer of the delay lists (04 Table 4.2). -/
inductive TimerKind where
  | system (n : Nat)
  | evr (ch : Nat)
  | budget (handle : Nat)
  | key (handle : Nat)
  | blob (slot : Nat)
  deriving DecidableEq, Repr

/-- A timer with its due instant, the order of its insertion and the instant of that (04 R108, R109). -/
structure Timer where
  kind : TimerKind
  due : W64
  order : Nat
  placed : Nat
  deriving DecidableEq, Repr

/-- The scheduler (04 Table 4.7). `overflow` is the key-schedule overflow list (04 R111); `waiting` are the contexts (core,
context) blocked in GETWORK (R113); `stepAt` is the instant of the last step of time (R109). -/
structure SchState where
  tsel : Nat
  age : Nat
  quantum : Nat
  rings : Tbl (List RingPlace)
  timers : List Timer
  overflow : List Timer
  order : Nat
  tmrHwm : Nat
  dispatch : W64
  promote : W64
  lastCore : Nat
  waiting : List (Nat × Nat)
  stepAt : Nat
  deriving DecidableEq, Repr

/-- The scheduler after reset. -/
def SchState.reset : SchState :=
  { tsel := 0, age := 1000, quantum := 8, rings := [], timers := [], overflow := [], order := 0, tmrHwm := 0,
    dispatch := 0, promote := 0, lastCore := 0, waiting := [], stepAt := 0 }

/-- The transaction processors (04 Tables 4.8, 4.9). `slot` is the image that runs; `leaving` are the cores to withdraw once
their contexts hold no command (R119); `used` are the contexts that have held one since the start (R116). -/
structure TxpState where
  imageLoaded : Bool
  slot : Port
  pending : Bool
  otherValid : Bool
  version : W32
  svn : W16
  svnFloor : W16
  coreAvail : W64
  leaving : W64
  used : List (Nat × Nat)
  budgetFault : W64
  winCore : Nat
  winPage : Nat
  deriving DecidableEq, Repr

/-- The processors after reset. -/
def TxpState.reset : TxpState :=
  { imageLoaded := false, slot := .a, pending := false, otherValid := false, version := 0, svn := 0, svnFloor := 0,
    coreAvail := 0, leaving := 0, used := [], budgetFault := 0, winCore := 0, winPage := 0 }

/-- The header fields of a frame that leaves: its port, VLAN and priority, its MAC addresses, and for IP the hop limit,
DF and whether its checksums are filled in (03 R86, R94, R95). -/
structure NetHdr where
  port : Nat
  vlan : Nat
  pcp : Nat
  srcMac : BitVec 48
  dstMac : BitVec 48
  hops : Nat
  df : Bool
  sums : Bool
  deriving DecidableEq, Repr

/-- What the unit drives on its ports, in order (log 12). -/
inductive Output where
  /-- A posted write to host memory. -/
  | hostWrite (p : Port) (addr : W64) (data : Bytes)
  /-- A read request to host memory. -/
  | hostRead (p : Port) (addr : W64) (len : Nat)
  /-- The lists of a job being read: input, output and AAD (08 R225). -/
  | sglRead (p : Port) (ins outs aads : W64)
  /-- An MSI-X message: the vector of the PF, or of a VF. -/
  | msix (p : Port) (vf vector : Nat) (addr : W64) (data : W32)
  /-- The data a register read returns. -/
  | readData (data : Bytes)
  /-- A PCIe completion without data: Unsupported Request, or Configuration Request Retry Status. -/
  | unsupported (p : Port)
  | cfgRetry (p : Port)
  | cfgData (p : Port) (v : W32)
  /-- An NCT datagram and the frame fields it leaves with. -/
  | nct (h : NetHdr) (peer : NetPeer) (datagram : Bytes)
  /-- An ARP reply, Neighbor Advertisement or Echo Reply, or an unsolicited address claim. -/
  | arpReply (h : NetHdr) (own target : Bytes) (mac : Bytes)
  | neighborAdvert (h : NetHdr) (own target : Bytes)
  | echoReply (h : NetHdr) (v6 : Bool) (own peer payload : Bytes)
  | addressClaim (h : NetHdr) (v6 : Bool) (own : Bytes)
  /-- A frame on a Crosswind link: the link, the frame counter and the sealed payload with its tag (14 R363). -/
  | twinFrame (l ctr : Nat) (sealed : Bytes)
  /-- A link's exchange of R364 asked for, and this unit's part in it: nonce, ephemeral point and signature. -/
  | twinHandshake (l : Nat) (uid : W64)
  | twinHello (l : Nat) (hello : Bytes)
  /-- A pin driven: its name and whether it is asserted or high. -/
  | pin (name : String) (level : Bool)
  /-- A frame on a custodian port: type and payload. -/
  | custFrame (port type seq : Nat) (payload : Bytes)
  /-- PTP messages sent. -/
  | ptpDelayReq (port : Nat) (p2p : Bool)
  | pdelayResp (port : Nat)
  /-- A message to the sideband (17 R442, 18 R467). -/
  | sideband (b : Bytes)
  | i3cAck (addr : Nat)
  /-- A line on the boundary-scan port. -/
  | tapOut (ir : TapIr) (v : W32)
  deriving DecidableEq, Repr

end Sys2Proof.Machine
end

