-- ==== Sys2Proof/Machine/TypesUnit.lean ====
section
/-! DEFINITION. State of the key hierarchy, random generation, key cache, blob store, route table, time, dual control,
twin link and journal (chapters 05 to 07, 11, 13, 14, 19). -/

namespace Sys2Proof.Machine

/-- The key hierarchy (05 Table 5.13). `roots` is the state code of the live LCR with its value and DSK; `cert` a
certificate attached when the unit left TEST, none for the delivered one (R133). -/
structure KhsState where
  pufOk : Bool
  pufFail : Bool
  pufReads : Nat
  pufBits : Nat
  eshPresent : Bool
  eshFresh : Bool
  eshMismatch : Bool
  dus : Option Bytes
  lcr : Option (Nat × Bytes)
  dsk : Option Bytes
  esc : Option Bytes
  idKey : Option Nat
  cert : Option Bytes
  tsel : Nat
  repaired : Tbl Bool
  progFail : Bool
  repairedCnt : Nat
  deriving DecidableEq, Repr

/-- The key hierarchy after reset. -/
def KhsState.reset : KhsState :=
  { pufOk := false, pufFail := false, pufReads := 0, pufBits := 0, eshPresent := false, eshFresh := false,
    eshMismatch := false, dus := none, lcr := none, dsk := none, esc := none, idKey := none, cert := none, tsel := 0, repaired := [],
    progFail := false, repairedCnt := 0 }

/-- An entropy source (05 Table 5.15): whether it passes its tests and is in use, and the instants of its failures in the
last second. -/
structure Source where
  ok : Bool
  failed : Bool
  fails : List Nat
  deriving DecidableEq, Repr

/-- A source after reset. -/
def Source.reset : Source := { ok := false, failed := false, fails := [] }

/-- A DRBG instance (05 R161): requests and instant since its last reseed. -/
structure Drbg where
  ready : Bool
  requests : Nat
  since : Nat
  deriving DecidableEq, Repr

/-- Random generation (05 Table 5.14). -/
structure RngState where
  es1 : Source
  es2 : Source
  d0 : Drbg
  d1 : Drbg
  single : Bool
  halted : Bool
  reseeds : W64
  genBytes : W64
  maskStall : W64
  htFail : W64
  rawSel : Bool
  deriving DecidableEq, Repr

/-- Random generation after reset; RNG_RAW_SEL selects ES1, its reset value a choice (log 11). -/
def RngState.reset : RngState :=
  { es1 := Source.reset, es2 := Source.reset, d0 := { ready := false, requests := 0, since := 0 },
    d1 := { ready := false, requests := 0, since := 0 }, single := false, halted := false, reseeds := 0, genBytes := 0,
    maskStall := 0, htFail := 0, rawSel := false }

/-- The states of a cache line that is not FREE (06 Table 6.2). -/
inductive LineState where
  | fetching
  | valid
  | derived
  deriving DecidableEq, Repr

/-- What a line admits (09 Table 9.2): a stored key what its attributes say; a DERIVED line ECB encryption, a MAC, a
MAC with the ARPC mark, PIN decryption, or CBC encryption. -/
inductive LineUse where
  | stored
  | ecb
  | mac
  | macArpc
  | pin
  | conf
  deriving DecidableEq, Repr

/-- A cache line (06 R177, R178, R185). `pins` are the tags that pin it, `remasks` its re-mask count, `zero` asks for
zeroing at the last release. -/
structure Line where
  state : LineState
  use : LineUse
  tenant : Nat
  kind : Nat
  index : Nat
  attr : Bytes
  shareA : Bytes
  shareB : Bytes
  stamp : W32
  pins : List Nat
  deliveries : Nat
  remasked : Nat
  remasks : Nat
  slot : Option Nat
  zero : Bool
  deriving DecidableEq, Repr

/-- An entry of the handle table: which handle stands in the way and which line it names (06 R180). -/
structure Way where
  tenant : Nat
  kind : Nat
  index : Nat
  line : Nat
  deriving DecidableEq, Repr

/-- A mask generator (05 R163): its seed of 256 bits with the 128-bit initial value, empty before the first; the next
where it has come; the blocks produced under the present one. -/
structure MaskGen where
  seed : Bytes
  next : Option Bytes
  blocks : Nat
  deriving DecidableEq, Repr

/-- A generator not yet seeded. -/
def MaskGen.none : MaskGen := { seed := [], next := Option.none, blocks := 0 }

/-- The key cache (06 Table 6.5). Ways are numbered bucket × 4 + way; `busyAt` is the instant a rehash began, `mask` the
cache's own mask generator. -/
structure KchState where
  lines : Tbl Line
  hand : Nat
  bank : Tbl Way
  other : Tbl Way
  seed : Bytes
  newSeed : Bytes
  seedNext : Bytes
  busy : Bool
  busyAt : Nat
  moved : Nat
  mask : MaskGen
  stash : List Way
  tsel : Nat
  hit : W64
  miss : W64
  evict : W64
  ageEvict : W64
  remask : W64
  remaskStall : W64
  uopRefuse : W64
  deriving DecidableEq, Repr

/-- The key cache after reset: every line FREE. -/
def KchState.reset : KchState :=
  { lines := [], hand := 0, bank := [], other := [], seed := zeroBytes 16, newSeed := zeroBytes 16,
    seedNext := zeroBytes 16, busy := false, busyAt := 0, moved := 0, mask := MaskGen.none, stash := [],
    tsel := 0, hit := 0, miss := 0, evict := 0,
    ageEvict := 0, remask := 0, remaskStall := 0, uopRefuse := 0 }

/-- A blob store window (06 R168). -/
structure Window where
  base : W64
  size : Nat
  valid : Bool
  port : Port
  refused : Bool
  deriving DecidableEq, Repr

/-- A window after reset. -/
def Window.reset : Window := { base := 0, size := 0, valid := false, port := .a, refused := false }

/-- A fetch slot in use (06 R174, R175). `line` is the cache line it fills, none for a public-key fetch; `blob` the
blob held for PKE once read. -/
structure Fetch where
  handle : W64
  line : Option Nat
  first : Nat
  issued : Nat
  pk : Bool
  waiters : List Nat
  retryAt : Option Nat
  blob : Option Bytes
  deriving DecidableEq, Repr

/-- A pending blob write (06 R176), with the port and host address its bytes go to. -/
structure PendWrite where
  tenant : Nat
  index : Nat
  port : Port
  addr : Nat
  bytes : Bytes
  deriving DecidableEq, Repr

/-- The blob store interface (06 Table 6.7). Windows are numbered tenant × 8 + window; `pend` are the pending-write
entries in use, `held` writes that applied records hold until an entry frees (R176). -/
structure BsxState where
  win : Tbl Window
  tsel : Nat
  wsel : Nat
  slots : Tbl Fetch
  retryGap : Nat
  latMax : Nat
  pend : List PendWrite
  held : List PendWrite
  fetch : W64
  timeout : W64
  readErr : W64
  blobWrite : W64
  replGap : W64
  deriving DecidableEq, Repr

/-- The blob store interface after reset. -/
def BsxState.reset : BsxState :=
  { win := [], tsel := 0, wsel := 0, slots := [], retryGap := 20, latMax := 0, pend := [], held := [], fetch := 0,
    timeout := 0, readErr := 0, blobWrite := 0, replGap := 0 }

/-- What belongs to a tenant's old route set alone since a switch: words and record slots (07 R199). -/
structure OldSet where
  tenant : Nat
  words : Nat
  slots : Nat
  since : Nat
  deriving DecidableEq, Repr

/-- The route table unit (07 Table 7.9). `old` lists the tenants whose old set still holds its nodes (07 R199), with
the words and record slots it holds alone. -/
structure RtbState where
  poolLow : Nat
  compacting : Option Nat
  moved : Nat
  tsel : Nat
  lookups : W64
  noRoute : W64
  full : W64
  old : List OldSet
  compacted : Bool
  deriving DecidableEq, Repr

/-- The route table unit after reset. -/
def RtbState.reset : RtbState :=
  { poolLow := 262144, compacting := none, moved := 0, tsel := 0, lookups := 0, noRoute := 0, full := 0, old := [],
    compacted := true }

/-- One time source's qualification (13 Table 13.1). `last` is the last sample: instant of the unit's clock and
external time in ns; `rejected` the hour in which R355 refused it, `early` that it lies before the floor (R356); `refOk`
that REF10M_IN was good at the last edge. -/
structure SrcState where
  samples : Nat
  qualified : Bool
  rejected : Option Nat
  early : Bool
  last : Option (Nat × Int)
  announced : Bool
  refOk : Bool
  deriving DecidableEq, Repr

/-- A source that has shown nothing. -/
def SrcState.reset : SrcState :=
  { samples := 0, qualified := false, rejected := none, early := false, last := none, announced := false, refOk := false }

/-- The states of TIM (13 Table 13.4). -/
inductive TimMode where
  | unset
  | locked
  | holdover
  | expired
  deriving DecidableEq, Repr

/-- TIM_STAT[1:0] (13 Table 13.9). -/
def TimMode.code : TimMode → Nat
  | .unset => 0
  | .locked => 1
  | .holdover => 2
  | .expired => 3

/-- The time unit (13 Table 13.9). External time is `clk + offset` in ns since the epoch, and what `slew` has removed
since its start: instant, amount in ns, rate in parts of 10^12 (R354). `trust` is the history of trust, newest first;
`hour` and `applied` the corrections of a whole hour (R355); `sync` the last Sync of an entry as received. -/
structure TimState where
  mode : TimMode
  offset : Int
  inUse : Option TimeSrc
  src : Tbl SrcState
  lossAt : Option W64
  trust : List (W64 × Bool)
  lastOffset : W32
  slew : Option (Nat × Int × Nat)
  stepCnt : W64
  lastStep : W64
  floor : W64
  twinOffset : W32
  twinAlign : Bool
  hour : Nat
  applied : Int
  sync : Tbl (Nat × Int)
  pps : Option Nat
  tod : Option (Nat × Nat)
  pathDelay : Tbl Int
  reqSent : Tbl Nat
  reqAt : Tbl Nat
  deriving DecidableEq, Repr

/-- The time unit after reset. -/
def TimState.reset : TimState :=
  { mode := .unset, offset := 0, inUse := none, src := [], lossAt := none, trust := [], lastOffset := 0, slew := none, stepCnt := 0,
    lastStep := 0, floor := 0, twinOffset := 0, twinAlign := false, hour := 0, applied := 0, sync := [], pps := none, tod := none,
    pathDelay := [], reqSent := [], reqAt := [] }

/-- A custodian port (11 Table 11.9). `sent` are frames awaiting ACK: sequence, type, payload, instant, tries. -/
structure CustPort where
  ctl : W32
  link : Bool
  session : Option Nat
  dropped : Nat
  seq : Nat
  sent : List (Nat × Nat × Bytes × Nat × Nat)
  deriving DecidableEq, Repr

/-- A custodian port after reset. -/
def CustPort.reset : CustPort := { ctl := 0, link := false, session := none, dropped := 0, seq := 0, sent := [] }

/-- A custodian session (11 R310): its custodian and the stamp of that enrolment, the key terminal to module, and the
sequence numbers seen as for a client's session (12 R333). -/
structure CustSession where
  dom : Nat
  slot : Nat
  enrolled : W64
  key : Bytes
  expiry : W64
  h : Nat
  bitmap : Nat
  deriving DecidableEq, Repr

/-- A key component ceremony (11 R311 to R313). -/
structure Ceremony where
  tenant : Nat
  trk : Bool
  attr : Bytes
  parts : Nat
  kcv : Bytes
  opened : W64
  ends : W64
  acc : Bytes
  given : List Nat
  armed : Bool
  deriving DecidableEq, Repr

/-- An approval being verified: its record, domain, stamp and where its outcome goes (11 R305). -/
structure Verifying where
  record : Bytes
  dom : Nat
  chal : Nat
  cust : Nat
  stamp : W64
  tag : Option Nat
  port : Option Nat
  deriving DecidableEq, Repr

/-- The dual-control unit (11 Table 11.9). `proofs` are proofs of possession that came in on a port, with their stamps
(R299). -/
structure DcuState where
  port : Tbl CustPort
  sess : Tbl CustSession
  cer : Tbl Ceremony
  nextCer : Nat
  verify : Tbl Verifying
  nextVerify : Nat
  proofs : List (Bytes × W64)
  maint : Option (W64 × W64)
  tsel : Nat
  approvals : W64
  sigFail : W64
  quorum : W64
  deriving DecidableEq, Repr

/-- The dual-control unit after reset. -/
def DcuState.reset : DcuState :=
  { port := [], sess := [], cer := [], nextCer := 1, verify := [], nextVerify := 0, proofs := [], maint := none,
    tsel := 0, approvals := 0, sigFail := 0, quorum := 0 }

/-- The roles of Table 14.1. -/
inductive Role where
  | unpaired
  | windward
  | leeward
  | held
  deriving DecidableEq, Repr

/-- TWIN_STAT.ROLE (14 Table 14.1). -/
def Role.code : Role → Nat
  | .unpaired => 0
  | .windward => 1
  | .leeward => 2
  | .held => 3

/-- A Crosswind link (14 R363, R364, Table 14.10). `keys` are the key this unit seals under and the one it opens with, none
while the link is not keyed; `sent` and `got` the counters of the last frame sent and accepted under them. -/
structure Link where
  up : Bool
  keys : Option (Bytes × Bytes)
  lanes : Nat
  tagFail : Nat
  sent : Nat
  got : Nat
  keyedAt : Nat
  deriving DecidableEq, Repr

/-- A link after reset. -/
def Link.reset : Link := { up := false, keys := none, lanes := 0, tagFail := 0, sent := 0, got := 0, keyedAt := 0 }

/-- The twin link (14 Tables 14.10, 14.11). Paths are 0 link X, 1 link Y, 2 the wire; `heard` are the instants of
their last heartbeats. `pairing` is the TWIN_PAIR that waits: tag, unit named, HOME. `promoting` is the instant of the
last heartbeat of a promotion in progress, `held` TWIN_STAT and PAIR_DEGRADED while they hold their last values
(R371); `handover` is the instant S, `byRevert` that a revert set it, `handing` that it has passed; `divHeld` is
TWIN_DIVERGED; `countsLost` says that the unit serves without its twin's budget counts and has accepted no command yet
(09 R255), `countSeq` numbers the counts sent (R254); `stalled` that no progress was made, `shutRole` the role held at
shutdown, `shut` that the service gate stays shut until the next start (R368, 16 R417, R424). -/
structure TlkState where
  role : Role
  paired : Bool
  home : Bool
  sync : Bool
  stale : Bool
  resync : Bool
  orphaned : Bool
  revertArmed : Bool
  peerHealth : Nat
  peerUid : W64
  roleEpoch : W64
  jsnAcked : W64
  jsnApplied : W64
  allBlobs : Bool
  link : Tbl Link
  heard : Tbl Nat
  silent : Tbl Bool
  wireLevel : Bool
  resyncBytes : W64
  ackMax : Nat
  switchCnt : W64
  divLog : List W64
  health : Bytes
  pairing : Option (Nat × W64 × Bool)
  promoting : Option Nat
  handover : Option W64
  byRevert : Bool
  handing : Bool
  held : Option (W32 × Bool)
  divHeld : Nat
  peerCursors : Tbl Nat
  holdFrom : Option Nat
  alone : List (W64 × W64)
  peerFormat : Bool
  peerWrites : Nat
  starting : Option Nat
  countsLost : Bool
  countSeq : Nat
  stalled : Bool
  shut : Bool
  shutRole : Role
  deriving DecidableEq, Repr

/-- The twin link after reset. -/
def TlkState.reset : TlkState :=
  { role := .unpaired, paired := false, home := false, sync := false, stale := false, resync := false,
    orphaned := false, revertArmed := false, peerHealth := 0, 
    peerUid := 0, roleEpoch := 0, jsnAcked := 0, jsnApplied := 0, allBlobs := false, link := [], heard := [],
    silent := [], wireLevel := false, resyncBytes := 0, ackMax := 0, switchCnt := 0, divLog := [],
    health := zeroBytes 256, pairing := none, promoting := none, handover := none, byRevert := false, handing := false,
    held := none, divHeld := 0, peerCursors := [], holdFrom := none, alone := [], peerFormat := true,
    peerWrites := 0, starting := none, countsLost := false, countSeq := 0, stalled := false,
    shut := false, shutRole := .unpaired }

/-- A record issued and not yet committed: the record, the instant of its issue and of its local copy (01 R28). -/
structure Issued where
  rcd : JRecord
  issued : Nat
  deriving DecidableEq, Repr

/-- The journal and store controller (19 Tables 19.8 to 19.10). `waiting` are records that wait for buffer space;
`received` records acknowledged and not yet applied, with the instant of that (14 R488), `ring` committed records with
their stamps; `evidence` the evidence area: words 0 to 2 of each tamper record copied there, under its slot's number
(15 R399); `flushing` is flush-only mode, `flushed` whether the last flush since the present start wrote its marker,
`started` that the start-up sequence of this start has run, `fit` that it may end in READY, `resetHeld` that
MOD_RESET_N is asserted, `sealedIn` the clear header of the objects the store holds under a DSK: life-cycle state and
ESC (05 R131, 19 R472). -/
structure JnlState where
  boot : BitVec 8
  bootMs : Nat
  holdup : Nat
  jsnLast : W64
  jsnCommit : W64
  ckptJsn : W64
  ringOldest : W64
  bufUsed : Nat
  bufAt : Nat
  bufWait : Nat
  pfStat : BitVec 5
  pfFlushUs : Nat
  pfCnt : W64
  replayBytes : Nat
  wear : Nat
  reclaim : W64
  flashEcc : W64
  issued : List Issued
  waiting : List Issued
  received : List (JRecord × W64)
  ring : List (JRecord × W64)
  sealedIn : Option (Nat × Bytes)
  evidence : List (Nat × W64 × W64 × W64)
  flushed : Option Bool
  flushing : Bool
  started : Bool
  fit : Bool
  resetHeld : Bool
  deriving DecidableEq, Repr

/-- The journal after reset; the values the store holds at delivery are the model's (log 11). -/
def JnlState.reset : JnlState :=
  { boot := 0, bootMs := 0, holdup := 0, jsnLast := 0, jsnCommit := 0, ckptJsn := 0, ringOldest := 0, bufUsed := 0,
    bufAt := 0, bufWait := 0, pfStat := 0, pfFlushUs := 0, pfCnt := 0, replayBytes := 0, wear := 0, reclaim := 0,
    flashEcc := 0, issued := [], waiting := [], received := [], ring := [], sealedIn := none, evidence := [], flushed := none,
    flushing := false, started := false, fit := false, resetHeld := false }

end Sys2Proof.Machine
end

