-- ==== Sys2Proof/Machine/TypesGuard.lean ====
section
/-! DEFINITION. State of the security supervisor and of the life-cycle controller (chapters 15 and 16). -/

namespace Sys2Proof.Machine

/-- The tamper states of the unit (15 Table 15.5). -/
inductive Tamper where
  | normal
  | erased
  | hold
  | readmitted
  deriving DecidableEq, Repr

/-- A tamper record (15 Table 15.13). -/
structure TamperRec where
  lull : Bool
  copied : Bool
  checkBad : Bool
  resp : Nat
  source : Nat
  detail : Nat
  seq : W32
  stamp : W64
  value : W32
  limit : W32
  deriving DecidableEq, Repr

/-- A backup cell as the SSV judges it (15 R391). -/
structure Cell where
  present : Bool
  depleted : Bool
  low : Bool
  milliVolt : Nat
  deriving DecidableEq, Repr

/-- The security supervisor (15 Tables 15.11, 15.12). `squalled` is SSV_STAT.SQUALLED, `round` the detectors tested in
the present self-test round (15 R392). `fi` are the instants of the disagreements that count under R404; `lastTime` the last
TIME64 received, at the instant `lastClk` of the unit's clock (R386). -/
structure SsvState where
  power : SsvPower
  tamper : Tamper
  squalled : Bool
  cold : Bool
  calDefault : Bool
  maintSeen : Bool
  tempAOk : Bool
  tempBOk : Bool
  cellA : Cell
  cellB : Cell
  tempA : W16
  tempB : W16
  fi : List Nat
  fiTotal : Nat
  latch : BitVec 128
  stfail : BitVec 128
  round : BitVec 128
  recs : Tbl TamperRec
  lost : Nat
  seq : W32
  recSel : Nat
  cal : Bytes
  calWrites : Nat
  lastSt : W64
  esh : Option Bytes
  lastTime : W64
  lastClk : Nat
  deriving DecidableEq, Repr

/-- The management sideband (18 Table 18.11): its address, the trip flag, and the readings the module keeps current
(log 11). -/
structure SbState where
  addr : Nat
  thermTrip : Bool
  tj : W16
  vin : W16
  iin : W16
  pwr : W16
  deriving DecidableEq, Repr

/-- The sideband after reset: the static address. -/
def SbState.reset : SbState := { addr := 0x3A, thermTrip := false, tj := 0, vin := 0, iin := 0, pwr := 0 }

/-- An operation of LCC that waits for approvals to be verified (16 R416, 11 R307): what LCC_CMD.OP named, the outcomes
its write carried, and its stamp. -/
structure LccHeld where
  op : Nat
  ok : Bool
  agree : Bool
  stamp : W64
  deriving DecidableEq, Repr

/-- The PUF's helper data (05 R127): the code offsets of the four blocks, 1,278 bytes, and the check value. -/
structure PufHelper where
  offsets : Bytes
  check : Bytes
  deriving DecidableEq, Repr

/-- The life-cycle controller (16 Tables 16.9, 16.10). `words` are the OTP words, `helper` the PUF's; `mbox` and
`cert` the mailbox and the certificate page. -/
structure LccState where
  words : Tbl W64
  decoded : Option Nat
  progFail : Bool
  intent : Option Bytes
  nonce : Bytes
  nonceUsed : Bool
  mbox : Memory
  mboxLen : Nat
  cert : Memory
  scope : Bytes
  readOnly : Bool
  bscan : Bool
  dbgOpen : Bool
  chal : Option Bytes
  result : W16
  done : Bool
  stopping : Option Nat
  held : Option LccHeld
  ir : TapIr
  helper : Option PufHelper
  deriving DecidableEq, Repr

/-- A cell that is absent. -/
def Cell.none : Cell := { present := false, depleted := false, low := false, milliVolt := 0 }

/-- The factory responses of Table 15.1, one byte a source. -/
def factoryResp (src : Nat) : Byte :=
  if src ≤ 0x17 then 2
  else if src ≤ 0x47 then 0
  else if src ≤ 0x4D then 2
  else if src = 0x4E then 1
  else if src = 0x4F then 0
  else if src ≤ 0x57 then 1
  else if src ≤ 0x5F then 2
  else if src ≤ 0x63 then 1
  else if src ≤ 0x67 then 2
  else if src ≤ 0x6A then 0
  else if src ≤ 0x6E then 1
  else 0

/-- The calibration set as the factory wrote it (15 Table 15.7): the values the spec gives, zero elsewhere (log 11). -/
def factoryCal : Bytes :=
  let body := [1] ++ zeroBytes 23 ++ natLe 2 (65536 - 320) ++ natLe 2 1520 ++ zeroBytes 740 ++
    (List.range 128).map factoryResp ++ zeroBytes 124
  body ++ le32 (crc32c body)

/-- The supervisor at delivery: no supply, no ESH, no record (00 R2, 15 R387; log 10). -/
def SsvState.reset : SsvState :=
  { power := .lull, tamper := .normal, squalled := false, cold := false, calDefault := false, maintSeen := false,
    tempAOk := false, tempBOk := false, cellA := Cell.none, cellB := Cell.none, tempA := 0, tempB := 0, fi := [],
    fiTotal := 0, latch := 0, stfail := 0, round := 0, recs := [], lost := 0, seq := 0, recSel := 0,
    cal := factoryCal, calWrites := 0, lastSt := 0, esh := none, lastTime := 0,
    lastClk := 0 }

/-- The word patterns of Table 16.2. -/
def lcPattern (w : Nat) : W64 :=
  match w with
  | 0 => 0x5A3C96C3A569C35A
  | 1 => 0x3C96A55A69C396A5
  | 2 => 0xC36A5993A6C53A96
  | 3 => 0x96A53CC35A69A35C
  | 4 => 0xA5C36996C35A5C3A
  | _ => 0

/-- The controller at delivery: ENROLLED in OTP, not yet decoded (00 R2; log 10); `Mod.reset` adds the helper data. -/
def LccState.reset : LccState :=
  { words := [(0, lcPattern 0), (1, lcPattern 1)], decoded := none, progFail := false, intent := none,
    nonce := zeroBytes 32, nonceUsed := false, mbox := [], mboxLen := 0, cert := [], scope := zeroBytes 64,
    readOnly := false, bscan := false, dbgOpen := false, chal := none, result := 0, done := false, stopping := none,
    held := none, ir := .idcode, helper := none }

end Sys2Proof.Machine
end

