-- ==== Sys2Proof/Machine/TypesEng.lean ====
section
/-! DEFINITION. State of the symmetric and digest engines (chapter 08). -/

namespace Sys2Proof.Machine

/-- A job in a slot: its pipeline and the instant it left its slot queue (08 R223, R224). -/
structure Job where
  tag : Nat
  pipe : Nat
  start : Nat
  deriving DecidableEq, Repr

/-- An entry of a scatter-gather list (08 Table 8.5). -/
structure SglEntry where
  addr : W64
  len : Nat
  ctl : Nat
  deriving DecidableEq, Repr

/-- CTL.CHAIN. -/
def SglEntry.chain (e : SglEntry) : Bool := e.ctl.testBit 0

/-- CTL.LAST. -/
def SglEntry.last (e : SglEntry) : Bool := e.ctl.testBit 1

/-- An entry of a pipeline's key schedule store: the cache line it holds, at a re-mask count (08 R216). -/
structure KeySched where
  pipe : Nat
  line : Nat
  count : Nat
  deriving DecidableEq, Repr

/-- The symmetric engine (08 Table 8.14). `pipes` is SCE_PIPE_AVAIL; `strBase` is every context that `str` does not
list, `str` by tenant × 8 + context; `mask` are the pipelines' mask generators (05 R163), `sched` their key schedule stores,
newest entry first (08 R216). -/
structure SceState where
  pipes : BitVec 10
  jobs : List Job
  streamIdle : Nat
  str : Tbl Stream
  strBase : Stream
  aesBlocks : W64
  tdesBlocks : W64
  jobBytes : W64
  tagFail : W64
  dataTimeout : W64
  slotRefuse : W64
  mask : Tbl MaskGen
  sched : List KeySched
  deriving DecidableEq, Repr

/-- The symmetric engine after reset. -/
def SceState.reset : SceState :=
  { pipes := 0x3FF, jobs := [], streamIdle := 60, str := [], strBase := Stream.reset, aesBlocks := 0, tdesBlocks := 0,
    jobBytes := 0, tagFail := 0, dataTimeout := 0, slotRefuse := 0, mask := [], sched := [] }

/-- The digest engine (08 Table 8.15); `keys` are the key registers of its pipelines, by the tag whose job holds one
(08 R234). -/
structure DgeState where
  pipes : BitVec 8
  jobs : List Job
  keys : Tbl Bytes
  bytes : W64
  verifyFail : W64
  slotRefuse : W64
  deriving DecidableEq, Repr

/-- The digest engine after reset. -/
def DgeState.reset : DgeState := { pipes := 0xFF, jobs := [], keys := [], bytes := 0, verifyFail := 0, slotRefuse := 0 }

/-! ### The public-key engine (chapter 10) -/

/-- The states of an engine (10 Table 10.14); a test is one event here and shows no TESTING state (log 17). -/
inductive EngState where
  | idle
  | loading
  | zeroing
  | withdrawn
  deriving DecidableEq, Repr

/-- One engine. `loading` covers LOADING and RUNNING, which follow each other `loadNs` after the instant `since`
(10 R275); in ZEROING `since` is when that began. `mem` is its operand memory: 64 registers of 512 bytes, those listed
not zero (10 R271); `nominal` the nominal time of its operation; `mustTest` says that slot 0x00 comes before further work
(10 R278); `recent` are the operations signalled since its last passing test: tag and stamp (10 Table 10.5). -/
structure Eng where
  state : EngState
  tag : Nat
  tenant : Nat
  slot : Nat
  nominal : Nat
  since : Nat
  loadNs : Nat
  mem : Tbl Bytes
  ops : W64
  mustTest : Bool
  fail : Bool
  recent : List (Nat × W64)
  deriving DecidableEq, Repr

/-- An engine after reset: not in service. -/
def Eng.reset : Eng :=
  { state := .idle, tag := 0, tenant := 0, slot := 0, nominal := 0, since := 0, loadNs := 0, mem := [], ops := 0,
    mustTest := false, fail := false, recent := [] }

/-- An operation that waits for an engine: its tag, latest start on the unit's clock, program slot and nominal time, the
operands that loading brings, and the registers that loading fills from D0 with the bytes of each (10 R275, R283). -/
structure PkWait where
  tag : Nat
  late : Nat
  slot : Nat
  nominal : Nat
  mem : Tbl Bytes
  draws : List (Nat × Nat)
  deriving DecidableEq, Repr

/-- The public-key engine (10 Table 10.13). -/
structure PkeState where
  avail : W64
  eng : Tbl Eng
  queue : List PkWait
  hwm : Nat
  slotValid : W64
  ops : W64
  errRange : W64
  errPoint : W64
  late : W64
  abort : W64
  faultCheck : W64
  sel : Nat
  deriving DecidableEq, Repr

/-- The public-key engine after reset. -/
def PkeState.reset : PkeState :=
  { avail := 0, eng := [], queue := [], hwm := 0, slotValid := 0, ops := 0, errRange := 0, errPoint := 0, late := 0,
    abort := 0, faultCheck := 0, sel := 0 }

end Sys2Proof.Machine
end

