-- ==== Sys2Proof/Machine/TypesMeas.lean ====
section
/-! DEFINITION. State of the event recorder, the performance counters and the health unit (chapter 17). -/

namespace Sys2Proof.Machine

/-- The configuration of a recorder channel, staged or in force (17 R427, Table 17.8). -/
structure EvrCfg where
  source : Nat
  log : Bool
  en : Bool
  tfilt : Bool
  tenant : Nat
  base : Nat
  width : Nat
  epoch : Nat
  deriving DecidableEq, Repr

/-- A channel's configuration after reset. -/
def EvrCfg.reset : EvrCfg :=
  { source := 0, log := false, en := false, tfilt := false, tenant := 0, base := 0, width := 1, epoch := 1 }

/-- An open epoch (17 R427 to R430). `stop` is its aligned end; the last four are its flags so far. -/
structure EvrEpoch where
  start : W64
  stop : W64
  count : Nat
  sum : Nat
  min : Nat
  max : Nat
  bins : Tbl Nat
  partial_ : Bool
  saturated : Bool
  stepped : Bool
  untrusted : Bool
  deriving DecidableEq, Repr

/-- A channel: its staged and applied configurations, its open epoch, and what it sampled past that epoch's end before
its timer fires, for the epoch that follows (17 R427, R429). -/
structure EvrChan where
  staged : EvrCfg
  cfg : EvrCfg
  epoch : Option EvrEpoch
  late : Option EvrEpoch
  deriving DecidableEq, Repr

/-- A channel after reset. -/
def EvrChan.reset : EvrChan := { staged := EvrCfg.reset, cfg := EvrCfg.reset, epoch := none, late := none }

/-- The event recorder (17 Table 17.8): its control, channels, buffer and log. -/
structure EvrState where
  en : Bool
  chan : Tbl EvrChan
  sel : Nat
  buffer : List Bytes
  writing : Bool
  log : List Bytes
  full : Bool
  seq : W64
  lost : W64
  deriving DecidableEq, Repr

/-- The recorder after reset, its log empty. -/
def EvrState.reset : EvrState :=
  { en := true, chan := [], sel := 0, buffer := [], writing := false, log := [], full := false, seq := 0, lost := 0 }

/-- The performance counters (17 Table 17.9): 48-bit counters, selectors, snapshot and overflow bits. -/
structure PmcState where
  freeze : Bool
  cnt : Tbl Nat
  sel : Tbl W32
  snap : Tbl Nat
  ovf : BitVec 256
  tsel : Nat
  allow : Tbl Bool
  deriving DecidableEq, Repr

/-- The counters after reset. -/
def PmcState.reset : PmcState :=
  { freeze := false, cnt := [], sel := [], snap := [], ovf := 0, tsel := 0, allow := [] }

/-- The health unit (17 Table 17.10). `passed` holds the instant each unit of Table 17.5 last passed, counted from
`began`; `dirty` the blocks with a correctable error in the present epoch, `epochCorr` how many there were; `finished`
the instants of the completions of the last 100 ms; `scrubbed` the words of the present scrub pass; `epoch` the
present HLT epoch of 60 s (17 R441). -/
structure HltState where
  runs : W64
  fails : W64
  passed : Tbl Nat
  began : Nat
  scrubPass : W32
  scrubbed : Nat
  corr : W64
  uncorr : W64
  dirty : List Nat
  epochCorr : Nat
  seq : W64
  report : Bytes
  finished : List Nat
  epoch : Nat
  deriving DecidableEq, Repr

/-- The health unit after reset. -/
def HltState.reset : HltState :=
  { runs := 0, fails := 0, passed := [], began := 0, scrubPass := 0, scrubbed := 0, corr := 0, uncorr := 0, dirty := [],
    epochCorr := 0, seq := 0, report := zeroBytes 256, finished := [], epoch := 0 }

end Sys2Proof.Machine
end

