-- ==== Sys2Proof/Machine/State.lean ====
section
/-! DEFINITION. The state of the block: everything the spec gives the machine, and the queue of commands that wait. -/

namespace Sys2Proof.Machine

/-- Everything of the block but the queue of commands. `clk` is the unit's free-running clock in ns, `free` the place of
the next free value, `out` what the unit has driven; `tenBase` is the record of every tenant that `ten` does not list. -/
structure Mod where
  clk : Nat
  free : Nat
  out : List Output
  resets : Nat
  powered : Bool
  devReady : Bool
  blk : Tbl BlkHdr
  port : Tbl PortState
  dmaErr : W64
  acu : AcuState
  nif : NifState
  ten : Tbl TenHost
  tenBase : TenHost
  cmq : CmqState
  sch : SchState
  txp : TxpState
  sce : SceState
  dge : DgeState
  pke : PkeState
  khs : KhsState
  rng : RngState
  kch : KchState
  bsx : BsxState
  rtb : RtbState
  tim : TimState
  dcu : DcuState
  tlk : TlkState
  jnl : JnlState
  ssv : SsvState
  lcc : LccState
  sb : SbState
  evr : EvrState
  pmc : PmcState
  hlt : HltState
  dur : Durable
  deriving DecidableEq, Repr

/-- The state of the machine: the block, and the commands waiting, first in first out. -/
structure State where
  mod : Mod
  pending : List Instr
  deriving DecidableEq, Repr

/-- Why the machine stops with a fault. No meaning of this model raises one: the block answers every command with
status codes, violations and error registers, which are state. -/
inductive Fault where
  /-- Never raised (safe). -/
  | unreachable
  deriving DecidableEq, Repr

/-- Why a command has no meaning. -/
inductive Refusal where
  /-- Raised by an arm of exec for a command not yet modelled, by name (safe). -/
  | notModelled (mnemonic : String)
  deriving DecidableEq, Repr

/-- The image the unit carries at delivery (04 R120; log 8). -/
def factorySlot : ImgSlot :=
  { usable := true, version := Config.imageVersion Config.factoryImage, svn := Config.imageSvn Config.factoryImage,
    digest := [], image := Config.factoryImage }

/-- The durable state at delivery (00 R2): nothing configured. -/
def Durable.reset : Durable :=
  { ten := [], otp := [], kst := [], sched := [], bud := [], sess := [], reqids := [], dom := [], rt := [], tcfg := TimeCfg.reset,
    revertEn := false, revertHold := 60, imgA := factorySlot, imgB := ImgSlot.none, nextChal := 1,
    snaps := [] }

/-- The helper data of delivery, written when the unit left BLANK (05 R127; log 10). -/
def factoryHelper : PufHelper :=
  { offsets := (List.range 1278).map Config.helperByte
    check := (List.range 32).map (fun i => Config.helperByte (1278 + i)) }

/-- The block as delivered (00 R2): ENROLLED, unpowered, every register at its reset value (log 10). -/
def Mod.reset : Mod :=
  { clk := 0, free := 0, out := [], resets := 0, powered := false, devReady := false, blk := [], port := [], dmaErr := 0,
    acu := AcuState.reset, nif := NifState.reset, ten := [], tenBase := TenHost.reset,
    cmq := { cmds := [], hwm := 0, tsel := 0, ptr := [], nextPtr := 0, waiting := [], lastPath := 0 }, sch := SchState.reset,
    txp := TxpState.reset, sce := SceState.reset, dge := DgeState.reset,
    pke := PkeState.reset, khs := KhsState.reset, rng := RngState.reset, kch := KchState.reset, bsx := BsxState.reset,
    rtb := RtbState.reset, tim := TimState.reset, dcu := DcuState.reset, tlk := TlkState.reset, jnl := JnlState.reset,
    ssv := SsvState.reset, lcc := { LccState.reset with helper := some factoryHelper }, sb := SbState.reset,
    evr := EvrState.reset, pmc := PmcState.reset, hlt := HltState.reset,
    dur := Durable.reset }

/-- The machine right after reset: the unit as delivered, with no command waiting. -/
def State.reset : State := { mod := Mod.reset, pending := [] }

end Sys2Proof.Machine
end

