-- ==== Sys2Proof/Machine/Ops.lean ====
section
/-! DEFINITION. The named operations over the state of the block: reading and changing its tables, time, free values,
block interrupts and error records, and message-signalled interrupts. -/

namespace Sys2Proof.Machine

/-! ### Tables of the state -/

/-- The common header of a block. -/
def blkOf (m : Mod) (b : Blk) : BlkHdr := tblGet BlkHdr.reset m.blk b.idx

/-- The block with one header changed. -/
def updBlk (m : Mod) (b : Blk) (f : BlkHdr → BlkHdr) : Mod := { m with blk := tblUpd BlkHdr.reset m.blk b.idx f }

/-- A port's own registers. -/
def portOf (m : Mod) (p : Port) : PortState := tblGet PortState.reset m.port p.idx

/-- The block with one port changed. -/
def updPort (m : Mod) (p : Port) (f : PortState → PortState) : Mod :=
  { m with port := tblUpd PortState.reset m.port p.idx f }

/-- The admin queue of a port. -/
def admqOf (m : Mod) (p : Port) : AdminQ := (portOf m p).admq

/-- The block with one admin queue changed. -/
def updAdmq (m : Mod) (p : Port) (f : AdminQ → AdminQ) : Mod := updPort m p (fun s => { s with admq := f s.admq })

/-- A tenant's host-facing state. -/
def tenOf (m : Mod) (t : Nat) : TenHost := tblGet m.tenBase m.ten t

/-- The block with one tenant's host-facing state changed. -/
def updTen (m : Mod) (t : Nat) (f : TenHost → TenHost) : Mod := { m with ten := tblUpd m.tenBase m.ten t f }

/-- A queue pair. -/
def qpOf (m : Mod) (t q : Nat) : QPair := tblGet QPair.reset (tenOf m t).qp q

/-- The block with one queue pair changed. -/
def updQp (m : Mod) (t q : Nat) (f : QPair → QPair) : Mod :=
  updTen m t (fun h => { h with qp := tblUpd QPair.reset h.qp q f })

/-- The block with one direct FIFO changed. -/
def updFifo (m : Mod) (t : Nat) (f : Fifo → Fifo) : Mod := updTen m t (fun h => { h with fifo := f h.fifo })

/-- A command that holds a tag. -/
def cmdOf (m : Mod) (tag : Nat) : Option Cmd := tblFind m.cmq.cmds tag

/-- The block with a command placed at a tag. -/
def setCmd (m : Mod) (tag : Nat) (c : Cmd) : Mod := { m with cmq := { m.cmq with cmds := tblSet m.cmq.cmds tag c } }

/-- The block with the command at a tag changed, where the tag is held. -/
def updCmd (m : Mod) (tag : Nat) (f : Cmd → Cmd) : Mod :=
  match cmdOf m tag with
  | none => m
  | some c => setCmd m tag (f c)

/-- The block with a tag free. -/
def dropCmd (m : Mod) (tag : Nat) : Mod :=
  { m with cmq := { m.cmq with cmds := tblErase m.cmq.cmds tag, waiting := m.cmq.waiting.erase tag } }

/-- Tags in use (03 Table 3.17, CMQ_TAG_USED). -/
def tagsUsed (m : Mod) : Nat := m.cmq.cmds.length

/-- Tags a tenant holds on its own paths (04 R105). -/
def tagsOf (m : Mod) (t : Nat) : Nat := m.cmq.cmds.countP (fun p => !p.2.admin && p.2.tenant == t)

/-- The lowest tag number that is free. -/
def freeTag (m : Mod) : Nat :=
  ((List.range (m.cmq.cmds.length + 1)).find? (fun n => (cmdOf m n).isNone)).getD m.cmq.cmds.length

/-- Tags kept for a tenant's own paths: one for each entry or capsule being read and for a command its FIFO may hand
over (04 R106). -/
def keptOf (h : TenHost) : Nat := h.qp.countP (fun p => p.2.reading.isSome) + (if h.fifo.granted then 1 else 0)

/-- Capsules of a tenant's entries on their way in, each of which will need a tag. -/
def readsOf (m : Mod) (t : Nat) : Nat :=
  m.cmq.ptr.countP (fun p => match p.2.q with | .qp t' _ => t' == t | .admin _ => false) + keptOf (tenOf m t)

/-- Tags kept for entries on their way in, device-wide. -/
def tagsKept (m : Mod) : Nat :=
  m.cmq.ptr.length + m.ten.foldl (fun n p => n + keptOf p.2) 0 +
    m.port.countP (fun p => p.2.admq.reading.isSome)

/-- Whether a device tag is free beside those kept (03 R81). -/
def tagPoolFree (m : Mod) : Bool := decide (tagsUsed m + tagsKept m < 16384)

/-- Whether a tenant path can be given a tag (03 R81, R25): the device pool, the tenant's cap and its parked buffers. -/
def tagFree (m : Mod) (t : Nat) : Bool :=
  tagPoolFree m && decide (tagsOf m t + readsOf m t < (tenOf m t).cap ∧ (tenOf m t).parked.length < 256)

/-- A tenant's durable record. -/
def tenantIn (d : Durable) (t : Nat) : Tenant := tblGet Tenant.none d.ten t

/-- A tenant's durable record as committed. -/
def tenantOf (m : Mod) (t : Nat) : Tenant := tenantIn m.dur t

/-- Whether a tenant's epoch counter stands above its record: its TRK blob, bound to the record's epoch, is refused as
rolled back, and the tenant is not served until its record comes anew from the twin (05 R138, R140, Table 5.3). -/
def rolledBackIn (d : Durable) (t : Nat) : Bool :=
  (tenantIn d t).state != .closed && decide ((tenantIn d t).epoch < tblGet 0 d.otp t)
def rolledBack (m : Mod) (t : Nat) : Bool := rolledBackIn m.dur t

/-- The durable state with one tenant's record changed. -/
def updTenant (d : Durable) (t : Nat) (f : Tenant → Tenant) : Durable := { d with ten := tblUpd Tenant.none d.ten t f }

/-- The key state entry of a handle. -/
def kstIn (d : Durable) (h : W64) : Option KstEntry := tblFind d.kst h.toNat

/-- A custodian domain. -/
def domainIn (d : Durable) (k : Nat) : Domain := tblGet Domain.none d.dom k

/-- A tenant's routes. -/
def routesIn (d : Durable) (t : Nat) : Routes := tblGet Routes.none d.rt t

/-- A session as the unit holds it. -/
def sessOf (m : Mod) (t id : Nat) : Option Session := tblFind m.dur.sess (sessKey t id)

/-- The block with a session placed. -/
def setSess (m : Mod) (t id : Nat) (s : Session) : Mod :=
  { m with dur := { m.dur with sess := tblSet m.dur.sess (sessKey t id) s } }

/-- The device domain's number among the custodian domains and request-ID keys (11 R298, 01 R29). -/
def deviceDomain : Nat := 4096

/-! ### Time -/

/-- Nanoseconds in a second. -/
def nsPerS : Nat := 1000000000

/-- A TIME64 stamp of an instant in ns since the epoch: 34 bits of seconds, ns in steps of 4 (00 R13, R14). -/
def t64Of (ns : Nat) : W64 := BitVec.ofNat 64 (ns / nsPerS * 2 ^ 30 + ns % nsPerS / 4 * 4)

/-- The instant a TIME64 value names, in ns since the epoch. -/
def nsOf (t : W64) : Nat := t.toNat / 2 ^ 30 * nsPerS + t.toNat % 2 ^ 30

/-- Whether a TIME64 value is well formed: ns at most 999,999,999 (00 R13). -/
def t64Ok (t : W64) : Bool := decide (t.toNat % 2 ^ 30 ≤ 999999999)

/-- A TIME64 value accepted from outside: ns cut to a multiple of 4 (00 R14). -/
def t64Trunc (t : W64) : W64 := t &&& 0xFFFFFFFFFFFFFFFC#64

/-- An end instant `s + d` with `d` in ns (13 R351). -/
def t64Add (s : W64) (d : Nat) : W64 :=
  let n := nsOf s + d
  BitVec.ofNat 64 (n / nsPerS * 2 ^ 30 + n % nsPerS)

/-- What a slew has removed by now: its rate in parts of 10^12 never passes 50 ppm, so stamps stay monotonic (13 R354). -/
def slewDone (m : Mod) : Int :=
  match m.tim.slew with
  | none => 0
  | some (s, amt, rate) =>
    let d := min amt.natAbs ((m.clk - s) * rate / 1000000000000)
    if amt < 0 then -(d : Int) else d

/-- External time of the unit, in ns since the epoch. -/
def extNs (m : Mod) : Nat := ((m.clk : Int) + m.tim.offset + slewDone m).toNat

/-- The stamp of the present instant (13 R350). -/
def nowT (m : Mod) : W64 := t64Of (extNs m)

/-- The present instant as a stamp. -/
def stampNow (m : Mod) : Stamp := { time := nowT m, clk := m.clk }

/-- Whether time is trusted at a stamp (13 R352, R353). -/
def trustedAt (m : Mod) (s : W64) : Bool :=
  match m.tim.trust.find? (fun p => decide (p.1.toNat ≤ s.toNat)) with
  | none => false
  | some p => p.2

/-- Whether time is trusted now. -/
def trustedNow (m : Mod) : Bool := trustedAt m (nowT m)

/-- Whether a half-open window [s, e) holds a stamp (13 R351). -/
def inWindow (s e t : W64) : Bool := decide (s.toNat ≤ t.toNat ∧ t.toNat < e.toNat)

/-! ### Free values -/

/-- `n` bytes from a generator: fresh free values (05 R161; log 5). -/
def freeBytesAt (k n : Nat) : Bytes := (List.range n).map (fun i => Config.freeByte (k + i))

/-- The bytes a draw of `n` gives now. -/
def drawn (m : Mod) (n : Nat) : Bytes := freeBytesAt m.free n

/-- The block after `n` bytes came from a generator, counted in RNG_GEN_BYTES (05 Table 5.14). -/
def countDraw (m : Mod) (n : Nat) : Mod :=
  { m with free := m.free + n, rng := { m.rng with genBytes := m.rng.genBytes + BitVec.ofNat 64 n } }

/-- Whether a generator reseeds before its next request: 2^20 requests or 1 s after the last, while a source passes
(05 R161). -/
def reseedDue (m : Mod) (d : Drbg) : Bool :=
  (m.rng.es1.ok || m.rng.es2.ok) && (decide (2 ^ 20 ≤ d.requests) || decide (d.since + nsPerS ≤ m.clk))

/-- A generator reseeded. -/
def Drbg.fresh (d : Drbg) (now : Nat) : Drbg := { d with requests := 0, since := now }

/-- D0 reseeded, and D1. -/
def reseedD0 (m : Mod) : Mod :=
  { m with rng := { m.rng with reseeds := m.rng.reseeds + 1, d0 := m.rng.d0.fresh m.clk } }
def reseedD1 (m : Mod) : Mod :=
  { m with rng := { m.rng with reseeds := m.rng.reseeds + 1, d1 := m.rng.d1.fresh m.clk } }

/-- The block after a draw of `n` bytes from D0. -/
def afterDraw (m : Mod) (n : Nat) : Mod :=
  let m1 := countDraw (if reseedDue m m.rng.d0 then reseedD0 m else m) n
  { m1 with rng := { m1.rng with d0 := { m1.rng.d0 with requests := m1.rng.d0.requests + 1 } } }

/-- The same with prediction resistance: fresh entropy first (05 R161: the ESH, a TRK, an asymmetric private key). -/
def afterFreshDraw (m : Mod) (n : Nat) : Mod := afterDraw (reseedD0 m) n

/-- The block after a draw of `n` bytes from D1. -/
def afterD1 (m : Mod) (n : Nat) : Mod :=
  let m1 := countDraw (if reseedDue m m.rng.d1 then reseedD1 m else m) n
  { m1 with rng := { m1.rng with d1 := { m1.rng.d1 with requests := m1.rng.d1.requests + 1 } } }

/-- A free choice the spec leaves open, and the counter moved past it. -/
def choice (m : Mod) : Nat := Config.freeNat m.free

/-- The block after a free choice. -/
def afterChoice (m : Mod) : Mod := { m with free := m.free + 1 }

/-- Whether the key state table is 90 % full or more (05 R150). -/
def kstHigh (m : Mod) : Bool := decide (33554432 * 9 ≤ m.dur.kst.length * 10)

/-! ### Outputs -/

/-- The block having driven one more output. -/
def emit (m : Mod) (o : Output) : Mod := { m with out := m.out ++ [o] }

/-- The block having driven several outputs in order. -/
def emitAll (m : Mod) (o : List Output) : Mod := { m with out := m.out ++ o }

/-! ### Interrupts -/

/-- Whether a port has its link. -/
def portUp (m : Mod) (p : Port) : Bool := (portOf m p).linkUp

/-- A message leaves as a posted write; through a port without link it queues there (01 Table 1.3). -/
def postMsg (m : Mod) (p : Port) (x : MsixMsg) : Mod :=
  if portUp m p then emit m (.msix p x.vf x.vector x.addr x.data)
  else updPort m p (fun s => { s with posted := s.posted ++ [x] })

/-- A PF vector of a port is signalled: a message, or its pending bit while the entry is masked (02 R50). -/
def msixPf (m : Mod) (p : Port) (v : Nat) : Mod :=
  let e := tblGet MsixEntry.reset (portOf m p).msix v
  if e.ctl.getLsbD 0 then updPort m p (fun s => { s with pba := tblSet s.pba v true })
  else postMsg m p { vf := 0, vector := v, addr := e.addr, data := e.data }

/-- A vector of a VF is signalled. -/
def msixVf (m : Mod) (p : Port) (vf v : Nat) : Mod :=
  let e := tblGet MsixEntry.reset (portOf m p).vfMsix (vf * 8 + v)
  if e.ctl.getLsbD 0 then updPort m p (fun s => { s with vfPba := tblSet s.vfPba (vf * 8 + v) true })
  else postMsg m p { vf := vf, vector := v, addr := e.addr, data := e.data }

/-- Whether a block's interrupt is pending (02 R39). -/
def blkPending (h : BlkHdr) : Bool := !(h.intStat &&& h.intEn == 0)

/-- A block's vector is signalled on each port that enables it (02 Table 2.11). -/
def signalBlk (m : Mod) (b : Blk) : Mod :=
  let one := fun (m : Mod) (p : Port) => if (portOf m p).intEn.getLsbD b.idx then msixPf m p (2 + b.idx) else m
  one (one m .a) .b

/-- A block's header changed, its vector signalled when the pending condition becomes true (02 R39). -/
def withPending (m : Mod) (b : Blk) (f : BlkHdr → BlkHdr) : Mod :=
  let old := blkPending (blkOf m b)
  let m' := updBlk m b f
  if !old && blkPending (blkOf m' b) then signalBlk m' b else m'

/-- INT_STAT bits of a block are set by hardware. -/
def raiseInt (m : Mod) (b : Blk) (bits : W32) : Mod :=
  withPending m b (fun h => { h with intStat := h.intStat ||| bits })

/-- The error record after an error: captured when nothing is held, otherwise counted in MORE (02 R38). -/
def captureErr (h : BlkHdr) (bit code : Nat) (addr : W64) : BlkHdr :=
  if h.errCode &&& 0xFFFF#32 = 0 then
    { h with errCode := BitVec.ofNat 32 (bit * 2 ^ 16 + code), errAddr := addr }
  else if h.errCode &&& 0xFF000000#32 = 0xFF000000#32 then h
  else { h with errCode := h.errCode + 0x01000000#32 }

/-- A block detects an error: its INT_STAT bit is set and the error captured (02 R38). -/
def raiseErr (m : Mod) (b : Blk) (bit code : Nat) (addr : W64) : Mod :=
  raiseInt (updBlk m b (fun h => captureErr h bit code addr)) b (BitVec.ofNat 32 (2 ^ bit))

/-- A block's health grade is at least `g` (02 Table 2.4). -/
def healthAtLeast (m : Mod) (b : Blk) (g : Nat) : Mod :=
  updBlk m b (fun h => { h with health := max h.health g, fault := h.fault || decide (3 ≤ max h.health g) })

/-- Whether a block serves: enabled and not quiescing (02 R36). -/
def blkServes (m : Mod) (b : Blk) : Bool := (blkOf m b).ctl.getLsbD 0 && !(blkOf m b).ctl.getLsbD 1

/-! ### Tenant interrupt sources -/

/-- How a tenant's window is reached on a port (02 R46). -/
inductive Reach where
  | vf (n : Nat)
  | bar2
  | none
  deriving DecidableEq, Repr

/-- The one path to a tenant's window on a port. -/
def reachOf (m : Mod) (t : Nat) (p : Port) : Reach :=
  let h := tenOf m t
  let vf := match p with | .a => h.vfA | .b => h.vfB
  if vf ≠ 0 then .vf vf else if (portOf m p).bar2En then .bar2 else .none

/-- Whether a tenant is attached through a port (03 R96). -/
def attached (m : Mod) (t : Nat) (p : Port) : Bool :=
  match p with
  | .a => (tenOf m t).attA
  | .b => (tenOf m t).attB

/-- A tenant source is signalled on a port, through its VF or through the PF vector of CMQ_TVEC (02 R485). -/
def signalOn (m : Mod) (t : Nat) (p : Port) (src : Nat) : Mod :=
  match reachOf m t p with
  | .vf n => msixVf m p n src
  | .bar2 => let v := (tenOf m t).tvec; if v / 256 % 2 = 1 then msixPf m p (v % 256) else m
  | .none => m

/-- A tenant source 5 or 6 is signalled on every port through which the tenant is attached and reachable. -/
def signalBoth (m : Mod) (t : Nat) (src : Nat) : Mod :=
  let one := fun (m : Mod) (p : Port) => if attached m t p then signalOn m t p src else m
  one (one m .a) .b

/-- TEN_INT_STAT bits of a tenant are set (02 R485, 03 Table 3.13). -/
def raiseTen (m : Mod) (t : Nat) (bits : BitVec 6) : Mod :=
  let old := (tenOf m t).intStat &&& (tenOf m t).intEn
  let m' := updTen m t (fun h => { h with intStat := h.intStat ||| bits })
  let new := (tenOf m' t).intStat &&& (tenOf m' t).intEn
  if old = 0 ∧ new ≠ 0 then signalBoth m' t 5 else m'

/-- STATE_CHANGE follows a change of a tenant's state or policy (03 Table 3.13). -/
def noteTenant (old new : Tenant) (t : Nat) (m : Mod) : Mod :=
  if old.state = new.state ∧ old.openCaps = new.openCaps then m else raiseTen m t 0x20

/-! ### Reads of host memory -/

/-- The completion timeout of a host read, in ns (03 R486). -/
def readLimit : Nat := 50000

/-- Whether a read issued at an instant has passed its completion timeout. -/
def readLate (m : Mod) (issued : Nat) : Bool := decide (issued + readLimit ≤ m.clk)

/-! ### Status of the unit -/

/-- DEV_STAT.ERASED: the unit is in ERASED or ERASED_HOLD (02 Table 2.9, 15 Table 15.5). -/
def isErased (m : Mod) : Bool := m.ssv.tamper != .normal

/-- The decoded life-cycle state; 0 before the decode (02 Table 2.9, 16 R412). -/
def lcState (m : Mod) : Nat := m.lcc.decoded.getD 0

/-- An object sealed under the DSK: the store holds objects of the present life-cycle state and ESC (05 R131, 19 R472). -/
def noteSealed (m : Mod) : Mod :=
  if m.khs.dsk.isSome then { m with jnl := { m.jnl with sealedIn := some (lcState m, m.khs.esc.getD []) } } else m

/-- Whether a path of the twin is silent: 0 link X, 1 link Y, 2 the wire (14 R369). -/
def pathSilent (m : Mod) (path : Nat) : Bool := tblGet true m.tlk.silent path

/-- Whether some path is silent while the twin is heard on another. -/
def degradedNow (m : Mod) : Bool :=
  m.tlk.paired && (pathSilent m 0 || pathSilent m 1 || pathSilent m 2) &&
    !(pathSilent m 0 && pathSilent m 1 && pathSilent m 2)

/-- DEV_STAT.PAIR_DEGRADED (14 R369); it holds its last value during a promotion (R371). -/
def pairDegraded (m : Mod) : Bool := m.tlk.held.elim (degradedNow m) (fun h => h.2)

/-- DEV_STAT (02 Table 2.9). -/
def devStat (m : Mod) : W32 :=
  BitVec.ofNat 32 (lcState m * 2 ^ 8 + (if trustedNow m then 2 ^ 5 else 0) + (if isErased m then 2 ^ 4 else 0) +
    (if pairDegraded m then 2 ^ 3 else 0) + (if m.tlk.sync then 2 ^ 2 else 0) +
    (if m.tlk.role = .windward then 2 else 0) + (if m.devReady then 1 else 0))

/-- SERVE_OK, the service gate (14 R368): READY, no Squall and no erased state, no flush-only mode, progress made, and
nothing that shuts it until the next start. -/
def serveOk (m : Mod) : Bool :=
  m.powered && m.devReady && m.ssv.tamper == .normal && !m.jnl.flushing && !m.tlk.stalled && !m.tlk.shut

/-- Whether the unit takes commands in: not while the gate is shut by flush-only mode, lack of progress or a coming
reset (14 R368). A unit that is not READY, or erased, answers with the status of step 1 (03 Table 3.2). Nor during the
hold-off of a promotion (R371). -/
def admits (m : Mod) : Bool := m.powered && m.tlk.promoting.isNone && !m.jnl.flushing && !m.tlk.stalled && !m.tlk.shut

/-- Whether the unit serves tenants: UNPAIRED or WINDWARD (14 R360). -/
def serving (m : Mod) : Bool := m.tlk.role = .unpaired || m.tlk.role = .windward

/-- Tenants' STATE_CHANGE set for every tenant, listed or not (03 Table 3.13: TEN_STATE shows READY, WINDWARD and
TIME_TRUSTED too). -/
def stateChangeAll (m : Mod) : Mod :=
  let m1 := { m with tenBase := { m.tenBase with intStat := m.tenBase.intStat ||| 0x20 } }
  (m.ten.map Prod.fst).foldl (fun m t => raiseTen m t 0x20) m1

/-- What follows from a change of DEV_STAT between two moments: vector 1 on both ports at a change of [5:0] (02 Table
2.11), STATE_CHANGE of every tenant at a change of READY, WINDWARD or TIME_TRUSTED. -/
def noteDevStat (old : W32) (m : Mod) : Mod :=
  let new := devStat m
  let m1 := if old &&& 0x3F = new &&& 0x3F then m else msixPf (msixPf m .a 1) .b 1
  if old &&& 0x23 = new &&& 0x23 then m1 else stateChangeAll m1

/-- The highest health grade of the unit's blocks (14 R369). -/
def topHealth (m : Mod) : Nat := m.blk.foldl (fun a p => max a p.2.health) 0

/-- The status outputs: ROLE and HEALTH driven low, ALARM_N asserted (14 R372, 15 R393, 18 Table 18.9). -/
def statusPins (m : Mod) : List (String × Bool) :=
  [("ROLE", serveOk m && m.tlk.role == .windward),
   ("HEALTH", m.powered && m.jnl.boot.getLsbD 0 && decide (topHealth m ≤ 1)),
   ("ALARM_N", m.powered && m.ssv.power == .main && (m.ssv.latch != 0 || isErased m))]

/-- Status outputs that changed between two moments are driven. -/
def notePins (old : List (String × Bool)) (m : Mod) : Mod :=
  emitAll m (((statusPins m).filter (fun p => !old.contains p)).map (fun p => .pin p.1 p.2))

end Sys2Proof.Machine
end

