-- ==== Sys2Proof/Machine/Measure.lean ====
section
/-! DEFINITION. What the performance counters and the event recorder see of each event, and what passing time adds to
them (17 R427, R428, R434 to R437). -/

namespace Sys2Proof.Machine

/-! ### Performance counters -/

/-- Fields of a selector (17 Table 17.9). -/
def pselEvent (v : W32) : Nat := (v.extractLsb' 0 16).toNat
def pselTenant (v : W32) : Nat := (v.extractLsb' 16 12).toNat
def pselFilt (v : W32) : Bool := v.getLsbD 28
def pselChain (v : W32) : Bool := v.getLsbD 29
def pselEn (v : W32) : Bool := v.getLsbD 30

/-- A counter's selector. -/
def pmcSel (m : Mod) (n : Nat) : W32 := tblGet 0 m.pmc.sel n

/-- Whether a counter is the odd one of a pair (17 R437). -/
def pmcChained (m : Mod) (n : Nat) : Bool := n % 2 == 1 && pselChain (pmcSel m n)

/-- A counter's overflow bit set (17 R437). -/
def pmcOver (m : Mod) (n : Nat) : Mod :=
  raiseInt { m with pmc := { m.pmc with ovf := m.pmc.ovf ||| BitVec.ofNat 256 (2 ^ n) } } .pmc 1

/-- A counter moved on by a number of events, without its neighbour: the block, and how often it passed its maximum. -/
def pmcAdd (m : Mod) (n k : Nat) : Mod × Nat :=
  let x := tblGet 0 m.pmc.cnt n + k
  ({ m with pmc := { m.pmc with cnt := tblSet m.pmc.cnt n (x % 2 ^ 48) } }, x / 2 ^ 48)

/-- A counter counts events; its chained neighbour counts its wraps (17 R437; an odd counter counts while enabled). -/
def pmcCount (m : Mod) (n k : Nat) : Mod :=
  let (m1, w) := pmcAdd m n k
  if w = 0 then m1
  else if n % 2 = 0 ∧ pmcChained m (n + 1) then
    if pselEn (pmcSel m (n + 1)) then
      let (m2, v) := pmcAdd m1 (n + 1) w
      if v = 0 then m2 else pmcOver m2 (n + 1)
    else m1
  else pmcOver m1 n

/-- The counters that count an event, of a tenant or of none (17 R436). -/
def pmcTakers (m : Mod) (code : Nat) (ten : Option Nat) : List Nat :=
  m.pmc.sel.filterMap (fun p =>
    if pselEn p.2 && !pmcChained m p.1 && pselEvent p.2 == code && (!pselFilt p.2 || ten == some (pselTenant p.2))
    then some p.1 else none)

/-- An event counted, while the counters serve (17 R434, 02 R36; log 41). -/
def pmcEvent (m : Mod) (code : Nat) (ten : Option Nat) : Mod :=
  if m.pmc.freeze || !blkServes m .pmc then m else (pmcTakers m code ten).foldl (fun m n => pmcCount m n 1) m

/-! ### Slots and clocks (17 R435, Table 17.4) -/

/-- 800 MHz clocks from one instant to another. -/
def clocksFrom (a b : Nat) : Nat := b * 4 / 5 - a * 4 / 5

/-- Slots of a family of Table 17.4 in one 800 MHz clock; cores, pipelines and engines run at
1.6 GHz (08 R212, 10; the digest pipelines PRESUMED so, log 41). -/
def slotsPer (fam : Nat) : Nat :=
  match fam with
  | 1 => 512
  | 2 => 16
  | 3 => 4
  | 4 => 16
  | 5 => 128
  | 6 => 1
  | _ => 0

/-- How the slots of a family fall into the classes of R435: the split is the work's, free here, its sum is not
(DESIGN CHOICE, log 41). -/
def slotShare (pick : Nat → Nat) (total cls : Nat) : Nat :=
  let a := pick 0 % (total + 1)
  let b := pick 1 % (total - a + 1)
  let c := pick 2 % (total - a - b + 1)
  match cls with
  | 0 => a
  | 1 => b
  | 2 => total - a - b - c
  | _ => c

/-- Events a counter sees while time passes with nothing happening: clocks, and slots by class. The part of one tenant
is free; idle slots belong to none. -/
def idleEvents (m : Mod) (clocks : Nat) (n : Nat) (v : W32) : Nat :=
  let e := pselEvent v
  let fam := e / 256
  let cls := e % 256
  if e = 0x2000 then (if pselFilt v then 0 else clocks)
  else if cls ≤ 3 ∧ 1 ≤ fam ∧ fam ≤ 6 then
    let x := slotShare (fun i => Config.freeNat (m.free + 4 * fam + i)) (slotsPer fam * clocks) cls
    if pselFilt v then (if cls = 2 then 0 else Config.freeNat (m.free + 32 + n) % (x + 1)) else x
  else 0

/-- The counters after time has passed. -/
def pmcAdvance (m : Mod) (a b : Nat) : Mod :=
  if m.pmc.freeze || m.pmc.sel.isEmpty || !blkServes m .pmc then m
  else
    let c := clocksFrom a b
    let m1 := m.pmc.sel.foldl (fun m p =>
      if pselEn p.2 && !pmcChained m p.1 then
        let k := idleEvents m c p.1 p.2
        if k = 0 then m else pmcCount m p.1 k
      else m) m
    { m1 with free := m1.free + 288 }

/-! ### The event recorder -/

/-- The bin of a sample (17 R428). -/
def binOf (c : EvrCfg) (v : Nat) : Nat :=
  if v < c.base then 0
  else if c.log then min 31 ((List.range 33).countP (fun i => decide (c.base * 2 ^ i ≤ v)))
  else min 31 ((v - c.base) / c.width)

/-- A number held below its maximum. -/
def satAdd (bits a b : Nat) : Nat := min (2 ^ bits - 1) (a + b)

/-- An open epoch after `n` samples of one value. -/
def epochSample (c : EvrCfg) (e : EvrEpoch) (v n : Nat) : EvrEpoch :=
  let b := binOf c v
  let held := tblGet 0 e.bins b
  { e with
    count := e.count + n
    sum := satAdd 64 e.sum (n * v)
    min := min e.min v
    max := max e.max v
    bins := tblSet e.bins b (satAdd 32 held n)
    saturated := e.saturated || decide (2 ^ 32 ≤ held + n) || decide (2 ^ 64 ≤ e.sum + n * v) }

/-- An epoch that begins at an instant, its end aligned to its length in seconds (17 R429, R430). -/
def freshEpoch (m : Mod) (len : Nat) (start : W64) : EvrEpoch :=
  let l := max 1 len
  let k := nsOf start / nsPerS / l
  { start := start, stop := BitVec.ofNat 64 ((k + 1) * l * 2 ^ 30), count := 0, sum := 0, min := 0xFFFFFFFF, max := 0,
    bins := [], partial_ := nsOf start != k * l * nsPerS, saturated := false, stepped := false,
    untrusted := !trustedNow m }

/-- The epoch after one that ended: the one that follows it, or that of the present where more have passed. -/
def epochAfter (m : Mod) (c : EvrCfg) (e : EvrEpoch) : EvrEpoch :=
  let next := t64Add e.stop (max 1 c.epoch * nsPerS)
  freshEpoch m c.epoch (if (nowT m).toNat < next.toNat then e.stop else nowT m)

/-- A channel's samples of one value: `n` inside its open epoch, `k` past its end. -/
def chanSample (m : Mod) (ch : EvrChan) (v n k : Nat) : EvrChan :=
  match ch.epoch with
  | none => ch
  | some e =>
    let e1 := if n = 0 then e else epochSample ch.cfg e v n
    let l := if k = 0 then ch.late else some (epochSample ch.cfg (ch.late.getD (epochAfter m ch.cfg e)) v k)
    { ch with epoch := some e1, late := l }

/-- Samples of a source, attributed to a tenant or to none, in every channel that takes them (17 R427, R428); `split`
tells how many fall inside an epoch, and how many past its end. -/
def evrSamples (m : Mod) (src : Nat) (ten : Option Nat) (v : Nat) (split : EvrEpoch → Nat × Nat) : Mod :=
  if m.evr.chan.isEmpty || !blkServes m .evr then m
  else
    let x := min v 0xFFFFFFFF
    let step := fun (_ : Nat) (ch : EvrChan) =>
      if ch.cfg.source == src && (!ch.cfg.tfilt || ten == some ch.cfg.tenant) then
        let n := ch.epoch.elim (0, 0) split
        chanSample m ch x n.1 n.2
      else ch
    { m with evr := { m.evr with chan := tblMap m.evr.chan step } }

/-- One sample, at the present stamp. -/
def evrSample (m : Mod) (src : Nat) (ten : Option Nat) (v : Nat) : Mod :=
  evrSamples m src ten v (fun e => if e.stop.toNat ≤ (nowT m).toNat then (0, 1) else (1, 0))

/-- How many whole periods of the unit's clock begin from one instant up to another. -/
def ticksFrom (period a b : Nat) : Nat := (b + period - 1) / period - (a + period - 1) / period

/-- The samples of a period that fall before the end of an epoch and after it, while the clock goes from `a` to `b`. -/
def splitTicks (m : Mod) (period a b : Nat) (e : EvrEpoch) : Nat × Nat :=
  let c := max a (min b (a + (nsOf e.stop - extNs m)))
  (ticksFrom period a c, ticksFrom period c b)

/-- The periodic samples taken while time passes (17 Table 17.1). -/
def evrAdvance (m : Mod) (a b : Nat) : Mod :=
  let ms := splitTicks m 1000000 a b
  let m1 := evrSamples m 0x0020 none m.pke.queue.length ms
  let m2 := evrSamples m1 0x0021 none (tagsUsed m) ms
  let m3 := evrSamples m2 0x0040 none (m.ssv.tempA.toInt + 1024).toNat (splitTicks m nsPerS a b)
  evrSamples m3 0x0041 none m.sb.vin.toNat ms

/-- Every open epoch marked UNTRUSTED (17 R429). -/
def evrUntrusted (m : Mod) : Mod :=
  { m with evr := { m.evr with chan := tblMap m.evr.chan (fun _ c =>
    { c with
      epoch := c.epoch.map (fun e => { e with untrusted := true })
      late := c.late.map (fun e => { e with untrusted := true }) }) } }

/-- Open epochs marked where time is not trusted now. -/
def noteTrust (m : Mod) : Mod := if trustedNow m then m else evrUntrusted m

/-- Time passes up to an instant: the clock never runs back (log 1). -/
def advance (t : Nat) (m : Mod) : Mod :=
  let m1 := if m.powered ∧ m.clk < t then evrAdvance (pmcAdvance m m.clk t) m.clk t else m
  noteTrust { m1 with clk := max m.clk t }

/-- One command's effect at an instant: time passes, then the effect, and what a change of DEV_STAT and of the status
outputs brings with it. -/
def atInstant (t : Nat) (f : Mod → Mod) (m : Mod) : Mod :=
  noteTrust (notePins (statusPins m) (noteDevStat (devStat m) (f (advance t m))))

end Sys2Proof.Machine
end

