-- ==== Sys2Proof/Machine/Aes.lean ====
section
/-! DEFINITION. The AES block cipher (FIPS 197), which the spec names for the data plane, wraps, counters and records
(08 R212, 05 R143, 05 R145). PRESUMED: the cipher itself is the published standard's (log 6). -/

namespace Sys2Proof.Machine

/-- The AES substitution table (FIPS 197) as one number: entry `i` is its byte `i`, least significant first. -/
def aesSbox : Nat :=
  0xc072a49cafa2d4adf04759fa7dc982ca76abd7fe2b670130c56f6bf27b777c63 * 2 ^ 0 +
  0x75b227ebe28012079a059618c323c7041531d871f1e5a534ccf73f362693fdb7 * 2 ^ 256 +
  0xcf584c4a39becb6a5bb1fc20ed00d153842fe329b3d63b52a05a6e1b1a2c8309 * 2 ^ 512 +
  0xd2f3ff1021dab6bcf5389d928f40a351a89f3c507f02f94585334d43fbaaefd0 * 2 ^ 768 +
  0xdb0b5ede14b8ee4688902a22dc4f816073195d643d7ea7c41744975fec130ccd * 2 ^ 1024 +
  0x08ae7a65eaf4566ca94ed58d6d37c8e779e4959162acd3c25c2406490a3a32e0 * 2 ^ 1280 +
  0x9e1dc186b95735610ef6034866b53e708a8bbd4b1f74dde8c6b4a61c2e2578ba * 2 ^ 1536 +
  0x16bb54b00f2d99416842e6bf0d89a18cdf2855cee9871e9b948ed9691198f8e1 * 2 ^ 1792

/-- The inverse AES substitution table, laid out as `aesSbox`. -/
def aesInvSbox : Nat :=
  0xcbe9dec444438e3487ff2f9b8239e37cfbd7f3819ea340bf38a53630d56a0952 * 2 ^ 0 +
  0x25d18b6d49a25b76b224d92866a12e084ec3fa420b954cee3d23c2a632947b54 * 2 ^ 256 +
  0x849d8da75746155edab9edfd5048706c92b6655dcc5ca4d41698688664f6f872 * 2 ^ 512 +
  0x6b8a130103bdafc1020f3fca8f1e2cd00645b3b80558e4f70ad3bc8c00abd890 * 2 ^ 768 +
  0x6edf751ce837f9e28535ade72274ac9673e6b4f0cecff297eadc674f4111913a * 2 ^ 1024 +
  0xf45acd78fec0db9a2079d2c64b3e56fc1bbe18aa0e62b76f89c5291d711af147 * 2 ^ 1280 +
  0xef9cc9939f7ae52d0d4ab519a97f51605fec8027591012b131c7078833a8dd1f * 2 ^ 1536 +
  0x7d0c2155631469e126d677ba7e042b17619953833cbbebc8b0f52aae4d3be0a0 * 2 ^ 1792

/-- One byte of a table held as a number. -/
def tabByte (tab : Nat) (i : Nat) : Byte := BitVec.ofNat 8 (tab >>> (8 * i))

/-- SubBytes on one byte. -/
def aesSub (b : Byte) : Byte := tabByte aesSbox b.toNat

/-- InvSubBytes on one byte. -/
def aesInvSub (b : Byte) : Byte := tabByte aesInvSbox b.toNat

/-- Multiplication by x in the field of AES. -/
def xtime (b : Byte) : Byte := (b <<< 1) ^^^ (if b.msb then 0x1b else 0)

/-- Multiplication in the field of AES by a constant below 16. -/
def aesMul (k : Nat) (b : Byte) : Byte :=
  let b2 := xtime b
  let b4 := xtime b2
  let b8 := xtime b4
  (if k.testBit 0 then b else 0) ^^^ (if k.testBit 1 then b2 else 0) ^^^
    (if k.testBit 2 then b4 else 0) ^^^ (if k.testBit 3 then b8 else 0)

/-- The expanded key, newest word first: `n` more words after those in `acc`. -/
def aesExpandAux (nk : Nat) : Nat → Nat → Byte → List Bytes → List Bytes
  | 0, _, _, acc => acc
  | n + 1, i, rcon, acc =>
    let prev := acc.headD []
    let back := acc.getD (nk - 1) []
    let first := i % nk = 0
    let tmp :=
      if first then xorBytes ((prev.drop 1 ++ prev.take 1).map aesSub) [rcon, 0, 0, 0]
      else if nk > 6 ∧ i % nk = 4 then prev.map aesSub else prev
    aesExpandAux nk n (i + 1) (if first then xtime rcon else rcon) (xorBytes back tmp :: acc)

/-- The round keys of a 16, 24 or 32 byte key, 16 bytes each. -/
def aesRoundKeys (key : Bytes) : List Bytes :=
  let nk := key.length / 4
  let total := 4 * (nk + 7)
  let words := (aesExpandAux nk (total - nk) nk 1 (chunks 4 key).reverse).reverse
  (chunks 4 words).map List.flatten

/-- The bytes of a block picked by a list of positions. -/
def permuteBytes (p : List Nat) (b : Bytes) : Bytes := p.map (fun i => b.getD i 0)

/-- Where each byte of a block comes from under ShiftRows. -/
def aesShift : List Nat := [0, 5, 10, 15, 4, 9, 14, 3, 8, 13, 2, 7, 12, 1, 6, 11]

/-- Where each byte of a block comes from under InvShiftRows. -/
def aesInvShift : List Nat := [0, 13, 10, 7, 4, 1, 14, 11, 8, 5, 2, 15, 12, 9, 6, 3]

/-- One column multiplied by the circulant matrix whose first row is `a b c d`. -/
def aesMixColumn (a b c d : Nat) : Bytes → Bytes
  | [w, x, y, z] =>
    [aesMul a w ^^^ aesMul b x ^^^ aesMul c y ^^^ aesMul d z,
     aesMul d w ^^^ aesMul a x ^^^ aesMul b y ^^^ aesMul c z,
     aesMul c w ^^^ aesMul d x ^^^ aesMul a y ^^^ aesMul b z,
     aesMul b w ^^^ aesMul c x ^^^ aesMul d y ^^^ aesMul a z]
  | l => l

/-- The middle and last rounds of encryption. -/
def aesEncRounds : List Bytes → Bytes → Bytes
  | [], s => s
  | [k], s => xorBytes (permuteBytes aesShift (s.map aesSub)) k
  | k :: ks, s =>
    let m := (chunks 4 (permuteBytes aesShift (s.map aesSub))).map (aesMixColumn 2 3 1 1)
    aesEncRounds ks (xorBytes m.flatten k)

/-- The rounds of decryption, the round keys last first. -/
def aesDecRounds : List Bytes → Bytes → Bytes
  | [], s => s
  | [k], s => xorBytes ((permuteBytes aesInvShift s).map aesInvSub) k
  | k :: ks, s =>
    let u := xorBytes ((permuteBytes aesInvShift s).map aesInvSub) k
    aesDecRounds ks ((chunks 4 u).map (aesMixColumn 14 11 13 9)).flatten

/-- AES encryption of one block under expanded round keys. -/
def aesEncWith (rk : List Bytes) (blk : Bytes) : Bytes :=
  aesEncRounds (rk.drop 1) (xorBytes blk (rk.headD []))

/-- AES encryption of one 16-byte block. -/
def aesEnc (key blk : Bytes) : Bytes := aesEncWith (aesRoundKeys key) blk

/-- AES decryption of one 16-byte block. -/
def aesDec (key blk : Bytes) : Bytes :=
  let rk := (aesRoundKeys key).reverse
  aesDecRounds (rk.drop 1) (xorBytes blk (rk.headD []))

end Sys2Proof.Machine
end

