-- ==== Sys2Proof/Machine/Des.lean ====
section
/-! DEFINITION. The DES and triple DES block ciphers (FIPS 46-3, SP 800-67), which the spec names as TDES
(08 R212, 09 R245). PRESUMED: the cipher itself is the published standard's (log 6). -/

namespace Sys2Proof.Machine

/-- The initial permutation of DES, bit 1 the most significant. -/
def desIp : List Nat :=
  [58, 50, 42, 34, 26, 18, 10, 2, 60, 52, 44, 36, 28, 20, 12, 4] ++
  [62, 54, 46, 38, 30, 22, 14, 6, 64, 56, 48, 40, 32, 24, 16, 8] ++
  [57, 49, 41, 33, 25, 17, 9, 1, 59, 51, 43, 35, 27, 19, 11, 3] ++
  [61, 53, 45, 37, 29, 21, 13, 5, 63, 55, 47, 39, 31, 23, 15, 7]

/-- The final permutation of DES. -/
def desFp : List Nat :=
  [40, 8, 48, 16, 56, 24, 64, 32, 39, 7, 47, 15, 55, 23, 63, 31] ++
  [38, 6, 46, 14, 54, 22, 62, 30, 37, 5, 45, 13, 53, 21, 61, 29] ++
  [36, 4, 44, 12, 52, 20, 60, 28, 35, 3, 43, 11, 51, 19, 59, 27] ++
  [34, 2, 42, 10, 50, 18, 58, 26, 33, 1, 41, 9, 49, 17, 57, 25]

/-- The expansion of a half block. -/
def desE : List Nat :=
  [32, 1, 2, 3, 4, 5, 4, 5, 6, 7, 8, 9, 8, 9, 10, 11] ++
  [12, 13, 12, 13, 14, 15, 16, 17, 16, 17, 18, 19, 20, 21, 20, 21] ++
  [22, 23, 24, 25, 24, 25, 26, 27, 28, 29, 28, 29, 30, 31, 32, 1]

/-- The permutation after the substitutions. -/
def desP : List Nat :=
  [16, 7, 20, 21, 29, 12, 28, 17, 1, 15, 23, 26, 5, 18, 31, 10] ++
  [2, 8, 24, 14, 32, 27, 3, 9, 19, 13, 30, 6, 22, 11, 4, 25]

/-- The first key choice. -/
def desPc1 : List Nat :=
  [57, 49, 41, 33, 25, 17, 9, 1, 58, 50, 42, 34, 26, 18, 10, 2] ++
  [59, 51, 43, 35, 27, 19, 11, 3, 60, 52, 44, 36, 63, 55, 47, 39] ++
  [31, 23, 15, 7, 62, 54, 46, 38, 30, 22, 14, 6, 61, 53, 45, 37] ++
  [29, 21, 13, 5, 28, 20, 12, 4]

/-- The second key choice. -/
def desPc2 : List Nat :=
  [14, 17, 11, 24, 1, 5, 3, 28, 15, 6, 21, 10, 23, 19, 12, 4] ++
  [26, 8, 16, 7, 27, 20, 13, 2, 41, 52, 31, 37, 47, 55, 30, 40] ++
  [51, 45, 33, 48, 44, 49, 39, 56, 34, 53, 46, 42, 50, 36, 29, 32]

/-- The eight substitution tables, each a number whose nibble `i` is entry `i`, rows of 16 in order. -/
def desS : List Nat :=
  [0xd60ae3b5719428cf05a379cfb26d8e148359bc6a1d2e47f07095c6a38bf21d4e,
   0x9e50c76b24f31a8df2396c851d4ab7e05b96a10ce82f74d3a50cd27943b6e81f,
   0xc25b3ef478960da17ea5c21b03f8946d1fbce582a643907d824b7cd15f36e90a,
   0xe27cb5498d1a60f34825e31fd7bc096a9ea1c27430f65b8df4cb5821a9603ed7,
   0x354a90f6d2e17c8be0365c9f87dab1246893af051d74c2be9e0df3586ba714c2,
   0xd80671ebaf59c2346bd1a4073c825fe983b0ed1659c724fab57e43d08629fa1c,
   0xc32ef0597a418db6295086fae73cdb4168f2c53ea1947b0d16a579c3d80fe2b4,
   0xb65309cfd8a47e12853fda602ec914b729e0b65c473a8df17c05e39a1bf6482d]

/-- The bits of a `w`-bit number picked by a table of positions counted from 1 at the most significant bit. -/
def bitPick (w : Nat) (tab : List Nat) (x : Nat) : Nat :=
  tab.foldl (fun a p => a * 2 + (x >>> (w - p)) % 2) 0

/-- A 28-bit half rotated left by `k`. -/
def rot28 (k x : Nat) : Nat := (x <<< k ||| x >>> (28 - k)) % 2 ^ 28

/-- How far the key halves turn before each round. -/
def desTurns : List Nat := [1, 1, 2, 2, 2, 2, 2, 2, 1, 2, 2, 2, 2, 2, 2, 1]

/-- The round keys from the two halves. -/
def desKeysAux : List Nat → Nat → Nat → List Nat
  | [], _, _ => []
  | k :: ks, c, d =>
    let c' := rot28 k c
    let d' := rot28 k d
    bitPick 56 desPc2 (c' * 2 ^ 28 + d') :: desKeysAux ks c' d'

/-- The sixteen round keys of an 8-byte key; the parity bits are not used. -/
def desKeys (key : Bytes) : List Nat :=
  let k := bitPick 64 desPc1 (beNat key)
  desKeysAux desTurns (k / 2 ^ 28) (k % 2 ^ 28)

/-- One substitution: six bits in, four bits out. -/
def desSub (i x : Nat) : Nat :=
  let row := x / 32 * 2 + x % 2
  let col := x / 2 % 16
  ((desS.getD i 0) >>> (4 * (row * 16 + col))) % 16

/-- The round function. -/
def desF (r k : Nat) : Nat :=
  let e := bitPick 32 desE r ^^^ k
  bitPick 32 desP ((List.range 8).foldl (fun a i => a * 16 + desSub i ((e >>> (42 - 6 * i)) % 64)) 0)

/-- One block under a list of round keys, in the order given. -/
def desWith (ks : List Nat) (blk : Bytes) : Bytes :=
  let x := bitPick 64 desIp (beNat blk)
  let (l, r) := ks.foldl (fun (p : Nat × Nat) k => (p.2, p.1 ^^^ desF p.2 k)) (x / 2 ^ 32, x % 2 ^ 32)
  natBe 8 (bitPick 64 desFp (r * 2 ^ 32 + l))

/-- DES encryption of one block. -/
def desEnc (key blk : Bytes) : Bytes := desWith (desKeys key) blk

/-- DES decryption of one block. -/
def desDec (key blk : Bytes) : Bytes := desWith (desKeys key).reverse blk

/-- The first, second and third single keys of a two- or three-key TDES key. -/
def tdesParts (key : Bytes) : Bytes × Bytes × Bytes :=
  (key.take 8, sliceOf key 8 8, if key.length < 24 then key.take 8 else sliceOf key 16 8)

/-- TDES encryption of one 8-byte block under a 16- or 24-byte key. -/
def tdesEnc (key blk : Bytes) : Bytes :=
  let (a, b, c) := tdesParts key
  desEnc c (desDec b (desEnc a blk))

/-- TDES decryption of one 8-byte block. -/
def tdesDec (key blk : Bytes) : Bytes :=
  let (a, b, c) := tdesParts key
  desDec a (desEnc b (desDec c blk))

/-- A key with each byte's low bit set so that the byte has an odd number of ones. -/
def oddParity (key : Bytes) : Bytes :=
  key.map (fun b => if popCount 8 (b.toNat / 2 * 2) % 2 = 0 then byteOf (b.toNat / 2 * 2 + 1) else byteOf (b.toNat / 2 * 2))

end Sys2Proof.Machine
end

