-- ==== Sys2Proof/Machine/Modes.lean ====
section
/-! DEFINITION. Modes of the block ciphers: ECB, CBC, CTR, CMAC, ISO 9797-1 MAC algorithms 1 and 3, GCM, CCM and
AES-GCM-SIV, which the spec names by their standards (08 R214 to R220, 05 R143). PRESUMED: the modes themselves are
the published standards' (log 6). -/

namespace Sys2Proof.Machine

/-- A block cipher of Table 8.1: AES or TDES. -/
inductive Cipher where
  | aes
  | tdes
  deriving DecidableEq, Repr

/-- Block length in bytes. -/
def Cipher.blockLen : Cipher → Nat
  | .aes => 16
  | .tdes => 8

/-- The encryption of one block, the key expanded once. -/
def Cipher.enc (c : Cipher) (key : Bytes) : Bytes → Bytes :=
  match c with
  | .aes => let rk := aesRoundKeys key; fun b => aesEncWith rk b
  | .tdes => fun b => tdesEnc key b

/-- The decryption of one block. -/
def Cipher.dec (c : Cipher) (key : Bytes) : Bytes → Bytes :=
  match c with
  | .aes => fun b => aesDec key b
  | .tdes => fun b => tdesDec key b

/-- ECB encryption of whole blocks. -/
def ecbEnc (c : Cipher) (key d : Bytes) : Bytes := ((chunks c.blockLen d).map (c.enc key)).flatten

/-- ECB decryption of whole blocks. -/
def ecbDec (c : Cipher) (key d : Bytes) : Bytes := ((chunks c.blockLen d).map (c.dec key)).flatten

/-- CBC encryption of a list of blocks from a chaining value. -/
def cbcEncBlocks (enc : Bytes → Bytes) : Bytes → List Bytes → List Bytes
  | _, [] => []
  | v, b :: bs => let x := enc (xorBytes v b); x :: cbcEncBlocks enc x bs

/-- CBC decryption of a list of blocks from a chaining value. -/
def cbcDecBlocks (dec : Bytes → Bytes) : Bytes → List Bytes → List Bytes
  | _, [] => []
  | v, b :: bs => xorBytes v (dec b) :: cbcDecBlocks dec b bs

/-- CBC encryption of whole blocks (SP 800-38A). -/
def cbcEnc (c : Cipher) (key iv d : Bytes) : Bytes :=
  (cbcEncBlocks (c.enc key) iv (chunks c.blockLen d)).flatten

/-- CBC decryption of whole blocks. -/
def cbcDec (c : Cipher) (key iv d : Bytes) : Bytes :=
  (cbcDecBlocks (c.dec key) iv (chunks c.blockLen d)).flatten

/-- The last chaining value of a CBC encryption: the plain CBC MAC of whole blocks. -/
def cbcMac (c : Cipher) (key iv d : Bytes) : Bytes :=
  (chunks c.blockLen d).foldl (fun v b => c.enc key (xorBytes v b)) iv

/-- A counter block plus `n`, over its last `w` bytes, big-endian, wrapping. -/
def incCtr (w n : Nat) (b : Bytes) : Bytes :=
  let k := b.length - w
  b.take k ++ natBe w (beNat (b.drop k) + n)

/-- Key stream from a counter block over pieces, the counter in the last `w` bytes. -/
def ctrBlocks (enc : Bytes → Bytes) (w : Nat) : Nat → Bytes → List Bytes → List Bytes
  | _, _, [] => []
  | n, c0, b :: bs => xorBytes b (enc (incCtr w n c0)) :: ctrBlocks enc w (n + 1) c0 bs

/-- CTR mode (SP 800-38A), the whole block counting. -/
def ctrCrypt (c : Cipher) (key iv d : Bytes) : Bytes :=
  (ctrBlocks (c.enc key) c.blockLen 0 iv (chunks c.blockLen d)).flatten

/-- Doubling in the field of CMAC. -/
def cmacDbl (b : Bytes) : Bytes :=
  let n := beNat b * 2
  let w := b.length
  let r := if w = 8 then 0x1b else 0x87
  natBe w (if n ≥ 256 ^ w then (n % 256 ^ w) ^^^ r else n)

/-- CMAC (SP 800-38B), the whole tag. -/
def cmac (c : Cipher) (key d : Bytes) : Bytes :=
  let bl := c.blockLen
  let k1 := cmacDbl (c.enc key (zeroBytes bl))
  let k2 := cmacDbl k1
  let n := (d.length - 1) / bl
  let head := d.take (n * bl)
  let last := d.drop (n * bl)
  let lastBlk :=
    if last.length = bl then xorBytes last k1
    else xorBytes (fitRight bl (last ++ [0x80])) k2
  cbcMac c key (zeroBytes bl) (head ++ lastBlk)

/-- Padding method 1 of ISO 9797-1: zero bytes to a whole block, at least one block. -/
def padMethod1 (bl : Nat) (d : Bytes) : Bytes := if d = [] then zeroBytes bl else padTo bl d

/-- Padding method 2 of ISO 9797-1: one byte 0x80, then zero bytes to a whole block. -/
def padMethod2 (bl : Nat) (d : Bytes) : Bytes := padTo bl (d ++ [0x80])

/-- ISO 9797-1 MAC algorithm 1 over padded data. -/
def iso9797Alg1 (c : Cipher) (key padded : Bytes) : Bytes := cbcMac c key (zeroBytes c.blockLen) padded

/-- ISO 9797-1 MAC algorithm 3 over padded data: single DES CBC under the left key, then decryption under the
right key and encryption under the left key. -/
def iso9797Alg3 (key padded : Bytes) : Bytes :=
  let kl := key.take 8
  let kr := sliceOf key 8 8
  let h := (chunks 8 padded).foldl (fun v b => desEnc kl (xorBytes v b)) (zeroBytes 8)
  desEnc kl (desDec kr h)

/-- Multiplication in the field of GCM; bit 0 of a block is the most significant bit of the number. -/
def gcmMul (x y : Nat) : Nat :=
  ((List.range 128).foldl (fun (p : Nat × Nat) i =>
    let z := if x.testBit (127 - i) then p.1 ^^^ p.2 else p.1
    let v := if p.2 % 2 = 1 then (p.2 / 2) ^^^ (0xe1 * 2 ^ 120) else p.2 / 2
    (z, v)) (0, y)).1

/-- GHASH of whole 16-byte blocks. -/
def ghash (h : Nat) (d : Bytes) : Nat := (chunks 16 d).foldl (fun y b => gcmMul (y ^^^ beNat b) h) 0

/-- The counter block J0 of GCM for a nonce. -/
def gcmJ0 (h : Nat) (iv : Bytes) : Bytes :=
  if iv.length = 12 then iv ++ [0, 0, 0, 1]
  else natBe 16 (ghash h (padTo 16 iv ++ zeroBytes 8 ++ natBe 8 (8 * iv.length)))

/-- The tag and text of GCM (SP 800-38D): text is the output of the counter mode, the tag is over the ciphertext `ct`. -/
def gcmTag (key iv aad ct : Bytes) : Bytes :=
  let e := Cipher.aes.enc key
  let h := beNat (e (zeroBytes 16))
  let j0 := gcmJ0 h iv
  let s := ghash h (padTo 16 aad ++ padTo 16 ct ++ natBe 8 (8 * aad.length) ++ natBe 8 (8 * ct.length))
  xorBytes (natBe 16 s) (e j0)

/-- The counter mode part of GCM. -/
def gcmCrypt (key iv d : Bytes) : Bytes :=
  let e := Cipher.aes.enc key
  let h := beNat (e (zeroBytes 16))
  (ctrBlocks e 4 1 (gcmJ0 h iv) (chunks 16 d)).flatten

/-- AES-GCM encryption: ciphertext and a 16-byte tag. -/
def gcmEnc (key iv aad pt : Bytes) : Bytes × Bytes :=
  let ct := gcmCrypt key iv pt
  (ct, gcmTag key iv aad ct)

/-- AES-GCM decryption: the plaintext if the tag, cut to its own length, verifies. -/
def gcmDec (key iv aad ct tag : Bytes) : Option Bytes :=
  if (gcmTag key iv aad ct).take tag.length = tag ∧ tag ≠ [] then some (gcmCrypt key iv ct) else none

/-- The encoded associated data of CCM. -/
def ccmAad (aad : Bytes) : Bytes :=
  if aad = [] then []
  else if aad.length < 0xFF00 then padTo 16 (natBe 2 aad.length ++ aad)
  else padTo 16 ([0xFF, 0xFE] ++ natBe 4 aad.length ++ aad)

/-- The CCM authentication value (SP 800-38C) before it is masked. -/
def ccmMac (key nonce aad pt : Bytes) (tlen : Nat) : Bytes :=
  let q := 15 - nonce.length
  let flags := (if aad = [] then 0 else 64) + 8 * ((tlen - 2) / 2) + (q - 1)
  let b0 := [byteOf flags] ++ nonce ++ natBe q pt.length
  cbcMac .aes key (zeroBytes 16) (b0 ++ ccmAad aad ++ padTo 16 pt)

/-- The counter block of CCM. -/
def ccmCtr (nonce : Bytes) : Bytes := [byteOf (14 - nonce.length)] ++ nonce ++ zeroBytes (15 - nonce.length)

/-- The counter mode part of CCM. -/
def ccmCrypt (key nonce d : Bytes) : Bytes :=
  (ctrBlocks (Cipher.aes.enc key) (15 - nonce.length) 1 (ccmCtr nonce) (chunks 16 d)).flatten

/-- The CCM tag. -/
def ccmTag (key nonce aad pt : Bytes) (tlen : Nat) : Bytes :=
  (xorBytes (ccmMac key nonce aad pt tlen) (Cipher.aes.enc key (ccmCtr nonce))).take tlen

/-- AES-CCM encryption: ciphertext and a tag of `tlen` bytes. -/
def ccmEnc (key nonce aad pt : Bytes) (tlen : Nat) : Bytes × Bytes :=
  (ccmCrypt key nonce pt, ccmTag key nonce aad pt tlen)

/-- AES-CCM decryption. -/
def ccmDec (key nonce aad ct tag : Bytes) : Option Bytes :=
  let pt := ccmCrypt key nonce ct
  if ccmTag key nonce aad pt tag.length = tag then some pt else none

/-- POLYVAL (RFC 8452) of whole blocks, through GHASH on reversed bytes. -/
def polyval (h : Bytes) (d : Bytes) : Bytes :=
  let hr := beNat h.reverse
  let h' := if hr % 2 = 1 then (hr / 2) ^^^ (0xe1 * 2 ^ 120) else hr / 2
  (natBe 16 (ghash h' ((chunks 16 d).map List.reverse).flatten)).reverse

/-- The message-authentication and message-encryption keys of AES-GCM-SIV. -/
def sivKeys (key nonce : Bytes) : Bytes × Bytes :=
  let e := Cipher.aes.enc key
  let part := fun n => (e (natLe 4 n ++ nonce)).take 8
  (part 0 ++ part 1, part 2 ++ part 3 ++ (if key.length = 32 then part 4 ++ part 5 else []))

/-- The tag of AES-GCM-SIV. -/
def sivTag (key nonce aad pt : Bytes) : Bytes :=
  let (ak, ek) := sivKeys key nonce
  let s := polyval ak (padTo 16 aad ++ padTo 16 pt ++ natLe 8 (8 * aad.length) ++ natLe 8 (8 * pt.length))
  let x := xorBytes s (nonce ++ zeroBytes 4)
  let y := x.take 15 ++ (x.drop 15).map (fun b => b &&& 0x7f)
  Cipher.aes.enc ek y

/-- The counter part of AES-GCM-SIV: a 32-bit little-endian counter in the first four bytes. -/
def sivCrypt (key nonce tag d : Bytes) : Bytes :=
  let ek := (sivKeys key nonce).2
  let e := Cipher.aes.enc ek
  let c := tag.take 15 ++ (tag.drop 15).map (fun b => b ||| 0x80)
  let c0 := leNat (c.take 4)
  let go := fun (i : Nat) (b : Bytes) => xorBytes b (e (natLe 4 (c0 + i) ++ c.drop 4))
  ((chunks 16 d).mapIdx go).flatten

/-- AES-GCM-SIV encryption (RFC 8452): ciphertext and a 16-byte tag. -/
def sivEnc (key nonce aad pt : Bytes) : Bytes × Bytes :=
  let tag := sivTag key nonce aad pt
  (sivCrypt key nonce tag pt, tag)

/-- AES-GCM-SIV decryption. -/
def sivDec (key nonce aad ct tag : Bytes) : Option Bytes :=
  let pt := sivCrypt key nonce tag ct
  if sivTag key nonce aad pt = tag then some pt else none

end Sys2Proof.Machine
end

