-- ==== Sys2Proof/Machine/Keys.lean ====
section
/-! DEFINITION. The key hierarchy: the derivation function, roots, handles, attributes, blobs and key states
(05 R126 to R157). -/

namespace Sys2Proof.Machine

/-- KDF(K, label, context, L) of 05 R126: SP 800-108 in counter mode over CMAC-AES-256. -/
def kdfLabel (k label ctx : Bytes) (bits : Nat) : Bytes :=
  let input := label ++ [0] ++ ctx ++ natBe 4 bits
  let n := (bits / 8 + 15) / 16
  (((List.range n).map (fun i => cmac .aes k (natBe 4 (i + 1) ++ input))).flatten).take (bits / 8)

/-- The same with a label of ASCII characters alone. -/
def kdf (k : Bytes) (label : String) (ctx : Bytes) (bits : Nat) : Bytes := kdfLabel k (ascii label) ctx bits

/-- A tenant ID as two bytes. -/
def tenBytes (t : Nat) : Bytes := natLe 2 t

/-- The unit's serial number in byte order of fields (05 R126: little-endian, DEDUCED log 23). -/
def uidBytes : Bytes := le64 Config.devUid

/-- The identity private key from the DUS (05 R133). -/
def identityOf (dus : Bytes) : Nat :=
  beNat (kdf dus "NKL-ID" uidBytes 448) % (NistCurve.p384.params.n - 1) + 1

/-- The identity public key, x then y; empty while no identity key lives. -/
def identityPub (m : Mod) : Bytes :=
  match m.khs.idKey with
  | none => []
  | some d => ((NistCurve.p384.public d).map NistCurve.p384.pointBytes).getD []

/-- The life-cycle root of a state, whose code ends the label (05 Table 5.1, R126). -/
def lcrOf (dus esh : Bytes) (s : Nat) : Bytes := kdfLabel dus (ascii "NKL-LCR" ++ [byteOf s]) esh 256

/-- The storage key of a life-cycle root. -/
def dskOf (lcr : Bytes) : Bytes := kdf lcr "storage" [] 256

/-- The check value of an erase share (05 R130). -/
def escOf (dus esh : Bytes) : Bytes := kdf dus "NKL-ESC" esh 128

/-- The handle check key of a tenant. -/
def hckOf (trk : Bytes) (t epoch : Nat) : Bytes := kdf trk "handle" (tenBytes t ++ [byteOf epoch]) 256

/-- The tenant wrapping key of a generation. -/
def twkOf (trk : Bytes) (t epoch gen : Nat) : Bytes :=
  kdf trk "wrap" (tenBytes t ++ [byteOf epoch] ++ natLe 2 gen) 256

/-! ### Handles (05 Table 5.6) -/

/-- The tenant a handle names. -/
def hTenant (h : W64) : Nat := (h.extractLsb' 52 12).toNat

/-- The kind a handle names. -/
def hKind (h : W64) : Nat := (h.extractLsb' 48 4).toNat

/-- The blob index a handle names. -/
def hIndex (h : W64) : Nat := (h.extractLsb' 14 34).toNat

/-- The check code of a handle. -/
def hCheck (h : W64) : Nat := (h.extractLsb' 0 14).toNat

/-- The defined kinds (05 Table 5.6). -/
def kindDefined (k : Nat) : Bool := k == 1 || k == 2 || k == 3 || k == 8 || k == 9 || k == 10

/-- The large kinds. -/
def kindLarge (k : Nat) : Bool := k == 8 || k == 9 || k == 10

/-- Bytes of a blob of a kind. -/
def blobLen (k : Nat) : Nat := if kindLarge k then 2048 else 128

/-- Blob index units of a kind. -/
def kindUnits (k : Nat) : Nat := if kindLarge k then 16 else 1

/-- A handle without its check code. -/
def bareHandle (t k i : Nat) : W64 := BitVec.ofNat 64 (t * 2 ^ 52 + k * 2 ^ 48 + i * 2 ^ 14)

/-- The check code of 05 R145: the low 14 bits of the CMAC, its bytes little-endian (DEDUCED, log 24). -/
def checkCode (hck : Bytes) (bare : W64) : Nat := leNat ((cmac .aes hck (le64 bare)).take 2) % 2 ^ 14

/-- The handle of a key. -/
def handleOf (hck : Bytes) (t k i : Nat) : W64 :=
  bareHandle t k i ||| BitVec.ofNat 64 (checkCode hck (bareHandle t k i))

/-! ### Attributes (05 Table 5.7) -/

/-- Algorithm character. -/
def aAlg (a : Bytes) : Nat := getNat8 a 0

/-- Attribute flags. -/
def aFlags (a : Bytes) : Nat := getNat8 a 1

/-- TRUSTED_KEK. -/
def aTrusted (a : Bytes) : Bool := (aFlags a).testBit 0

/-- DEC_LOCK. -/
def aDecLock (a : Bytes) : Bool := (aFlags a).testBit 3

/-- Key length in bits. -/
def aLen (a : Bytes) : Nat := (getLe16 a 2).toNat

/-- Usage, two characters. -/
def aUsage (a : Bytes) : Bytes := sliceOf a 4 2

/-- Mode of use character. -/
def aMode (a : Bytes) : Nat := getNat8 a 6

/-- Exportability character. -/
def aExport (a : Bytes) : Nat := getNat8 a 7

/-- Key version number, two characters. -/
def aKvn (a : Bytes) : Bytes := sliceOf a 8 2

/-- Curve or hash parameter. -/
def aParam (a : Bytes) : Nat := getNat8 a 10

/-- Activation instant. -/
def aNotBefore (a : Bytes) : W64 := getLe64 a 16

/-- Retirement instant fixed at creation. -/
def aNotAfter (a : Bytes) : W64 := getLe64 a 24

/-- The TIME64 value that stands for no retirement. -/
def t64Never : W64 := 0xFFFFFFFFFFFFFFFF#64

/-- A character's code. -/
def chr (c : Char) : Nat := c.toNat

/-- The modes a usage accepts (05 Table 5.9); none where the usage is not supported. -/
def usageModes (u : Bytes) : Option (List Nat) :=
  let is := fun (s : String) => u == ascii s
  if is "B0" || is "B1" || is "E0" || is "E1" || is "E2" then some [chr 'X']
  else if is "C0" || is "M1" || is "M3" || is "M6" || is "M7" || is "V1" then some [chr 'C', chr 'G', chr 'V']
  else if is "D0" || is "K0" || is "K1" || is "P0" || is "90" then some [chr 'B', chr 'D', chr 'E']
  else if is "S0" then some [chr 'S', chr 'V']
  else if is "91" then some [chr 'N']
  else none

/-- Security strength in bits of a key (05 R157). -/
def strengthOf (a : Bytes) : Nat :=
  let alg := aAlg a
  let len := aLen a
  if alg = chr 'T' then (if len ≤ 128 then 80 else 112)
  else if alg = chr 'A' then len
  else if alg = chr 'R' then (if len < 3072 then 112 else 128)
  else if alg = chr 'E' then (if len = 384 then 192 else if len = 521 then 256 else 128)
  else len

/-! ### Blobs (05 R142, Tables 5.4, 5.5) -/

/-- The 16-byte header of a blob. -/
def blobHeader (t k epoch gen i check : Nat) : Bytes :=
  [1, byteOf k] ++ tenBytes t ++ [byteOf epoch, 0] ++ natLe 2 gen ++ natLe 5 i ++ natLe 2 check ++ [0]

/-- A sealed blob: attributes and key field under the TWK, the header as associated data. -/
def sealBlob (twk hdr attr key : Bytes) (total : Nat) : Bytes :=
  let pt := fitRight 32 attr ++ fitRight (total - 64) key
  let (ct, tag) := sivEnc twk (hdr.drop 4) hdr pt
  hdr ++ ct ++ tag

/-- The attributes and key field of a sealed blob, where its tag verifies. -/
def openBlob (twk blob : Bytes) : Option (Bytes × Bytes) :=
  let hdr := blob.take 16
  let ct := sliceOf blob 16 (blob.length - 32)
  let tag := blob.drop (blob.length - 16)
  (sivDec twk (hdr.drop 4) hdr ct tag).map (fun pt => (pt.take 32, pt.drop 32))

/-- The kind a blob header names. -/
def bKind (b : Bytes) : Nat := getNat8 b 1 % 16

/-- The tenant a blob header names. -/
def bTenant (b : Bytes) : Nat := (getLe16 b 2).toNat % 4096

/-- The epoch a blob header names. -/
def bEpoch (b : Bytes) : Nat := getNat8 b 4

/-- The wrapping generation a blob header names. -/
def bGen (b : Bytes) : Nat := (getLe16 b 6).toNat

/-- The index a blob header names. -/
def bIndex (b : Bytes) : Nat := leNat (sliceOf b 8 5) % 2 ^ 34

/-- The check code a blob header names. -/
def bCheck (b : Bytes) : Nat := (getLe16 b 13).toNat % 2 ^ 14

/-! ### Windows of the blob store (06 R168, R170) -/

/-- A window of a tenant. -/
def winOf (m : Mod) (t w : Nat) : Window := tblGet Window.reset m.bsx.win (t * 8 + w)

/-- Bytes of one window unit. -/
def winUnit : Nat := 2 ^ 21

/-- The host address of a byte offset in the tenant's windows, from window `w` on. -/
def winAddr (m : Mod) (t : Nat) : Nat → Nat → Nat → Option (Port × Nat)
  | 0, _, _ => none
  | n + 1, w, off =>
    let x := winOf m t w
    if !x.valid then none
    else if off < x.size * winUnit then some (x.port, x.base.toNat + off)
    else winAddr m t n (w + 1) (off - x.size * winUnit)

/-- The host address of a blob index (06 R170). -/
def blobAddr (m : Mod) (t i : Nat) : Option (Port × Nat) := winAddr m t 8 0 (i * 128)

/-- Units of the valid windows of a tenant, taken in order. -/
def winUnits (m : Mod) (t : Nat) : Nat :=
  (List.range 8).foldl (fun a w => if (winOf m t w).valid then a + (winOf m t w).size else a) 0

/-! ### Checks of a handle and its key (05 Table 5.8) -/

/-- Steps 1 and 2: whether a handle is one the module issued to this tenant. After a re-root the new HCK makes step 2 fail
first for an old handle, so it is ST_KEY_UNKNOWN here (DESIGN CHOICE, log 63: R141 names ST_BLOB_ROLLBACK for its blob). -/
def handleOk (m : Mod) (t : Nat) (h : W64) : Bool :=
  let x := tenantOf m t
  match x.trk with
  | none => false
  | some trk =>
    hTenant h == t && kindDefined (hKind h) && (!kindLarge (hKind h) || hIndex h % 16 == 0) &&
      (blobAddr m t (hIndex h)).isSome &&
      hCheck h == checkCode (hckOf trk t x.epoch) (bareHandle t (hKind h) (hIndex h))

/-- The effective retirement of a key (05 R149). -/
def retirement (attr : Bytes) (e : Option KstEntry) : W64 :=
  match e.bind (fun e => e.retire) with
  | none => aNotAfter attr
  | some r => if r.toNat < (aNotAfter attr).toNat then r else aNotAfter attr

/-- A key's states (05 R149). -/
inductive KeyState where
  | pending
  | active
  | retired
  | destroyed
  deriving DecidableEq, Repr

/-- The state of a key at a stamp (05 R149). -/
def keyStateAt (attr : Bytes) (e : Option KstEntry) (s : W64) : KeyState :=
  if (e.bind (fun e => e.destroyed)).isSome then .destroyed
  else if s.toNat < (aNotBefore attr).toNat then .pending
  else if (retirement attr e).toNat ≤ s.toNat then .retired
  else .active

/-- Steps 3 to 6: what a blob read for a handle gives, attributes and key field or the status that refuses it. -/
def checkBlob (m : Mod) (h : W64) (blob : Bytes) : Except W16 (Bytes × Bytes) :=
  let t := hTenant h
  let x := tenantOf m t
  if blob.length ≠ blobLen (hKind h) ∨ getNat8 blob 0 ≠ 1 ∨ bKind blob ≠ hKind h ∨ bTenant blob ≠ t ∨
      bIndex blob ≠ hIndex h ∨ bCheck blob ≠ hCheck h then .error stBlobInvalid
  else if bEpoch blob < x.epoch then .error stBlobRollback
  else if bEpoch blob ≠ x.epoch ∨ x.twkGen < bGen blob then .error stBlobInvalid
  else match x.trk with
    | none => .error stTenantNoRoot
    | some trk =>
      match openBlob (twkOf trk t x.epoch (bGen blob)) blob with
      | none => .error stBlobInvalid
      | some p =>
        if ((kstIn m.dur h).bind (fun e => e.destroyed)).isSome then .error stKeyDestroyed else .ok p

/-- Steps 6 to 8 at a use: the status that refuses a key at a command's stamp, if one does. -/
def keyUse (m : Mod) (h : W64) (attr : Bytes) (s : W64) : Option W16 :=
  let e := kstIn m.dur h
  let noRetire := retirement attr e = t64Never
  if (e.bind (fun e => e.destroyed)).isSome then some stKeyDestroyed
  else if !(decide (aNotBefore attr = 0) && noRetire) && !trustedAt m s then some stTimeUntrusted
  else match keyStateAt attr e s with
    | .pending => some stKeyPending
    | .retired => some stKeyRetired
    | .destroyed => some stKeyDestroyed
    | .active => none

/-- The hash an HMAC key's PARAM names (05 Table 5.7). -/
def hmacAlg (attr : Bytes) : HashAlg :=
  match aParam attr with
  | 2 => .sha384
  | 3 => .sha512
  | 4 => .sha3_256
  | _ => .sha256

/-- The 3-byte check value of an AES, TDES or HMAC key (09 R269). -/
def kcvOf (attr key : Bytes) : Bytes :=
  if aAlg attr = chr 'T' then (tdesEnc key (zeroBytes 8)).take 3
  else if aAlg attr = chr 'H' then (hmac (hmacAlg attr) key []).take 3
  else (cmac .aes key (zeroBytes 16)).take 3

/-- Attributes put together (05 Table 5.7). -/
def mkAttr (alg flags len : Nat) (usage : Bytes) (mode exp : Nat) (kvn : Bytes) (param : Nat) (nb na : W64) : Bytes :=
  [byteOf alg, byteOf flags] ++ natLe 2 len ++ usage ++ [byteOf mode, byteOf exp] ++ kvn ++ [byteOf param] ++
    zeroBytes 5 ++ le64 nb ++ le64 na

end Sys2Proof.Machine
end

