-- ==== Sys2Proof/Machine/Rsa.lean ====
section
/-! DEFINITION. RSA: PKCS #1 v1.5 and PSS signatures and OAEP encryption (RFC 8017), which the spec names by their
standards (10 R281, R289, R291). PRESUMED: the schemes themselves are the published standards' (log 6). -/

namespace Sys2Proof.Machine

/-- The mask generation function MGF1. -/
def mgf1 (h : HashAlg) (seed : Bytes) (len : Nat) : Bytes :=
  (((List.range (len / h.outLen + 1)).map (fun i => hash h (seed ++ natBe 4 i))).flatten).take len

/-- The DER prefix of DigestInfo for each hash. -/
def digestInfoPrefix : HashAlg → Bytes
  | .sha224 => [0x30, 0x2d, 0x30, 0x0d, 0x06, 0x09, 0x60, 0x86, 0x48, 0x01, 0x65, 0x03, 0x04, 0x02, 0x04, 0x05, 0x00, 0x04, 0x1c]
  | .sha256 => [0x30, 0x31, 0x30, 0x0d, 0x06, 0x09, 0x60, 0x86, 0x48, 0x01, 0x65, 0x03, 0x04, 0x02, 0x01, 0x05, 0x00, 0x04, 0x20]
  | .sha384 => [0x30, 0x41, 0x30, 0x0d, 0x06, 0x09, 0x60, 0x86, 0x48, 0x01, 0x65, 0x03, 0x04, 0x02, 0x02, 0x05, 0x00, 0x04, 0x30]
  | .sha512 => [0x30, 0x51, 0x30, 0x0d, 0x06, 0x09, 0x60, 0x86, 0x48, 0x01, 0x65, 0x03, 0x04, 0x02, 0x03, 0x05, 0x00, 0x04, 0x40]
  | .sha512_256 => [0x30, 0x31, 0x30, 0x0d, 0x06, 0x09, 0x60, 0x86, 0x48, 0x01, 0x65, 0x03, 0x04, 0x02, 0x06, 0x05, 0x00, 0x04, 0x20]
  | .sha3_224 => [0x30, 0x2d, 0x30, 0x0d, 0x06, 0x09, 0x60, 0x86, 0x48, 0x01, 0x65, 0x03, 0x04, 0x02, 0x07, 0x05, 0x00, 0x04, 0x1c]
  | .sha3_256 => [0x30, 0x31, 0x30, 0x0d, 0x06, 0x09, 0x60, 0x86, 0x48, 0x01, 0x65, 0x03, 0x04, 0x02, 0x08, 0x05, 0x00, 0x04, 0x20]
  | .sha3_384 => [0x30, 0x41, 0x30, 0x0d, 0x06, 0x09, 0x60, 0x86, 0x48, 0x01, 0x65, 0x03, 0x04, 0x02, 0x09, 0x05, 0x00, 0x04, 0x30]
  | .sha3_512 => [0x30, 0x51, 0x30, 0x0d, 0x06, 0x09, 0x60, 0x86, 0x48, 0x01, 0x65, 0x03, 0x04, 0x02, 0x0a, 0x05, 0x00, 0x04, 0x40]

/-- The EMSA-PKCS1-v1_5 encoding of a digest, `k` bytes. -/
def emsaPkcs1 (h : HashAlg) (k : Nat) (digest : Bytes) : Bytes :=
  let t := digestInfoPrefix h ++ digest
  [0x00, 0x01] ++ List.replicate (k - t.length - 3) 0xff ++ [0x00] ++ t

/-- The EMSA-PSS encoding of a digest with a salt, for a modulus of `bits` bits. -/
def emsaPss (h : HashAlg) (bits : Nat) (digest salt : Bytes) : Bytes :=
  let emBits := bits - 1
  let emLen := (emBits + 7) / 8
  let hh := hash h (zeroBytes 8 ++ digest ++ salt)
  let ps := zeroBytes (emLen - salt.length - digest.length - 2)
  let db := ps ++ [0x01] ++ salt
  let masked := xorBytes db (mgf1 h hh db.length)
  let keep := byteOf (2 ^ (8 - (8 * emLen - emBits)) - 1)
  let masked' := masked.take 1 |>.map (fun b => b &&& keep)
  masked' ++ masked.drop 1 ++ hh ++ [0xbc]

/-- EMSA-PSS verification with a salt as long as the digest. -/
def emsaPssVerify (h : HashAlg) (bits : Nat) (digest em : Bytes) : Bool :=
  let emBits := bits - 1
  let emLen := (emBits + 7) / 8
  let hl := digest.length
  let masked := em.take (emLen - hl - 1)
  let hh := sliceOf em (emLen - hl - 1) hl
  let keep := byteOf (2 ^ (8 - (8 * emLen - emBits)) - 1)
  let db0 := xorBytes masked (mgf1 h hh masked.length)
  let db := (db0.take 1).map (fun b => b &&& keep) ++ db0.drop 1
  let salt := db.drop (db.length - hl)
  decide (em.length = emLen ∧ 2 * hl + 2 ≤ emLen) && em.getLast? == some 0xbc &&
    (masked.take 1).all (fun b => b &&& ~~~keep == 0) &&
    (db.take (db.length - hl - 1)).all (· == 0) && getByte db (db.length - hl - 1) == 1 &&
    hash h (zeroBytes 8 ++ digest ++ salt) == hh

/-- OAEP encoding with an empty label, `k` bytes; `none` if the message is too long. -/
def oaepEncode (h : HashAlg) (k : Nat) (seed msg : Bytes) : Option Bytes :=
  let hl := h.outLen
  if msg.length + 2 * hl + 2 > k then none
  else
    let db := hash h [] ++ zeroBytes (k - msg.length - 2 * hl - 2) ++ [0x01] ++ msg
    let mdb := xorBytes db (mgf1 h seed db.length)
    let ms := xorBytes seed (mgf1 h mdb hl)
    some ([0x00] ++ ms ++ mdb)

/-- OAEP decoding with an empty label. -/
def oaepDecode (h : HashAlg) (em : Bytes) : Option Bytes :=
  let hl := h.outLen
  let ms := sliceOf em 1 hl
  let mdb := em.drop (1 + hl)
  let seed := xorBytes ms (mgf1 h mdb hl)
  let db := xorBytes mdb (mgf1 h seed mdb.length)
  let rest := (db.drop hl).dropWhile (· == 0)
  if em.take 1 = [0x00] ∧ db.take hl = hash h [] ∧ rest.take 1 = [0x01] then some (rest.drop 1) else none

/-- The RSA public operation on a big-endian string, `none` if it is not below the modulus. -/
def rsaPublic (n e : Nat) (x : Bytes) : Option Bytes :=
  if beNat x < n then some (natBe ((n.log2 + 8) / 8) (powMod (beNat x) e n)) else none

/-- The RSA private operation. -/
def rsaPrivate (n d : Nat) (x : Bytes) : Option Bytes :=
  if beNat x < n then some (natBe ((n.log2 + 8) / 8) (powMod (beNat x) d n)) else none

end Sys2Proof.Machine
end

