-- ==== Sys2Proof/Machine/Asym.lean ====
section
/-! DEFINITION. Asymmetric keys: their key fields in blobs (05 Table 5.5), public encodings (09 Table 9.17), the checks of
05 R155 and 10 Table 10.4, generation (10 R292) and check values (09 R269). -/

namespace Sys2Proof.Machine

/-! ### Points -/

/-- The curve a PARAM names (05 Table 5.7). -/
def curveOf (param : Nat) : Option NistCurve :=
  if param = 1 then some .p256 else if param = 2 then some .p384 else if param = 3 then some .p521 else none

/-- Bits of a key of a PARAM (05 Table 5.7). -/
def paramBits (param : Nat) : Nat := if param = 1 then 256 else if param = 2 then 384 else if param = 3 then 521 else 255

/-- The SEC1 compressed encoding of a point. -/
def compress (c : NistCurve) (q : Nat × Nat) : Bytes := [byteOf (2 + q.2 % 2)] ++ natBe c.params.len q.1

/-- A point from its x coordinate and the parity of y. -/
def pointOfX (c : NistCurve) (x parity : Nat) : Option (Nat × Nat) :=
  let k := c.params
  let rhs := (subMod k.p (x * x % k.p * x % k.p) (3 * x) + k.b) % k.p
  let y0 := powMod rhs ((k.p + 1) / 4) k.p
  let y := if y0 % 2 = parity then y0 else k.p - y0
  if c.onCurve x y then some (x, y) else none

/-- A point from a SEC1 encoding, compressed or uncompressed; the point at infinity is refused. -/
def sec1Of (c : NistCurve) (b : Bytes) : Option (Nat × Nat) :=
  let n := c.params.len
  let form := getNat8 b 0
  if form = 4 ∧ b.length = 2 * n + 1 then c.pointOf (b.drop 1)
  else if (form = 2 ∨ form = 3) ∧ b.length = n + 1 then pointOfX c (beNat (b.drop 1)) (form - 2)
  else none

/-- Whether a u-coordinate, reduced, is one of the small-order ones of Curve25519 (10 Table 10.4). -/
def smallOrder (b : Bytes) : Bool :=
  let u := leNat (b.take 32) % 2 ^ 255 % p25519
  [0, 1, p25519 - 1, 325606250916557431795983626356110631294008115727848805560023387167927233504,
    39382357235489614581723060781553021112529911719440698176882885853963445705823].contains u

/-! ### Public keys -/

/-- A public key. -/
inductive PubKey where
  | ec (c : NistCurve) (q : Nat × Nat)
  | ed (b : Bytes)
  | x (b : Bytes)
  | rsa (n e : Nat)
  deriving DecidableEq, Repr

/-- Bytes of a modulus. -/
def modLen (n : Nat) : Nat := (n.log2 + 8) / 8

/-- The fewest bytes that hold a number, big-endian. -/
def minBe (n : Nat) : Bytes := natBe (modLen n) n

/-- A number behind its 2-byte length. -/
def lenField (b : Bytes) : Bytes := natLe 2 b.length ++ b

/-- A length-prefixed field at the front of a string, and what follows it. -/
def takeField (b : Bytes) : Option (Bytes × Bytes) :=
  let n := (getLe16 b 0).toNat
  if b.length < 2 + n then none else some (sliceOf b 2 n, b.drop (2 + n))

/-- Several length-prefixed fields. -/
def takeFields : Nat → Bytes → Option (List Bytes × Bytes)
  | 0, b => some ([], b)
  | n + 1, b => (takeField b).bind (fun x => (takeFields n x.2).map (fun y => (x.1 :: y.1, y.2)))

/-- The encoding of a public key that KEY_IMPORT_PUBLIC accepts, points compressed (09 Table 9.17). -/
def PubKey.encode : PubKey → Bytes
  | .ec c q => compress c q
  | .ed b => b
  | .x b => b
  | .rsa n e => lenField (minBe n) ++ lenField (minBe e)

/-- The key bytes of a PK_KEYGEN result (10 Table 10.9): for RSA the modulus alone. -/
def PubKey.shown : PubKey → Bytes
  | .rsa n _ => minBe n
  | k => k.encode

/-- The check value of an asymmetric key (09 R269). -/
def PubKey.kcv (k : PubKey) : Bytes := (sha256 k.encode).take 3

/-- An EC public key of a PARAM, checked (05 R155, 10 Table 10.4). -/
def ecPubOf (param : Nat) (b : Bytes) : Except W16 PubKey :=
  match curveOf param with
  | some c =>
    match sec1Of c b with
    | some q => .ok (.ec c q)
    | none => .error stPkPointInvalid
  | none =>
    if b.length ≠ 32 then .error stPkPointInvalid
    else if param = 4 then (if (edDecode b).isSome then .ok (.ed b) else .error stPkPointInvalid)
    else if smallOrder b then .error stPkPointInvalid
    else .ok (.x b)

/-- An RSA public key whose modulus has the stated bits, checked (05 R155). -/
def rsaPubOf (bits : Nat) (b : Bytes) : Except W16 PubKey :=
  match takeFields 2 b with
  | some ([nb, eb], []) =>
    let n := beNat nb
    let e := beNat eb
    if n.log2 + 1 = bits ∧ n % 2 = 1 ∧ 65537 ≤ e ∧ e < 2 ^ 256 ∧ e % 2 = 1 then .ok (.rsa n e) else .error stPkInputRange
  | _ => .error stPkInputRange

/-- An inline RSA key, whose length is its own (10 Table 10.8: 2,048 to 4,096 bits, a multiple of 64). -/
def rsaInlineOf (b : Bytes) : Except W16 PubKey :=
  let bits := (takeField b).elim 0 (fun x => (beNat x.1).log2 + 1)
  if 2048 ≤ bits ∧ bits ≤ 4096 ∧ bits % 64 = 0 then rsaPubOf bits b else .error stPkInputRange

/-! ### Key fields of blobs -/

/-- The parts of an RSA private key. -/
structure RsaKey where
  n : Nat
  e : Nat
  p : Nat
  q : Nat
  dp : Nat
  dq : Nat
  qinv : Nat
  deriving DecidableEq, Repr

/-- A private key. -/
inductive PrivKey where
  | ec (c : NistCurve) (d : Nat)
  | ed (seed : Bytes)
  | x (scalar : Bytes)
  | rsa (k : RsaKey)
  deriving DecidableEq, Repr

/-- The public key of a private key. -/
def PrivKey.pub : PrivKey → Option PubKey
  | .ec c d => (c.public d).map (.ec c)
  | .ed s => some (.ed (edPublic s))
  | .x s => some (.x (x25519Public s))
  | .rsa k => some (.rsa k.n k.e)

/-- The key field of a private key (05 Tables 5.4, 5.5). -/
def PrivKey.field (k : PrivKey) : Bytes :=
  match k with
  | .ec c d =>
    natBe c.params.len d ++ (if c = .p521 then (k.pub.map PubKey.encode).getD [] else [])
  | .ed s => s
  | .x s => s
  | .rsa r => ([r.n, r.e, r.p, r.q, r.dp, r.dq, r.qinv].map (fun x => lenField (minBe x))).flatten

/-- The key field of a public key; a P-521 public key has a scalar of 0 (DEDUCED, log 28). -/
def PubKey.field : PubKey → Bytes
  | .ec c q => (if c = .p521 then zeroBytes 66 else []) ++ compress c q
  | k => k.encode

/-- The private key a key field holds. -/
def privOfField (attr key : Bytes) : Option PrivKey :=
  if aAlg attr = chr 'R' then
    match takeFields 7 key with
    | some (f, _) =>
      let g := fun (i : Nat) => beNat (f.getD i [])
      some (.rsa { n := g 0, e := g 1, p := g 2, q := g 3, dp := g 4, dq := g 5, qinv := g 6 })
    | none => none
  else match curveOf (aParam attr) with
    | some c => let d := beNat (key.take c.params.len); if d = 0 then none else some (.ec c d)
    | none => if aParam attr = 4 then some (.ed (key.take 32)) else some (.x (key.take 32))

/-- The public key a key field of a public handle holds. -/
def pubOfField (attr key : Bytes) : Option PubKey :=
  if aAlg attr = chr 'R' then
    match takeFields 2 key with
    | some ([n, e], _) => some (.rsa (beNat n) (beNat e))
    | _ => none
  else match curveOf (aParam attr) with
    | some .p521 => (sec1Of .p521 (sliceOf key 66 67)).map (.ec .p521)
    | some c => (sec1Of c (key.take (c.params.len + 1))).map (.ec c)
    | none => if aParam attr = 4 then some (.ed (key.take 32)) else some (.x (key.take 32))

/-- The check value of any key of a tenant (09 R269). -/
def kcvAny (kind : Nat) (attr key : Bytes) : Bytes :=
  let alg := aAlg attr
  if alg = chr 'R' ∨ alg = chr 'E' then
    let pub :=
      if kind = 2 ∨ kind = 8 then (privOfField attr key).bind PrivKey.pub
      else pubOfField attr key
    (pub.map PubKey.kcv).getD (zeroBytes 3)
  else kcvOf attr (key.take (aLen attr / 8))

/-! ### Generation (10 R292) -/

/-- Extended Euclid by fuel: the inverse of `a` modulo `m`. -/
def invBy (m : Nat) : Nat → Nat → Nat → Int → Int → Nat
  | 0, _, _, _, _ => 0
  | f + 1, r0, r1, s0, s1 =>
    if r1 = 0 then (s0 % (m : Int)).toNat else invBy m f r1 (r0 % r1) s1 (s0 - (r0 / r1 : Nat) * s1)

/-- The inverse of `a` modulo `m`, 0 where there is none. -/
def invAny (a m : Nat) : Nat := invBy m (2 * m.log2 + 8) (a % m) m 1 0

/-- A generated RSA key of two primes: e is 65,537 (10 Table 10.8). -/
def rsaFrom (p q : Nat) : RsaKey :=
  { n := p * q, e := 65537, p := p, q := q, dp := invAny 65537 (p - 1), dq := invAny 65537 (q - 1),
    qinv := invAny q p }

/-- A number in [1, n − 1] from drawn bytes (05 R133's form; log 5). -/
def inRange (b : Bytes) (n : Nat) : Nat := beNat b % (n - 1) + 1

/-- Bytes a private value of an ATTR is drawn from. -/
def privBytes (attr : Bytes) : Nat := (curveOf (aParam attr)).elim 32 (fun c => c.params.len + 8)

/-- A private key of an ATTR from drawn bytes, or from the two primes a search found. -/
def privFrom (attr b : Bytes) (p q : Nat) : PrivKey :=
  if aAlg attr = chr 'R' then .rsa (rsaFrom p q)
  else match curveOf (aParam attr) with
    | some c => .ec c (inRange b c.params.n)
    | none => if aParam attr = 4 then .ed b else .x b

/-- The first and second prime that a search of D0's output from a place on finds (log 5). -/
def primeAt (bits place i : Nat) : Nat := Config.rsaPrime bits 65537 (place + i)

/-- A private key of an ATTR drawn from D0 at a place of the free values. -/
def privDraw (attr : Bytes) (place : Nat) : PrivKey :=
  privFrom attr (freeBytesAt place (privBytes attr)) (primeAt (aLen attr) place 0) (primeAt (aLen attr) place 1)

/-- The RSA private operation by CRT on a number below n: with k1 and k2 blinding the exponents and r the base
(10 R276). -/
def RsaKey.crt (k : RsaKey) (k1 k2 r x : Nat) : Nat :=
  let y := x * powMod r k.e k.n % k.n
  let a := powMod y (k.dp + k1 * (k.p - 1)) k.p
  let b := powMod y (k.dq + k2 * (k.q - 1)) k.q
  let h := subMod k.p a b * k.qinv % k.p
  (b + h * k.q) * invAny r k.n % k.n

end Sys2Proof.Machine
end

