-- ==== Sys2Proof/Machine/Links.lean ====
section
/-! DEFINITION. The Crosswind links: what leaves on them is sealed, and what a frame must be to be accepted (14 R363,
01 R20, R22). -/

namespace Sys2Proof.Machine

/-- A Crosswind link. -/
def linkOf (m : Mod) (l : Nat) : Link := tblGet Link.reset m.tlk.link l

/-- A link changed. -/
def updLink (m : Mod) (l : Nat) (f : Link → Link) : Mod :=
  { m with tlk := { m.tlk with link := tblUpd Link.reset m.tlk.link l f } }

/-- Whether frames pass on a link: up and keyed, the core die running. -/
def linkPasses (m : Mod) (l : Nat) : Bool := m.powered && decide (l < 2) && (linkOf m l).up && (linkOf m l).keys.isSome

/-- The nonce of a frame: link number and frame counter (14 R363; their places in the 96 bits are a DESIGN CHOICE, log
62). -/
def frameNonce (l ctr : Nat) : Bytes := natLe 4 l ++ natLe 8 ctr

/-- A frame: its payload under AES-256-GCM, then the tag. -/
def sealFrame (key : Bytes) (l ctr : Nat) (payload : Bytes) : Output :=
  let (ct, tag) := gcmEnc key (frameNonce l ctr) [] payload
  .twinFrame l ctr (ct ++ tag)

/-- A payload sent in the next frame of a link. -/
def sendPayload (l : Nat) (m : Mod) (payload : Bytes) : Mod :=
  match (linkOf m l).keys with
  | none => m
  | some (key, _) =>
    let n := (linkOf m l).sent + 1
    emit (updLink m l (fun x => { x with sent := n })) (sealFrame key l n payload)

/-- A message sent on a link, in frames of up to 4,096 bytes of payload (14 R363). -/
def sendOn (l : Nat) (m : Mod) (msg : TwinMsg) : Mod :=
  if linkPasses m l then (chunks 4096 (Config.linkBytes msg)).foldl (sendPayload l) m else m

/-- A message sent on every live link (14 R365). -/
def sendTwin (m : Mod) (msg : TwinMsg) : Mod := sendOn 1 (sendOn 0 m msg) msg

/-- Messages sent one after another. -/
def sendAll (m : Mod) (l : List TwinMsg) : Mod := l.foldl sendTwin m

/-- Whether a frame is accepted: its tag holds and its counter is above that of the last one accepted (14 R363). -/
def frameTaken (m : Mod) (f : LinkFrame) : Bool := f.tagOk && decide ((linkOf m f.link).got < f.ctr)

/-- The block with a frame accepted. -/
def noteFrame (m : Mod) (f : LinkFrame) : Mod := updLink m f.link (fun x => { x with got := f.ctr })

/-- What a frame brings: nothing on a link that is not up and keyed; one not accepted is dropped and counted, and
LINK_TAG_FAIL is set (14 R363, R385). -/
def onLink (f : LinkFrame) (g : Nat → Mod → Mod) (m : Mod) : Mod :=
  if !linkPasses m f.link then m
  else if frameTaken m f then g f.link (noteFrame m f)
  else raiseInt (updLink m f.link (fun x => { x with tagFail := x.tagFail + 1 })) .tlk 0x20

end Sys2Proof.Machine
end

