-- ==== Sys2Proof/Machine/CustPort.lean ====
section
/-! DEFINITION. The frames that leave on a custodian port (11 R315, R316). -/

namespace Sys2Proof.Machine

/-- A custodian port. -/
def custPortOf (m : Mod) (p : Nat) : CustPort := tblGet CustPort.reset m.dcu.port p

/-- A custodian port changed. -/
def updCust (m : Mod) (p : Nat) (f : CustPort → CustPort) : Mod :=
  { m with dcu := { m.dcu with port := tblUpd CustPort.reset m.dcu.port p f } }

/-- A frame sent on a port under its next SEQ; all but an ACK are kept until acknowledged (R316; log 37). -/
def sendCust (m : Mod) (p type : Nat) (payload : Bytes) : Mod :=
  let s := (custPortOf m p).seq
  let m1 := updCust m p (fun x =>
    { x with
      seq := (s + 1) % 256
      sent := if type = 1 then x.sent else x.sent ++ [(s, type, payload, m.clk, 0)] })
  emit m1 (.custFrame p type s payload)

/-- A RESULT frame: a status and the CHAL_ID or CER_ID it answers. -/
def sendResult (m : Mod) (p : Nat) (st : W16) (id : Nat) : Mod := sendCust m p 5 (le16 st ++ natLe 8 id)

end Sys2Proof.Machine
end

