-- ==== Sys2Proof/Machine/Mask.lean ====
section
/-! DEFINITION. Mask generators: one for each AES and TDES pipeline and one of the key cache, seeded from D0 (05 R163,
06 R178, 08 R213, R214). -/

namespace Sys2Proof.Machine

/-- Blocks under one seed, and the count at which the next seed is asked for (05 R163). -/
def seedBlocks : Nat := 65536
def seedAsk : Nat := 49152

/-- A new seed taken up. -/
def MaskGen.seeded (s : Bytes) : MaskGen := { seed := s, next := Option.none, blocks := 0 }

/-- For how many clocks a generator stood without a seed until one came: free where it ran out (log 47). -/
def noteMaskStall (m : Mod) : Mod :=
  let k := choice m
  let m1 := afterChoice m
  let m2 := { m1 with rng := { m1.rng with maskStall := m1.rng.maskStall + BitVec.ofNat 64 k } }
  if k = 0 then m2 else raiseInt m2 .rng 8

/-- A generator gives the randomness of `n` blocks. It is seeded before its first; with block 65,536 the next seed takes
over, and where that has not come by then the generator stalls until it does. -/
def maskRun : Nat → Mod → MaskGen → Nat → Mod × MaskGen
  | 0, m, g, _ => (m, g)
  | f + 1, m, g, n =>
    if n = 0 then (m, g)
    else if g.seed = [] then maskRun f (afterDraw m 48) (MaskGen.seeded (drawn m 48)) n
    else if g.blocks + n ≤ seedBlocks then (m, { g with blocks := g.blocks + n })
    else
      let rest := g.blocks + n - seedBlocks
      match g.next with
      | some s => maskRun f m (MaskGen.seeded s) rest
      | none => maskRun f (noteMaskStall (afterDraw m 48)) (MaskGen.seeded (drawn m 48)) rest

/-- The randomness of `n` blocks, with as many seeds as they take. -/
def maskBlocks (m : Mod) (g : MaskGen) (n : Nat) : Mod × MaskGen := maskRun (n / seedBlocks + 3) m g n

/-- Whether a generator can go on without D0. -/
def maskHeld (g : MaskGen) (n : Nat) : Bool :=
  !g.seed.isEmpty && (decide (g.blocks + n ≤ seedBlocks) || (g.next.isSome && decide (n ≤ seedBlocks)))

/-- The next seed of a generator arrives once it is asked for, and takes over at block 65,536. -/
def maskRenew (m : Mod) (g : MaskGen) : Mod × MaskGen :=
  match g.next with
  | some s => if g.blocks = seedBlocks then (m, MaskGen.seeded s) else (m, g)
  | none => if g.blocks < seedAsk then (m, g) else (afterDraw m 48, { g with next := some (drawn m 48) })

/-- A pipeline's generator: P0 to P7 by 0 to 7, T0 and T1 by 8 and 9. -/
def pipeMask (m : Mod) (p : Nat) : MaskGen := tblGet MaskGen.none m.sce.mask p

/-- `n` blocks enter a pipeline, each with its own randomness (08 R213). -/
def countPipe (m : Mod) (p n : Nat) : Mod :=
  let (m1, g) := maskBlocks m (pipeMask m p) n
  { m1 with sce := { m1.sce with mask := tblSet m1.sce.mask p g } }

end Sys2Proof.Machine
end

