-- ==== Sys2Proof/Machine/KeyLines.lean ====
section
/-! DEFINITION. Cache lines, the handle table and its stash, pins, eviction and re-masking (06 R172 to R187). -/

namespace Sys2Proof.Machine

/-- Lines of the line store. -/
def lineTotal : Nat := 393216

/-- Buckets of a bank. -/
def bucketTotal : Nat := 131072

/-- The two buckets of an entry under a seed (06 R180). -/
def bucketsOf (seed : Bytes) (t k i : Nat) : Nat × Nat :=
  let x := leNat (aesEnc seed (tenBytes t ++ [byteOf k] ++ natLe 5 i ++ zeroBytes 8))
  let h1 := x % 2 ^ 17
  let h2 := x / 2 ^ 17 % 2 ^ 17
  (h1, if h2 = h1 then h1 ^^^ 1 else h2)

/-- The buckets of an entry already in a way. -/
def bucketsOfWay (seed : Bytes) (w : Way) : Nat × Nat := bucketsOf seed w.tenant w.kind w.index

/-- Whether a way holds an entry. -/
def wayIs (t k i : Nat) (w : Way) : Bool := w.tenant == t && w.kind == k && w.index == i

/-- The entry in a bucket of a bank, if it is there. -/
def findInBucket (b : Tbl Way) (bucket t k i : Nat) : Option Way :=
  ((List.range 4).filterMap (fun n => tblFind b (bucket * 4 + n))).find? (wayIs t k i)

/-- The line a handle's entry names: active bank, rehash bank while a rehash runs, and the stash (06 R180, R184). -/
def lookupLine (c : KchState) (t k i : Nat) : Option Nat :=
  let (a, b) := bucketsOf c.seed t k i
  let (x, y) := bucketsOf c.newSeed t k i
  let inActive := (findInBucket c.bank a t k i).or (findInBucket c.bank b t k i)
  let inOther := if c.busy then (findInBucket c.other x t k i).or (findInBucket c.other y t k i) else none
  ((inActive.or inOther).or (c.stash.find? (wayIs t k i))).map (fun w => w.line)

/-- A free way of a bucket. -/
def freeWay (b : Tbl Way) (bucket : Nat) : Option Nat :=
  ((List.range 4).map (fun n => bucket * 4 + n)).find? (fun n => (tblFind b n).isNone)

/-- Moving entries until a free way is found, at most `n` more moves: the bank with the path applied (06 R181). `pick`
chooses, at each move, the bucket and way to move; the choice is free (log 19). -/
def kick (seed : Bytes) (pick : Nat → Nat) : Nat → Tbl Way → Way → Nat × Nat → Option (Tbl Way)
  | 0, _, _, _ => none
  | n + 1, b, w, (h1, h2) =>
    let c := pick n
    let bucket := if c % 2 = 0 then h1 else h2
    let place := bucket * 4 + c / 2 % 4
    match tblFind b place with
    | none => some (tblSet b place w)
    | some v =>
      let b' := tblSet b place w
      let (a, z) := bucketsOfWay seed v
      let next := if a = bucket then z else a
      match freeWay b' next with
      | some p => some (tblSet b' p v)
      | none => kick seed pick n b' v (next, next)

/-- A bank with an entry inserted, where room is found within 32 moves (06 R181). -/
def insertInBank (seed : Bytes) (pick : Nat → Nat) (b : Tbl Way) (w : Way) : Option (Tbl Way) :=
  let (h1, h2) := bucketsOfWay seed w
  match freeWay b h1 with
  | some p => some (tblSet b p w)
  | none =>
    match freeWay b h2 with
    | some p => some (tblSet b p w)
    | none => kick seed pick 32 b w (h1, h2)

/-- The cache with an entry in its table, or in its stash when no way is found (06 R181, R184). -/
def insertWay (pick : Nat → Nat) (c : KchState) (w : Way) : KchState :=
  if c.busy then
    match insertInBank c.newSeed pick c.other w with
    | some b => { c with other := b }
    | none => { c with stash := c.stash ++ [w] }
  else
    match insertInBank c.seed pick c.bank w with
    | some b => { c with bank := b }
    | none => { c with stash := c.stash ++ [w] }

/-- KCH_INT_STAT bits that follow from the stash count (06 R181). -/
def stashBits (n : Nat) : W32 :=
  BitVec.ofNat 32 ((if 1 ≤ n then 1 else 0) + (if 224 ≤ n then 2 else 0) + (if 256 ≤ n then 4 else 0))

/-- The stash's interrupt bits follow its count when it grew from `n`. -/
def noteStash (n : Nat) (m : Mod) : Mod :=
  if n < m.kch.stash.length then raiseInt m .kch (stashBits m.kch.stash.length) else m

/-- The block with an entry inserted. -/
def addWay (m : Mod) (w : Way) : Mod :=
  let pick := fun n => Config.freeNat (m.free + n)
  noteStash m.kch.stash.length { m with kch := insertWay pick m.kch w, free := m.free + 32 }

/-- A bank without an entry, and the bucket that emptied. -/
def removeInBank (b : Tbl Way) (t k i : Nat) : Tbl Way × Option Nat :=
  match b.find? (fun p => wayIs t k i p.2) with
  | none => (b, none)
  | some p => (tblErase b p.1, some (p.1 / 4))

/-- A stash entry for a way of a bucket that emptied, the lowest place first: the bank and the stash with it moved
(06 R182). -/
def refillBank (seed : Bytes) (b : Tbl Way) (stash : List Way) (bucket : Nat) : Tbl Way × List Way :=
  let names := fun (w : Way) => let (x, y) := bucketsOfWay seed w; x == bucket || y == bucket
  match stash.findIdx? names, freeWay b bucket with
  | some n, some place =>
    match stash[n]? with
    | some w => (tblSet b place w, stash.eraseIdx n)
    | none => (b, stash)
  | _, _ => (b, stash)

/-- A way that emptied in the active bank takes a stash entry, not where the walker of a rehash has passed (06 R182,
R184). -/
def refillActive (c : KchState) (bucket : Nat) : KchState :=
  if c.busy ∧ bucket < c.moved then c
  else let (b, s) := refillBank c.seed c.bank c.stash bucket; { c with bank := b, stash := s }

/-- A way that emptied in the rehash bank takes one. -/
def refillOther (c : KchState) (bucket : Nat) : KchState :=
  let (b, s) := refillBank c.newSeed c.other c.stash bucket
  { c with other := b, stash := s }

/-- The cache without an entry, wherever it stood (06 R182, R184). -/
def removeWay (c : KchState) (t k i : Nat) : KchState :=
  let (b, e1) := removeInBank c.bank t k i
  let (o, e2) := removeInBank c.other t k i
  let c1 := { c with bank := b, other := o, stash := c.stash.filter (fun w => !wayIs t k i w) }
  let c2 := e1.elim c1 (refillActive c1)
  e2.elim c2 (refillOther c2)

/-! ### The key schedule stores (08 R216) -/

/-- The entries that hold a line zeroed. -/
def zeroSched (m : Mod) (n : Nat) : Mod := { m with sce := { m.sce with sched := m.sce.sched.filter (fun e => e.line != n) } }

/-- A line becomes FREE: it is zeroed and its entry removed (06 R179). -/
def freeLine (m : Mod) (n : Nat) : Mod :=
  match tblFind m.kch.lines n with
  | none => m
  | some l =>
    let c := if l.state = .derived then m.kch else removeWay m.kch l.tenant l.kind l.index
    zeroSched { m with kch := { c with lines := tblErase c.lines n } } n

/-- The lowest FREE line. -/
def firstFree : List (Nat × Line) → Nat → Option Nat
  | [], n => if n < lineTotal then some n else none
  | (k, _) :: r, n => if n < k then some n else firstFree r (k + 1)

/-- A tenant's VALID and FETCHING lines (06 Table 6.5, KCH_TLINE_USED). -/
def tlineUsed (m : Mod) (t : Nat) : Nat := m.kch.lines.countP (fun p => p.2.tenant == t && p.2.state != .derived)

/-- Whether a line may be evicted (06 Table 6.2). -/
def evictable (l : Line) : Bool := l.state = .valid && l.pins.isEmpty

/-- Milliseconds of external time, 32 bits (06 R185). -/
def msStamp (s : W64) : W32 := BitVec.ofNat 32 (nsOf s / 1000000)

/-- A line's age in ms at the present, a stamp ahead of it counting as 0 (06 R185). A difference of 2^31 ms and more modulo
2^32 is taken as ahead (DESIGN CHOICE, log 19: the rule gives no split). -/
def lineAge (m : Mod) (l : Line) : Nat :=
  let d := msStamp (nowT m) - l.stamp
  if d.msb then 0 else d.toNat

/-- The next 16 lines from the hand that count, among those `counts` admits: their numbers and where the hand stops. -/
def handGroup (lines : Tbl Line) (counts : Line → Bool) : Nat → Nat → Nat → List Nat → List Nat × Nat
  | 0, _, pos, acc => (acc.reverse, pos)
  | f + 1, k, pos, acc =>
    if k = 0 then (acc.reverse, pos)
    else
      let next := (pos + 1) % lineTotal
      match tblFind lines pos with
      | some l => if counts l then handGroup lines counts f (k - 1) next (pos :: acc) else handGroup lines counts f k next acc
      | none => handGroup lines counts f k next acc

/-- The victim of a group: the oldest evictable line, the lowest number on a tie (06 R186). -/
def groupVictim (m : Mod) (g : List Nat) : Option Nat :=
  let cand := g.filterMap (fun n => (tblFind m.kch.lines n).bind (fun l => if evictable l then some (n, lineAge m l) else none))
  let best := cand.foldl (fun (b : Option (Nat × Nat)) c =>
    match b with
    | none => some c
    | some x => if x.2 < c.2 ∨ (x.2 = c.2 ∧ c.1 < x.1) then some c else some x) none
  best.map Prod.fst

/-- Groups of 16 from the hand until one has a victim: the victim and the hand (06 R186). -/
def findVictim (m : Mod) (counts : Line → Bool) : Nat → Nat → Option Nat × Nat
  | 0, pos => (none, pos)
  | f + 1, pos =>
    let (g, pos') := handGroup m.kch.lines counts lineTotal 16 pos []
    match groupVictim m g with
    | some v => (some v, pos')
    | none => findVictim m counts f pos'

/-- A line for a tenant: the lowest FREE one, or a victim evicted (06 R186). -/
def takeLine (m : Mod) (t : Nat) : Option Nat × Mod :=
  let own := decide ((tenOf m t).lineMax ≤ tlineUsed m t)
  let counts := fun (l : Line) => if own then l.tenant == t else true
  let evict := fun (m : Mod) =>
    match findVictim m counts (lineTotal / 16 + 1) m.kch.hand with
    | (none, pos) => (none, { m with kch := { m.kch with hand := pos } })
    | (some v, pos) =>
      let m1 := freeLine { m with kch := { m.kch with hand := pos } } v
      (some v, { m1 with kch := { m1.kch with evict := m1.kch.evict + 1 } })
  if own then evict m
  else match firstFree m.kch.lines 0 with
    | some n => (some n, m)
    | none => evict m

/-- A line placed. -/
def setLine (m : Mod) (n : Nat) (l : Line) : Mod := { m with kch := { m.kch with lines := tblSet m.kch.lines n l } }

/-- A line changed, where it is not FREE. -/
def updLine (m : Mod) (n : Nat) (f : Line → Line) : Mod :=
  match tblFind m.kch.lines n with
  | none => m
  | some l => setLine m n (f l)

/-- The value a line holds: the exclusive OR of its shares (06 R177). -/
def lineKey (l : Line) : Bytes := xorBytes l.shareA l.shareB

/-- A line's shares drawn afresh for a key field: KCH's own mask generator (06 R177, R178). -/
def maskedShares (m : Mod) (key : Bytes) : Bytes × Bytes :=
  let r := freeBytesAt m.free 64
  (r, xorBytes r (fitRight 64 key))

/-- A line filled with a key: VALID, masked afresh, stamped (06 Table 6.1, R176). -/
def fillLine (m : Mod) (n : Nat) (attr key : Bytes) : Mod :=
  let (a, b) := maskedShares m key
  let m1 := updLine m n (fun l =>
    { l with
      state := .valid, attr := attr, shareA := a, shareB := b, slot := none, remasked := m.clk, deliveries := 0 })
  { m1 with free := m.free + 64 }

/-! ### Re-masking and delivery (06 R178, 08 R216) -/

/-- Whether a line is due for a new mask. -/
def maskDue (m : Mod) (l : Line) : Bool :=
  l.state != .fetching && (decide (2 ^ 20 ≤ l.deliveries) || decide (l.remasked + 10 * nsPerS ≤ m.clk))

/-- Whether the cache's generator has a value r. -/
def remaskReady (m : Mod) : Bool := !m.rng.halted || maskHeld m.kch.mask 1

/-- A line re-masked: both shares take the same fresh value; schedules of it are zeroed. -/
def remaskLine (m : Mod) (n : Nat) : Mod :=
  match tblFind m.kch.lines n with
  | none => m
  | some l =>
    let (m1, g) := maskBlocks m m.kch.mask 1
    let r := freeBytesAt m1.free 64
    let l' := { l with
      shareA := xorBytes l.shareA r, shareB := xorBytes l.shareB r, remasked := m.clk, remasks := l.remasks + 1, deliveries := 0 }
    zeroSched { m1 with
      free := m1.free + 64
      kch := { m1.kch with lines := tblSet m1.kch.lines n l', mask := g, remask := m1.kch.remask + 1 } } n

/-- A line that is due is re-masked before it delivers. -/
def remaskDue (m : Mod) (n : Nat) : Mod :=
  match tblFind m.kch.lines n with
  | some l => if maskDue m l && remaskReady m then remaskLine m n else m
  | none => m

/-- A line's shares sent over KBUS once more. -/
def sendShares (m : Mod) (n : Nat) : Mod := updLine (remaskDue m n) n (fun l => { l with deliveries := l.deliveries + 1 })

/-- A line's shares in the key schedule store of a pipeline, sent where no entry holds them at the present re-mask count; 16
entries a pipeline, of which a new one replaces the oldest (DESIGN CHOICE, log 47). -/
def loadSched (m : Mod) (p n : Nat) : Mod :=
  let m0 := remaskDue m n
  match tblFind m0.kch.lines n with
  | none => m0
  | some l =>
    let e : KeySched := { pipe := p, line := n, count := l.remasks }
    if m0.sce.sched.contains e then m0
    else
      let own := m0.sce.sched.filter (fun x => x.pipe == p)
      let rest := m0.sce.sched.filter (fun x => x.pipe != p)
      updLine { m0 with sce := { m0.sce with sched := (e :: own.take 15) ++ rest } } n
        (fun l => { l with deliveries := l.deliveries + 1 })

/-! ### Pins -/

/-- The pins of a command released: with a line's last pin its schedules are zeroed; DERIVED lines and lines due for zeroing
become FREE (06 R179, 08 R216). -/
def unpinLine (m : Mod) (tag n : Nat) : Mod :=
  match tblFind m.kch.lines n with
  | none => m
  | some l =>
    let pins := l.pins.erase tag
    if pins.isEmpty && (l.state = .derived || l.zero) then freeLine m n
    else
      let m1 := setLine m n { l with pins := pins }
      if pins.isEmpty then zeroSched m1 n else m1

/-- Every pin of a tag released. -/
def unpinAll (m : Mod) (tag : Nat) : Mod :=
  match cmdOf m tag with
  | none => m
  | some c => updCmd (c.pins.foldl (fun m n => unpinLine m tag n) m) tag (fun c => { c with pins := [] })

/-- A line pinned by a tag at a stamp (06 R172, R185). -/
def pinLine (m : Mod) (tag n : Nat) (s : W64) : Mod :=
  updCmd (updLine m n (fun l => { l with pins := tag :: l.pins, stamp := msStamp s })) tag
    (fun c => { c with pins := n :: c.pins })

/-- Lines pinned (06 Table 6.5). -/
def linesPinned (m : Mod) : Nat := m.kch.lines.countP (fun p => !p.2.pins.isEmpty)

/-- A tenant's lines zeroed: at once where unpinned, otherwise at the last release (06 R179). -/
def zeroTenantLines (m : Mod) (t : Nat) : Mod :=
  (m.kch.lines.filter (fun p => p.2.tenant == t)).foldl (fun m p =>
    if p.2.pins.isEmpty then freeLine m p.1 else updLine m p.1 (fun l => { l with zero := true })) m

/-- The line of one handle zeroed, at its last release where pinned (05 R152). -/
def zeroHandleLine (m : Mod) (h : W64) : Mod :=
  match lookupLine m.kch (hTenant h) (hKind h) (hIndex h) with
  | none => m
  | some n =>
    match tblFind m.kch.lines n with
    | none => m
    | some l => if l.pins.isEmpty then freeLine m n else updLine m n (fun l => { l with zero := true })

/-- The DERIVED line a command pins. -/
def derivedOf (m : Mod) (tag : Nat) : Option (Nat × Line) :=
  m.kch.lines.find? (fun p => p.2.state == .derived && p.2.pins.contains tag)

/-- TO_LINE: a key in the DERIVED line of a command, with a use; the line is allocated, masked and pinned at the first, and
its content replaced and its schedules zeroed after that (05 R158, 06 R172, 09 Table 9.1). The line's number; no line of the
store where none could be taken, which R186 rules out. -/
def toLine (m : Mod) (tag : Nat) (use : LineUse) (attr key : Bytes) : Mod × Nat :=
  match derivedOf m tag, cmdOf m tag with
  | some (n, l), _ =>
    let (a, b) := maskedShares m key
    let l' := { l with
      use := use, attr := attr, shareA := a, shareB := b, remasked := m.clk, remasks := l.remasks + 1, deliveries := 0 }
    (zeroSched { setLine m n l' with free := m.free + 64 } n, n)
  | none, none => (m, lineTotal)
  | none, some c =>
    match takeLine m c.tenant with
    | (none, m1) => (m1, lineTotal)
    | (some n, m1) =>
      let (a, b) := maskedShares m1 key
      let l : Line :=
        { state := .derived, use := use, tenant := c.tenant, kind := 0, index := 0, attr := attr, shareA := a, shareB := b,
          stamp := msStamp c.stamp, pins := [], deliveries := 0, remasked := m1.clk, remasks := 0, slot := none, zero := false }
      (pinLine { setLine m1 n l with free := m1.free + 64 } tag n c.stamp, n)

/-! ### The rehash (06 R183, R184) -/

/-- One entry moved into the rehash bank; one that finds no way there goes to the stash, and where that is full too its line
leaves the cache at its last release (DESIGN CHOICE, log 47). -/
def rehashEntry (m : Mod) (w : Way) : Mod :=
  let pick := fun n => Config.freeNat (m.free + n)
  let m1 := { m with free := m.free + 32 }
  match insertInBank m.kch.newSeed pick m.kch.other w with
  | some b => { m1 with kch := { m1.kch with other := b } }
  | none =>
    if m.kch.stash.length < 256 then
      noteStash m.kch.stash.length { m1 with kch := { m1.kch with stash := m1.kch.stash ++ [w] } }
    else if (tblFind m.kch.lines w.line).elim false (fun l => l.pins.isEmpty) then freeLine m1 w.line
    else updLine m1 w.line (fun l => { l with zero := true })

/-- The walker goes on to the present: buckets of the active bank in ascending order, one each 8 clocks of 1.25 ns. -/
def walk (m : Mod) : Mod :=
  let n := min bucketTotal ((m.clk - m.kch.busyAt) / 10)
  if !m.kch.busy ∨ n ≤ m.kch.moved then m
  else
    let m1 := (m.kch.bank.filter (fun p => decide (p.1 / 4 < n))).foldl (fun m p =>
      let m1 := rehashEntry m p.2
      { m1 with kch := { m1.kch with bank := tblErase m1.kch.bank p.1 } }) m
    { m1 with kch := { m1.kch with moved := n } }

end Sys2Proof.Machine
end

