-- ==== Sys2Proof/Machine/Complete.lean ====
section
/-! DEFINITION. Completions: their bytes, sealing, the writer of each path, parked completions, and the datagrams that
carry them over NCT (03 R67 to R69, R74, R79, R83, R86 to R94). -/

namespace Sys2Proof.Machine

/-! ### Frames that leave on the network -/

/-- A field of an address or next-hop control word (03 Table 3.19). -/
def neValid (e : NetEntry) : Bool := e.ctl.getLsbD 0
def neV6 (e : NetEntry) : Bool := e.ctl.getLsbD 1
def neSvc (e : NetEntry) : Bool := e.ctl.getLsbD 2
def nePort (e : NetEntry) : Nat := (e.ctl.extractLsb' 4 3).toNat
def neVlan (e : NetEntry) : Nat := (e.ctl.extractLsb' 8 12).toNat
def nePlen (e : NetEntry) : Nat := (e.ctl.extractLsb' 24 8).toNat

/-- Address bytes of a family. -/
def famLen (v6 : Bool) : Nat := if v6 then 16 else 4

/-- Whether the first `plen` bits of two addresses agree. -/
def prefixAgree (v6 : Bool) (plen : Nat) (a b : Bytes) : Bool :=
  let w := 8 * famLen v6
  beNat (a.take (famLen v6)) / 2 ^ (w - plen) == beNat (b.take (famLen v6)) / 2 ^ (w - plen)

/-- The next hop for a destination: the longest prefix match (03 R94), of equal ones the first in the table (log 58). -/
def nextHop (m : Mod) (port vlan : Nat) (v6 : Bool) (dst : Bytes) : Option NetEntry :=
  let ok := fun (e : NetEntry) => neValid e && neV6 e == v6 && nePort e == port && neVlan e == vlan &&
    prefixAgree v6 (nePlen e) e.addr dst
  ((tblVals m.nif.nh).filter ok).foldl (fun (b : Option NetEntry) e =>
    match b with
    | none => some e
    | some x => if nePlen x < nePlen e then some e else some x) none

/-- A NET port. -/
def netPortOf (m : Mod) (n : Nat) : NetPort := tblGet NetPort.reset m.nif.port n

/-- Whether a port transmits: enabled, with a MAC (03 Table 3.18). -/
def netPortSends (m : Mod) (n : Nat) : Bool := (netPortOf m n).ctl.getLsbD 0 && !((netPortOf m n).mac == 0)

/-- NCT_DROP counts one more datagram or frame (03 R86). -/
def nctDrop (m : Mod) : Mod := { m with nif := { m.nif with drop := m.nif.drop + 1 } }

/-- The module's own address entry that a received frame or a peer names: valid, same port, VLAN, family and address,
and served in the present role (03 R93). -/
def ownAddress (m : Mod) (port vlan : Nat) (v6 : Bool) (a : Bytes) : Option NetEntry :=
  (tblVals m.nif.addr).find? (fun e => neValid e && neV6 e == v6 && nePort e == port && neVlan e == vlan &&
    e.addr.take (famLen v6) == a.take (famLen v6) && (!neSvc e || (serving m && serveOk m)))

/-- The header of a frame the module sends to a next hop: its own MAC, PCP 0, hop limit 64, DF on IPv4, checksums
filled in (03 R86, R95). -/
def netHdr (m : Mod) (port vlan : Nat) (v6 : Bool) (dst : BitVec 48) : NetHdr :=
  { port := port, vlan := vlan, pcp := 0, srcMac := (netPortOf m port).mac, dstMac := dst, hops := 64, df := !v6,
    sums := true }

/-- A frame sent to a destination through its next hop, or counted in NCT_DROP when none matches (03 R94). -/
def sendFrame (m : Mod) (port vlan : Nat) (v6 : Bool) (dst : Bytes) (o : NetHdr → Output) (sent : Mod → Mod) : Mod :=
  match nextHop m port vlan v6 dst with
  | none => nctDrop m
  | some e => if netPortSends m port then sent (emit m (o (netHdr m port vlan v6 e.mac))) else nctDrop m

/-- A datagram sent to a peer. -/
def sendNct (m : Mod) (peer : NetPeer) (d : Bytes) : Mod :=
  sendFrame m peer.port peer.vlan peer.v6 peer.peer (fun h => .nct h peer d) (fun m => pmcEvent m 0x1008 none)

/-- Largest UDP payload of a frame on a port (03 R86). -/
def nctPayloadMax (m : Mod) (peer : NetPeer) : Nat :=
  ((netPortOf m peer.port).ctl.extractLsb' 16 14).toNat - 14 - (if peer.vlan = 0 then 0 else 4) - 4 -
    (if peer.v6 then 40 else 20) - 8

/-! ### NCT sessions -/

/-- A tenant's tags available (03 Table 3.13, TEN_CREDIT). -/
def freeTagsOf (m : Mod) (t : Nat) : Nat := min ((tenOf m t).cap - tagsOf m t) (16384 - tagsUsed m)

/-- WINDOW as the module advertises it (03 R90). -/
def nctWindow (m : Mod) (t : Nat) : Nat := min (tenOf m t).tnct (freeTagsOf m t)

/-- NCT transport state of a session about which nothing is kept: the first DATA datagram is accepted whatever its DSN
(12 R341, 19 Table 19.5). -/
def NctSess.start (peer : NetPeer) : NctSess :=
  { peer := peer, ackDsn := 0, bitmap := 0, nextDsn := 1, sent := [], held := [], heldSince := 0, outstanding := 0,
    window := none, ackDue := none, lastReset := none, fresh := true }

/-- NCT transport state of a session that opens: DSNs start at 1 (03 R89). -/
def NctSess.opened : NctSess :=
  { NctSess.start { port := 0, vlan := 0, v6 := false, own := [], peer := [], udp := 0 } with fresh := false }

/-- The header of an NCT datagram (03 Table 3.15). SACK bit i stands for DSN `ackDsn + 2 + i`. -/
def nctHeader (type t sid dsn ackDsn sack window count : Nat) : Bytes :=
  natLe 2 0x4E6B ++ [1, byteOf type] ++ natLe 2 t ++ natLe 2 sid ++ natLe 4 dsn ++ natLe 4 ackDsn ++ natLe 4 sack ++
    natLe 2 window ++ [byteOf count, 0]

/-- SACK of a session: its bitmap, whose bit i stands for DSN `ackDsn + 1 + i`, without its first bit. -/
def nctSack (n : NctSess) : Nat := n.bitmap / 2 % 2 ^ 32

/-- Transport state of a session placed. -/
def setNct (m : Mod) (t sid : Nat) (n : NctSess) : Mod :=
  { m with nif := { m.nif with sess := tblSet m.nif.sess (sessKey t sid) n } }

/-- Transport state of a session, if it has any. -/
def nctOf (m : Mod) (t sid : Nat) : Option NctSess := tblFind m.nif.sess (sessKey t sid)

/-- A completion as an NCT record: 64 bytes, then a result that does not fit inline, padded to 8 (03 R87). -/
def nctRecord (c : Cpl) : Bytes := c.bytes ++ padTo 8 c.res

/-- A completion leaves: its command's latency is sampled where the rule's end point lies (03 R98). -/
def sampleCpl (m : Mod) (c : Cpl) : Mod :=
  match c.entered with
  | none => m
  | some at' =>
    let t := match c.path with | .admin _ => none | _ => some c.tenant
    let lat := m.clk - at'
    let m1 := evrSample m 0x0001 t lat
    if c.opcode = 0x0201 ∨ c.opcode = 0x0202 then evrSample m1 0x0002 t lat else m1

/-- A DATA datagram of completions, sent now and kept until acknowledged (03 R91). -/
def sendHeld (m : Mod) (t sid : Nat) : Mod :=
  match nctOf m t sid with
  | none => m
  | some n =>
    if n.held = [] then m
    else
      let recs := (n.held.map nctRecord).flatten
      let w := nctWindow m t
      let d := nctHeader 1 t sid n.nextDsn n.ackDsn (nctSack n) w n.held.length ++ recs
      let s : NctSent :=
        { dsn := n.nextDsn, recs := recs, count := n.held.length, due := m.clk + m.nif.rto * 1000,
          gap := m.nif.rto * 1000, tries := 0 }
      let n' :=
        { n with
          nextDsn := n.nextDsn + 1, sent := n.sent ++ [s], held := [], window := some w, ackDue := none,
          outstanding := n.outstanding - n.held.length }
      n.held.foldl sampleCpl (sendNct (setNct m t sid n') n.peer d)

/-- A completion that fits no frame of its port: no datagram carries it; NCT_DROP counts it and its capsule is
outstanding no more (03 R86; log 58). -/
def nctTooLong (m : Mod) (sid : Nat) (c : Cpl) : Mod :=
  nctDrop (match nctOf m c.tenant sid with
    | none => m
    | some n => setNct m c.tenant sid { n with outstanding := n.outstanding - 1 })

/-- A completion handed to NCT: held with others of its session while they fit, and sent (03 R92). -/
def nctComplete (m : Mod) (peer : NetPeer) (sid : Nat) (c : Cpl) : Mod :=
  if nctPayloadMax m peer < 24 + (nctRecord c).length then nctTooLong m sid c
  else if sid = 0 then
    sampleCpl (sendNct m peer (nctHeader 1 c.tenant 0 0 0 0 (nctWindow m c.tenant) 1 ++ nctRecord c)) c
  else
    let n := (nctOf m c.tenant sid).getD (NctSess.start peer)
    let n := { n with peer := peer }
    let fits := decide (24 + (n.held.map nctRecord).flatten.length + (nctRecord c).length ≤ nctPayloadMax m peer ∧
      n.held.length < 255)
    let m1 := setNct m c.tenant sid n
    let m2 := if fits then m1 else sendHeld m1 c.tenant sid
    let n2 := (nctOf m2 c.tenant sid).getD n
    let n3 :=
      { n2 with
        held := n2.held ++ [c], heldSince := if n2.held = [] then m2.clk else n2.heldSince }
    let m3 := setNct m2 c.tenant sid n3
    if m.nif.coalesce = 0 then sendHeld m3 c.tenant sid else m3

/-! ### Completion bytes -/

/-- PATH of a completion (03 Table 3.4). -/
def pathCode : Path → Nat
  | .qp q => q
  | .fifo => 4
  | .nct _ _ => 8
  | .admin _ => 12

/-- The completion of a command, sealed where its capsule passed step 8 (03 R67, R68). -/
def buildCpl (c : Cmd) (tag : Option Nat) (status : W16) (result : Bytes) (dup : Bool) : Cpl :=
  let n := result.length
  let ptr := if c.sealKey.isSome then decide (24 < n) else decide (40 < n)
  let flags := (if dup then 8 else 0) + (if c.sealKey.isSome then 4 else 0) + (if ptr then 2 else 0)
  let entered := if tag.isSome then some c.entered else none
  let hdr := le16 status ++ natLe 2 n ++ natLe 2 c.sqHead ++ [byteOf (pathCode c.path), byteOf flags] ++
    le64 c.reqId ++ le64 c.seq
  match c.sealKey with
  | none =>
    { tenant := c.tenant, path := c.path, bytes := hdr ++ fitRight 40 (if ptr then [] else result),
      resAddr := c.resAddr, res := if ptr then result else [], tag := tag, opcode := c.opcode, entered := entered }
  | some k =>
    let nonce := [2, 0] ++ natLe 2 c.session ++ le64 c.seq
    let (ct, gt) := gcmEnc k nonce hdr result
    { tenant := c.tenant, path := c.path, bytes := hdr ++ fitRight 24 (if ptr then [] else ct) ++ gt,
      resAddr := c.resAddr, res := if ptr then ct else [], tag := tag, opcode := c.opcode, entered := entered }

/-- A completion written after a Squall: unsealed, ST_DEVICE_ERASED, no result (03 R68). -/
def erasedCpl (c : Cpl) : Cpl :=
  let flags := byteOf (getNat8 c.bytes 7 / 8 % 2 * 8)
  { c with
    bytes := le16 stDeviceErased ++ natLe 2 0 ++ sliceOf c.bytes 4 3 ++ [flags] ++ sliceOf c.bytes 8 16 ++ zeroBytes 40
    res := [] }

/-- A completion's bytes with bit 7 of FLAGS. -/
def cplWith (b : Bytes) (p : Bool) : Bytes :=
  b.take 7 ++ [(getByte b 7 &&& 0x7F) ||| (if p then 0x80 else 0)] ++ b.drop 8

/-! ### Completion writers -/

/-- Whether a completion queue has no room (03 R72). -/
def cqFull (head tail size : Nat) : Bool := size == 0 || (tail + 1) % size == head

/-- The result of a completion written to its buffer, before the completion (03 R69). A buffer at address 0 is written
like any other (log 58). -/
def writeResult (m : Mod) (p : Port) (c : Cpl) : Mod :=
  if c.res = [] then m else emit m (.hostWrite p c.resAddr c.res)

/-- A completion written to a queue pair's completion queue, and its vector signalled (03 R74, Table 3.7). -/
def writeQp (m : Mod) (q : Nat) (c : Cpl) : Mod :=
  let x := qpOf m c.tenant q
  let m1 := sampleCpl (writeResult m x.owner c) c
  let m2 := emit m1 (.hostWrite x.owner (x.cqBase + BitVec.ofNat 64 (64 * x.cqTail)) (cplWith c.bytes x.phase))
  let wrap := decide (x.cqSize ≤ x.cqTail + 1)
  let m3 := updQp m2 c.tenant q (fun y =>
    { y with cqTail := if wrap then 0 else y.cqTail + 1, phase := if wrap then !y.phase else y.phase })
  if x.intEn then signalOn m3 c.tenant x.owner q else m3

/-- A completion placed in CPL_POP; its source is signalled when it was empty (03 R79, 02 Table 2.11). -/
def pushFifo (m : Mod) (c : Cpl) : Mod :=
  let h := tenOf m c.tenant
  let m1 := sampleCpl (writeResult m h.fifoPort c) c
  let empty := h.fifo.cpl = [] ∧ h.fifo.left = []
  let m2 := updFifo m1 c.tenant (fun f => { f with cpl := f.cpl ++ [cplWith c.bytes true] })
  if empty then signalOn m2 c.tenant h.fifoPort 4 else m2

/-- A completion written to an admin completion queue (03 R487). -/
def writeAdmin (m : Mod) (p : Port) (c : Cpl) : Mod :=
  let x := admqOf m p
  let m1 := sampleCpl (writeResult m p c) c
  let m2 := emit m1 (.hostWrite p (x.cqBase + BitVec.ofNat 64 (64 * x.cqTail)) (cplWith c.bytes x.phase))
  let wrap := decide (x.cqSize ≤ x.cqTail + 1)
  let m3 := updAdmq m2 p (fun y =>
    { y with cqTail := if wrap then 0 else y.cqTail + 1, phase := if wrap then !y.phase else y.phase })
  msixPf m3 p 0

/-- Whether a completion's queue has room (03 R72, R79, R487): CPL_POP holds 512 words. -/
def hasRoom (m : Mod) (c : Cpl) : Bool :=
  match c.path with
  | .qp q => let x := qpOf m c.tenant q; !cqFull x.cqHead x.cqTail x.cqSize
  | .fifo => let f := (tenOf m c.tenant).fifo; decide (f.left.length + 8 * (f.cpl.length + 1) ≤ 512)
  | .nct _ _ => true
  | .admin p => let x := admqOf m p; !cqFull x.cqHead x.cqTail x.cqSize

/-- Whether the port a completion needs takes posted writes; in the direct FIFO only a result buffer needs one (01 Table
1.3; a port without link takes none, log 59). -/
def portDrains (m : Mod) (c : Cpl) : Bool :=
  match c.path with
  | .qp q => portUp m (qpOf m c.tenant q).owner
  | .fifo => c.res == [] || portUp m (tenOf m c.tenant).fifoPort
  | .nct _ _ => true
  | .admin p => portUp m p

/-- Whether a completion can be written on its path now. -/
def canWrite (m : Mod) (c : Cpl) : Bool := hasRoom m c && portDrains m c

/-- A completion written on its path. -/
def writeCpl (m : Mod) (c : Cpl) : Mod :=
  match c.path with
  | .qp q => writeQp m q c
  | .fifo => pushFifo m c
  | .nct peer sid => nctComplete m peer sid c
  | .admin p => writeAdmin m p c

/-- A tenant's completion waits: for a full queue it sets CQ_STALL (03 R84). -/
def noteStall (m : Mod) (c : Cpl) : Mod := if hasRoom m c then m else raiseTen m c.tenant 0x10

/-- A tenant completion parked because its queue is full or its port stalled (01 R25, Table 1.3). -/
def park (m : Mod) (c : Cpl) : Mod :=
  noteStall (updTen m c.tenant (fun h => { h with parked := h.parked ++ [c] })) c

/-- A completion on its way: written, parked, or (with no room at all) left with its tag. True when it left the tag. -/
def deliver (m : Mod) (c : Cpl) : Mod × Bool :=
  if canWrite m c then (writeCpl m c, true)
  else match c.path with
    | .admin _ => (m, false)
    | _ => if (tenOf m c.tenant).parked.length < 256 then (park m c, true) else (noteStall m c, false)

/-- The tenant a command's work is attributed to. -/
def workTenant (c : Cmd) : Option Nat := if c.admin then none else some c.tenant

/-- What the counters, the recorder and the health report see of a command that completes (17 Tables 17.1, 17.4, 17.6). -/
def noteDone (m : Mod) (c : Cmd) (status : W16) : Mod :=
  let t := workTenant c
  let m1 := pmcEvent m (if status = stOk then 0x1001 else 0x1002) t
  let m2 := evrSample m1 0x0050 t status.toNat
  let recent := m2.hlt.finished.filter (fun x => decide (m2.clk ≤ x + 100000000))
  { m2 with hlt := { m2.hlt with finished := recent ++ [m2.clk] } }

/-- A command's completion waits with its tag: the command is kept as it finished, behind those that finished before
(03 R75, R487). -/
def waitDone (m : Mod) (tag : Nat) (c : Cmd) (status : W16) (result : Bytes) (dup : Bool) : Mod :=
  let m1 := setCmd m tag { c with phase := .done, outcome := some (status, result), dup := dup, scratch := [], pipes := [] }
  { m1 with cmq := { m1.cmq with waiting := m1.cmq.waiting.erase tag ++ [tag] } }

/-- The command at a tag ends: its completion leaves, or waits with the tag when there is no room (03 R81, R487). A
duplicate gets the whole result remembered, whatever its own RESULT_SIZE (log 58). -/
def endOne (m : Mod) (tag : Nat) (status : W16) (result : Bytes) (dup : Bool) : Mod :=
  match cmdOf m tag with
  | none => m
  | some c =>
    let m1 := noteDone (unpinAll m tag) c status
    let (m2, gone) := deliver m1 (buildCpl c (some tag) status result dup)
    if gone then dropCmd m2 tag
    else match cmdOf m2 tag with
      | none => m2
      | some c => waitDone m2 tag c status result dup

/-- The tags that wait as duplicates of a command (01 R29). -/
def dupsOf (m : Mod) (tag : Nat) : List Nat :=
  m.cmq.cmds.filterMap (fun p => if p.2.phase = .dup tag then some p.1 else none)

/-- A command completes: its completion is handed to the completion writer, and every duplicate that waits for it
receives a copy (03 R68, R83, 01 R29). -/
def complete (m : Mod) (tag : Nat) (status : W16) (result : Bytes) : Mod :=
  let dups := dupsOf m tag
  dups.foldl (fun m d => endOne m d status result true) (endOne m tag status result false)

/-- The first parked completion for a queue or FIFO that has room now, and those that stay. -/
def nextParked (m : Mod) : List Cpl → List Cpl → Option (Cpl × List Cpl)
  | _, [] => none
  | seen, c :: r => if canWrite m c then some (c, seen.reverse ++ r) else nextParked m (c :: seen) r

/-- Parked completions of a tenant written while their queues have room (03 R74, R79). -/
def drainParked (t : Nat) : Nat → Mod → Mod
  | 0, m => m
  | f + 1, m =>
    match nextParked m [] (tenOf m t).parked with
    | none => m
    | some (c, rest) => drainParked t f (writeCpl (updTen m t (fun h => { h with parked := rest })) c)

/-- A waiting completion delivered where there is room now. -/
def drainTag (m : Mod) (tag : Nat) : Mod :=
  match cmdOf m tag with
  | none => m
  | some c =>
    match c.outcome with
    | none => m
    | some (st, res) =>
      let (m1, gone) := deliver m (buildCpl c (some tag) st res c.dup)
      if gone then dropCmd m1 tag else m

/-- Completions that wait with their tags delivered while there is room, as they finished (03 R75, R487, 01 R25). -/
def drainDone (m : Mod) : Mod := m.cmq.waiting.foldl drainTag m

/-- Room appeared in a tenant's completion queues: parked completions first, then those that wait with their tags. -/
def drainTenant (m : Mod) (t : Nat) : Mod := drainDone (drainParked t 256 m)

end Sys2Proof.Machine
end

