-- ==== Sys2Proof/Machine/Ready.lean ====
section
/-! DEFINITION. The scheduler's lists: ready tags by level and tenant with their deficits, ageing, and the delay lists
(04 R99 to R112). -/

namespace Sys2Proof.Machine

/-! ### Ready lists -/

/-- The ring place of the admin queues, which take their turns at level 7 as one more tenant (DESIGN CHOICE, log 25). -/
def adminPlace : Nat := 4096

/-- The ring place a command's tags stand in. -/
def placeOf (c : Cmd) : Nat := if c.admin then adminPlace else c.tenant

/-- The weight of a ring place; the admin place has the reset weight (DESIGN CHOICE, log 25). -/
def weightOf (m : Mod) (place : Nat) : Nat := if place = adminPlace then 16 else (tenOf m place).weight

/-- The ring of a level, head first. -/
def ringAt (m : Mod) (l : Nat) : List RingPlace := tblGet [] m.sch.rings l

/-- The block with the ring of a level changed. -/
def setRing (m : Mod) (l : Nat) (r : List RingPlace) : Mod :=
  { m with sch := { m.sch with rings := tblSet m.sch.rings l r } }

/-- A tag at the tail of its tenant's list in a ring; the tenant joins at the tail with a deficit of 0 (04 R102). -/
def ringJoin (place tag : Nat) : List RingPlace → List RingPlace
  | [] => [{ tenant := place, deficit := 0, visited := false, tags := [tag] }]
  | p :: r => if p.tenant = place then { p with tags := p.tags ++ [tag] } :: r else p :: ringJoin place tag r

/-- A tag taken out of a ring, its tenant with it when it was the last one (04 R102). -/
def ringLeave (tag : Nat) (r : List RingPlace) : List RingPlace :=
  (r.map (fun p => { p with tags := p.tags.erase tag })).filter (fun p => !p.tags.isEmpty)

/-- A tag becomes ready at a level at the present instant (04 R100, R101). -/
def makeReady (m : Mod) (tag l : Nat) : Mod :=
  match cmdOf m tag with
  | none => m
  | some c =>
    updCmd (setRing m l (ringJoin (placeOf c) tag (ringAt m l))) tag
      (fun c => { c with phase := .ready l m.clk, level := l })

/-- A tag taken off the ready lists. -/
def leaveReady (m : Mod) (tag : Nat) : Mod :=
  match cmdOf m tag with
  | none => m
  | some c =>
    match c.phase with
    | .ready l _ => setRing m l (ringLeave tag (ringAt m l))
    | _ => m

/-- The level of a command at its acceptance (04 R99). -/
def levelOf (m : Mod) (c : Cmd) : Nat := if c.admin then 7 else min c.prio (tenOf m c.tenant).maxPrio

/-- Ready tags at a level (04 Table 4.7, SCH_READY). -/
def readyCount (m : Mod) (l : Nat) : Nat := (ringAt m l).foldl (fun a p => a + p.tags.length) 0

/-- The highest level that holds a ready tag. -/
def topLevel (m : Mod) : Option Nat := ((List.range 8).reverse).find? (fun l => decide (0 < readyCount m l))

/-- The image that runs: the one in the slot chosen at the start. -/
def runningImage (m : Mod) : Bytes := (if m.txp.slot = .a then m.dur.imgA else m.dur.imgB).image

/-- Cost units of a dispatch (04 R102, R118): of the opcode's descriptor in the image that runs, 40 for PIN_TRANSLATE, 4
when a tag comes back from PKE. -/
def costOf (m : Mod) (c : Cmd) : Nat :=
  if c.outcome.isSome then 4
  else if c.opcode = 0x0201 then 40
  else Config.opcodeCost (runningImage m) c.opcode % 512 + 1

/-- Cost of the tag at the head of a place. -/
def headCost (m : Mod) (p : RingPlace) : Nat := (p.tags.head?.bind (cmdOf m)).elim 1 (costOf m)

/-- A ring after its head place leaves the visit: removed when it has no tag, otherwise moved to the tail (04 R102). -/
def endVisit (p : RingPlace) (rest : List RingPlace) : List RingPlace :=
  if p.tags.isEmpty then rest else rest ++ [{ p with visited := false }]

/-- Deficit round robin over a ring: the tag dispatched and the ring after it (04 R102). -/
def ringServe (m : Mod) : Nat → List RingPlace → Option (Nat × List RingPlace)
  | 0, _ => none
  | _, [] => none
  | f + 1, p :: rest =>
    let p1 :=
      if p.visited then p else { p with deficit := p.deficit + weightOf m p.tenant * m.sch.quantum, visited := true }
    match p1.tags with
    | [] => ringServe m f rest
    | tag :: tags =>
      if headCost m p1 ≤ p1.deficit then
        let p2 := { p1 with deficit := p1.deficit - headCost m p1, tags := tags }
        if tags.isEmpty then some (tag, rest)
        else if headCost m p2 ≤ p2.deficit then some (tag, p2 :: rest)
        else some (tag, endVisit p2 rest)
      else ringServe m f (endVisit p1 rest)

/-- The tag SCH grants next, its lists after the grant (04 R100, R102). -/
def chooseTag (m : Mod) : Option (Nat × Mod) :=
  (topLevel m).bind (fun l =>
    let r := ringAt m l
    (ringServe m (513 * (r.length + 1)) r).map (fun x => (x.1, setRing m l x.2)))

/-! ### Contexts -/

/-- Whether a command in a phase holds a context (04 R113, R116, R118). -/
def holdsCtx : Phase → Bool
  | .running | .keys | .slot _ | .commit _ | .space | .verify | .drain | .twin | .compact | .count _ _ => true
  | .gate | .ready _ _ | .job | .pke | .dup _ | .done => false

/-- Whether a context holds a command. -/
def ctxBusy (m : Mod) (core ctx : Nat) : Bool :=
  m.cmq.cmds.any (fun p => p.2.core == core && p.2.ctx == ctx && holdsCtx p.2.phase)

/-- Contexts that hold a command (04 Table 4.8). -/
def ctxCount (m : Mod) : Nat := m.cmq.cmds.countP (fun p => holdsCtx p.2.phase)

/-! ### Delay lists -/

/-- The partition of a timer and its size (04 Table 4.2). -/
def TimerKind.part : TimerKind → Nat × Nat
  | .system _ => (1, 16)
  | .evr _ => (2, 64)
  | .budget _ => (3, 16384)
  | .key _ => (4, 48048)
  | .blob _ => (5, 1024)

/-- Timers of a partition. -/
def partTimers (m : Mod) (part : Nat) : List Timer := m.sch.timers.filter (fun t => t.kind.part.1 == part)

/-- Timers before another in firing order: due instant, then Table 4.2, then insertion (04 R108). -/
def timerBefore (a b : Timer) : Bool :=
  decide (a.due.toNat < b.due.toNat) ||
    (a.due == b.due && (decide (a.kind.part.1 < b.kind.part.1) ||
      (a.kind.part.1 == b.kind.part.1 && decide (a.order < b.order))))

/-- The first of a list of timers in firing order. -/
def firstTimer (l : List Timer) : Option Timer :=
  l.foldl (fun (b : Option Timer) t =>
    match b with
    | none => some t
    | some x => if timerBefore t x then some t else some x) none

/-- The last of a list of timers in firing order. -/
def lastTimer (l : List Timer) : Option Timer :=
  l.foldl (fun (b : Option Timer) t =>
    match b with
    | none => some t
    | some x => if timerBefore x t then some t else some x) none

/-- A timer placed in its partition, which has room. -/
def putTimer (m : Mod) (t : Timer) : Mod :=
  let l := m.sch.timers ++ [t]
  { m with sch := { m.sch with timers := l, order := max m.sch.order (t.order + 1), tmrHwm := max m.sch.tmrHwm l.length } }

/-- A key-schedule instant placed on the overflow list (04 R111). -/
def putOverflow (m : Mod) (t : Timer) : Mod :=
  raiseInt { m with sch := { m.sch with overflow := m.sch.overflow ++ [t], order := m.sch.order + 1 } } .sch 1

/-- A timer inserted; a full partition acts as 04 R111 states. -/
def insTimer (m : Mod) (kind : TimerKind) (due : W64) : Mod :=
  let t : Timer := { kind := kind, due := due, order := m.sch.order, placed := m.clk }
  let (part, size) := kind.part
  let held := partTimers m part
  if held.length < size then putTimer m t
  else if part ≠ 4 then m
  else match lastTimer held with
    | none => m
    | some x =>
      if x.due.toNat < due.toNat then putOverflow m t
      else
        let m1 := { m with sch := { m.sch with timers := m.sch.timers.erase x } }
        putTimer (putOverflow m1 x) t

/-- Timers of a kind removed; a freed key-schedule entry takes the earliest overflow instant (04 R111). -/
def refillTimers : Nat → Mod → Mod
  | 0, m => m
  | f + 1, m =>
    match firstTimer m.sch.overflow with
    | none => m
    | some x =>
      if (partTimers m 4).length < 48048 then
        refillTimers f (putTimer { m with sch := { m.sch with overflow := m.sch.overflow.erase x } } x)
      else m

/-- Timers removed that a test names. -/
def dropTimers (m : Mod) (p : TimerKind → Bool) : Mod :=
  let m1 := { m with sch := { m.sch with
    timers := m.sch.timers.filter (fun t => !p t.kind), overflow := m.sch.overflow.filter (fun t => !p t.kind) } }
  refillTimers m.sch.overflow.length m1

/-- One timer taken off the lists as it fires. -/
def takeTimer (m : Mod) (t : Timer) : Mod :=
  refillTimers 1 { m with sch := { m.sch with timers := m.sch.timers.erase t } }

/-- The tick edge reached: whole microseconds of external time (04 R108). -/
def tickT (m : Mod) : W64 := t64Of (extNs m / 1000 * 1000)

/-- The instant of that edge. -/
def tickClk (m : Mod) : Nat := m.clk - extNs m % 1000

/-- Whether a timer fires at the tick edge reached: due, and the edge later than its insertion and than the last step of
time (04 R108, R109). -/
def fires (m : Mod) (t : Timer) : Bool :=
  decide (t.due.toNat ≤ (tickT m).toNat ∧ max t.placed m.sch.stepAt < tickClk m)

/-- The timer that fires next: of those that fire, the first in firing order, whatever its partition (04 R108). -/
def nextTimer (m : Mod) : Option Timer := firstTimer (m.sch.timers.filter (fires m))

/-- That timer where it is of a kind. -/
def firing (m : Mod) (k : TimerKind) : Option Timer := (nextTimer m).bind (fun t => if t.kind = k then some t else none)

/-- That timer where it is of a partition. -/
def dueTimer (m : Mod) (part : Nat) : Option Timer :=
  (nextTimer m).bind (fun t => if t.kind.part.1 = part then some t else none)

end Sys2Proof.Machine
end

