-- ==== Sys2Proof/Machine/Effects.lean ====
section
/-! DEFINITION. What a journal record's effects do to durable state (14 R366), and what follows on the unit that applies
them. -/

namespace Sys2Proof.Machine

/-! ### Durable state -/

/-- Whether a key state or budget number belongs to a tenant. -/
def ofTenant (t : Nat) (handle : Nat) : Bool := handle / 2 ^ 52 == t

/-- A budget table with one budget set or removed (09 R252). -/
def budSet (b : Tbl Budget) (h : W64) : Option Budget → Tbl Budget
  | none => tblErase b h.toNat
  | some x => tblSet b h.toNat x

/-- A budget created or replaced at its commit: with WINDOW unchanged the count of that moment is kept, otherwise counting
restarts at 0 in the window that holds the command's stamp (09 R252). -/
def budgetSet (b : Tbl Budget) (h : W64) (limit window : Nat) (s : W64) : Tbl Budget :=
  let x : Budget := { limit := limit, window := window, current := s.toNat / 2 ^ 30 / max 1 window, count := 0, spent := none }
  tblSet b h.toNat (match tblFind b h.toNat with
    | some old => if old.window = window then { old with limit := limit } else x
    | none => x)

/-- The durable state without what closing a tenant removes (12 R324). The epoch counter stays, and an offer for its
hour (R340). -/
def closedDur (d : Durable) (t : Nat) : Durable :=
  { d with
    ten := tblSet d.ten t { Tenant.none with epoch := (tenantIn d t).epoch, offer := (tenantIn d t).offer }
    kst := d.kst.filter (fun p => !ofTenant t p.1)
    sched := d.sched.filter (fun p => !ofTenant t p.1)
    bud := d.bud.filter (fun p => !ofTenant t p.1)
    sess := d.sess.filter (fun p => !(p.1 / 65536 == t))
    reqids := d.reqids.filter (fun e => !(e.key == t))
    dom := tblErase d.dom t
    rt := tblErase d.rt t
    snaps := tblErase d.snaps t }

/-- The durable state with a snapshot's sections installed (12 R341). -/
def restoredDur (d : Durable) (i : SnapImage) : Durable :=
  let d1 :=
    { d with
      sess := i.sess.foldl (fun a p => tblSet a p.1 p.2) (d.sess.filter (fun p => !(p.1 / 65536 == i.tenant)))
      bud := i.bud.foldl (fun a p => tblSet a p.1 p.2) (d.bud.filter (fun p => !ofTenant i.tenant p.1))
      reqids := d.reqids.filter (fun e => !(e.key == i.tenant)) ++ i.reqids }
  match i.rec_ with
  | none => d1
  | some r =>
    { d1 with
      ten := tblSet d1.ten i.tenant r
      kst := i.kst.foldl (fun a p => tblSet a p.1 p.2) (d1.kst.filter (fun p => !ofTenant i.tenant p.1))
      rt := tblSet d1.rt i.tenant i.routes
      dom := tblSet d1.dom i.tenant i.dom }

/-- A tenant's epoch counter programmed up to `n` bits, as far as every bit verifies (05 R137, R138; log 53). -/
def otpUpTo (o : Tbl Nat) (t n : Nat) : Nat :=
  let k := tblGet 0 o t
  ((List.range (n - k)).find? (fun i => !Config.otpHolds t (k + i + 1))).elim (max n k) (fun i => k + i)

/-- Whether a bit of that programming fails. -/
def otpStuck (o : Tbl Nat) (t n : Nat) : Bool := decide (otpUpTo o t n < n)

/-- One effect on durable state. -/
def effDur (d : Durable) : Effect → Durable
  | .tenant t r => { d with ten := tblSet d.ten t r }
  | .epoch t n => { d with otp := tblSet d.otp t (otpUpTo d.otp t n) }
  | .kst h e => { d with kst := tblSet d.kst h.toNat e }
  | .dropKeys t =>
    { d with
      kst := d.kst.filter (fun p => !ofTenant t p.1), bud := d.bud.filter (fun p => !ofTenant t p.1)
      sched := d.sched.filter (fun p => !ofTenant t p.1) }
  | .schedule h due => { d with sched := d.sched ++ [(h.toNat, due)] }
  | .fired h due => { d with sched := d.sched.erase (h.toNat, due) }
  | .budget h b => { d with bud := budSet d.bud h b }
  | .budgetSet h l w s => { d with bud := budgetSet d.bud h l w s }
  | .session k s => { d with sess := tblSet d.sess k s }
  | .closeSession k => { d with sess := tblErase d.sess k }
  | .domain k r =>
    { d with dom := tblSet d.dom k r, nextChal := r.chal.foldl (fun a p => if p.2.localOnly then a else max a (p.1 + 1)) d.nextChal }
  | .routes t r _ => { d with rt := tblSet d.rt t r }
  | .closeTenant t => closedDur d t
  | .restored i => restoredDur d i
  | .timeCfg c => { d with tcfg := c }
  | .revert en hold => { d with revertEn := en, revertHold := hold }
  | .lapse t => updTenant d t (fun x => { x with rerootArmed := none })
  | .saved t r i => updTenant { d with snaps := tblSet d.snaps t i } t (fun x => { x with snapRef := some r })
  | .paired _ _ _ => { d with revertEn := false }
  | .blob _ _ _ | .zeroKey _ | .consumed _ _ | .resumed _ | .timeSet _ _ | .image _ _ _ _
  | .calibration _ | .maint _ | .evrClear | .unpaired | .snapshot _ | .promote _ | .portResult _ _ | .readmit
  | .release => d

/-- Durable state as the records issued so far leave it, committed or not (05 R153, 12 R320; log 15). -/
def projDur (m : Mod) : Durable :=
  ((m.jnl.issued ++ m.jnl.waiting).map (fun i => i.rcd.effects)).flatten.foldl effDur m.dur

/-- An effect at its commit: a DESTROYED mark takes the record's commit stamp (05 R150). -/
def stampedEff (s : W64) : Effect → Effect
  | .kst h e => .kst h { e with destroyed := e.destroyed.map (fun _ => s) }
  | e => e

/-! ### Blob writes (06 R176) -/

/-- A blob write issued, counted (06 Table 6.7). -/
def issueBlob (m : Mod) (w : PendWrite) : Mod :=
  emit { m with bsx := { m.bsx with blobWrite := m.bsx.blobWrite + 1 } } (.hostWrite w.port (BitVec.ofNat 64 w.addr) w.bytes)

/-- A blob write with its place: issued where its port has link, otherwise held in a pending-write entry, or in its applied
record while none is free. -/
def placeBlob (m : Mod) (w : PendWrite) : Mod :=
  if portUp m w.port then issueBlob m w
  else if m.bsx.pend.length < 4096 then { m with bsx := { m.bsx with pend := m.bsx.pend ++ [w] } }
  else { m with bsx := { m.bsx with held := m.bsx.held ++ [w] } }

/-- A committed blob written at its index; windows that do not reach it are counted (06 R176). -/
def writeBlob (m : Mod) (t i : Nat) (b : Bytes) : Mod :=
  match blobAddr m t i with
  | none => raiseInt { m with bsx := { m.bsx with replGap := m.bsx.replGap + 1 } } .bsx 0x10
  | some (p, a) => placeBlob m { tenant := t, index := i, port := p, addr := a, bytes := b }

/-- Held blob writes reissued, the same bytes to the same address, where their port has link; entries that free take writes
that applied records hold (06 R176). -/
def reissueBlobs (m : Mod) : Mod :=
  let m1 := { m with bsx := { m.bsx with
    pend := m.bsx.pend.filter (fun w => !portUp m w.port), held := [] } }
  (m.bsx.pend.filter (fun w => portUp m w.port) ++ m.bsx.held).foldl placeBlob m1

/-- A new key of kind 0x1 held in a VALID line at its command's stamp (06 R176); not with the stash full (R181). -/
def cacheBlob (m : Mod) (t index : Nat) (b : Bytes) (s : W64) : Mod :=
  let x := tenantOf m t
  match x.trk.bind (fun k => openBlob (twkOf k t (bEpoch b) (bGen b)) b) with
  | none => m
  | some (attr, key) =>
    if 256 ≤ m.kch.stash.length then m
    else
      match takeLine m t with
      | (none, m1) => m1
      | (some n, m1) =>
        let l : Line :=
          { state := .fetching, use := .stored, tenant := t, kind := bKind b, index := index, attr := attr, shareA := [], shareB := [],
            stamp := msStamp s, pins := [], deliveries := 0, remasked := m1.clk, remasks := 0, slot := none, zero := false }
        fillLine (addWay (setLine m1 n l) { tenant := t, kind := bKind b, index := index, line := n }) n attr key

/-! ### Streams and tenants -/

/-- A stream context. -/
def strOf (m : Mod) (t c : Nat) : Stream := tblGet m.sce.strBase m.sce.str (t * 8 + c)

/-- The block with a stream context changed. -/
def updStr (m : Mod) (t c : Nat) (f : Stream → Stream) : Mod :=
  { m with sce := { m.sce with str := tblUpd m.sce.strBase m.sce.str (t * 8 + c) f } }

/-- A context IDLE: its state zeroed; events and the last status stay (08 Table 8.8). -/
def Stream.idle (x : Stream) : Stream :=
  { Stream.reset with event := x.event, eventEn := x.eventEn, lastStatus := x.lastStatus }

/-- A tenant's contexts return to IDLE (12 R323, R324). -/
def idleStreams (m : Mod) (t : Nat) : Mod := (List.range 8).foldl (fun m c => updStr m t c Stream.idle) m

/-- The host-facing settings a closure clears: VF bindings, attachments, blob store windows (12 R324). -/
def closeHost (m : Mod) (t : Nat) : Mod :=
  let m1 := updTen m t (fun h =>
    { h with
      vfA := 0, vfB := 0, attA := false, attB := false, attNet := false, draining := false })
  { m1 with bsx := { m1.bsx with
    win := tblMap m1.bsx.win (fun k w => if k / 8 = t then { w with valid := false } else w) } }

/-- The NCT transport state of every session restarts (12 R341, 14 Table 14.3). -/
def restartNct (m : Mod) : Mod := { m with nif := { m.nif with sess := [] } }

/-- A snapshot's queue pairs, streams and undelivered completions installed (12 R341). -/
def installVolatile (m : Mod) (i : SnapImage) : Mod :=
  let m1 := updTen m i.tenant (fun h => { h with qp := i.qps, parked := i.parked, fifo := { h.fifo with cpl := i.pops } })
  let m2 := i.streams.foldl (fun m p => updStr m i.tenant p.1 (fun _ => p.2)) m1
  if i.rec_.isSome then
    { m2 with nif := { m2.nif with sess := i.sess.foldl (fun a p => tblErase a p.1) m2.nif.sess } }
  else m2

/-- A drain is over once the record that follows it commits: the tenant is no longer ACTIVE (12 R337). -/
def endDrain (m : Mod) (t : Nat) (r : Tenant) : Mod :=
  if r.state = .active then m else updTen m t (fun h => { h with draining := false })

/-- A bit that fails sets PROG_FAIL (05 R138), a counter at 120 bits or more EPOCH_LOW (R139). -/
def noteEpoch (m : Mod) (t n : Nat) : Mod :=
  let m1 := if tblGet 0 m.dur.otp t < n then { m with khs := { m.khs with progFail := true } } else m
  if 120 ≤ tblGet 0 m.dur.otp t then raiseInt m1 .khs 0x10 else m1

/-- KST_HIGH follows a key state table 90 % full (05 R150). -/
def noteKst (m : Mod) : Mod := if kstHigh m then raiseInt m .khs 0x8 else m

end Sys2Proof.Machine
end

