-- ==== Sys2Proof/Machine/Clock.lean ====
section
/-! DEFINITION. How the time unit follows its sources: qualification, corrections, holdover and trust (13 R346, R352 to
R356). -/

namespace Sys2Proof.Machine

/-- The sources in their fixed priority (13 R346). -/
def timeSrcs : List TimeSrc := [.ptp0, .ptp1, .pps, .tod]

/-- A source's place in the priority. -/
def srcIdx : TimeSrc → Nat
  | .ptp0 => 0
  | .ptp1 => 1
  | .pps => 2
  | .tod => 3

/-- A source's class (13 Table 13.1). -/
def srcClass : TimeSrc → Nat
  | .ptp0 => 1
  | .ptp1 => 1
  | .pps => 2
  | .tod => 3

/-- What the unit knows of a source. -/
def srcOf (m : Mod) (s : TimeSrc) : SrcState := tblGet SrcState.reset m.tim.src (srcIdx s)

/-- A source's state changed. -/
def updSrc (m : Mod) (s : TimeSrc) (f : SrcState → SrcState) : Mod :=
  { m with tim := { m.tim with src := tblUpd SrcState.reset m.tim.src (srcIdx s) f } }

/-- The PTP entry of a number (13 Table 13.7). -/
def ptpEntry (c : TimeCfg) (e : Nat) : Bytes := if e = 0 then c.ptp0 else c.ptp1

/-- VALID of an entry. -/
def ptpValid (b : Bytes) : Bool := (getNat8 b 0).testBit 0

/-- Whether a source is enabled: its class, and its entry where it is PTP. -/
def srcEnabled (c : TimeCfg) (s : TimeSrc) : Bool :=
  c.srcEn.getLsbD (srcClass s - 1) &&
    (match s with
      | .ptp0 => ptpValid c.ptp0
      | .ptp1 => ptpValid c.ptp1
      | _ => true)

/-- Whether a source is qualified but refused (13 R355, R356). -/
def srcRefused (m : Mod) (s : TimeSrc) : Bool :=
  srcEnabled m.dur.tcfg s && (srcOf m s).qualified && ((srcOf m s).rejected.isSome || (srcOf m s).early)

/-- Whether the unit may follow a source. -/
def srcUsable (m : Mod) (s : TimeSrc) : Bool :=
  srcEnabled m.dur.tcfg s && (srcOf m s).qualified && (srcOf m s).rejected.isNone && !(srcOf m s).early

/-- The source of highest priority that may be followed. -/
def bestSrc (m : Mod) : Option TimeSrc := timeSrcs.find? (srcUsable m)

/-- The external time a source would give now, from its last sample. -/
def srcTime (m : Mod) (s : TimeSrc) : Option Int := (srcOf m s).last.map (fun p => p.2 + ((m.clk : Int) - (p.1 : Int)))

/-! ### Steps and slews (13 R354, 04 R109) -/

/-- A slew in progress cut short: what it removed stays. -/
def foldSlew (m : Mod) : Mod := { m with tim := { m.tim with offset := m.tim.offset + slewDone m, slew := none } }

/-- Open epochs of the recorder at a step: all of them when time goes back, those passed when it goes forward
(17 R429). -/
def evrStep (m : Mod) (back : Bool) : Mod :=
  { m with evr := { m.evr with chan := tblMap m.evr.chan (fun _ c =>
    let mark := fun (e : EvrEpoch) => { e with stepped := e.stepped || back || decide (e.stop.toNat ≤ (nowT m).toNat) }
    { c with epoch := c.epoch.map mark, late := c.late.map mark }) } }

/-- Trust set from a stamp on. -/
def setTrust (m : Mod) (s : W64) (b : Bool) : Mod := { m with tim := { m.tim with trust := (s, b) :: m.tim.trust } }

/-- The end of a holdover. -/
def holdEnd (m : Mod) (loss : W64) : W64 := t64Add loss (m.dur.tcfg.holdLimit.toNat * nsPerS)

/-- Trust after a step is what it was before, and ends where a holdover ends. -/
def keepTrust (m : Mod) (was : Bool) : Mod :=
  let m1 := setTrust m (nowT m) was
  match m1.tim.mode, m1.tim.lossAt with
  | .holdover, some s => setTrust m1 (holdEnd m1 s) false
  | _, _ => m1

/-- Time corrected in one step. -/
def stepTime (m : Mod) (off : Int) : Mod :=
  let m1 := foldSlew m
  let m2 := { m1 with tim := { m1.tim with
    offset := m1.tim.offset + off, stepCnt := m1.tim.stepCnt + 1, lastStep := BitVec.ofInt 64 off } }
  let m3 := evrStep (raiseInt (raiseInt (keepTrust m2 (trustedNow m)) .tim 2) .sch 2) (decide (off < 0))
  { m3 with sch := { m3.sch with stepAt := m3.clk } }

/-- A correction applied: slewed away at a rate of at most 50 ppm, which is free (log 5), or stepped. -/
def applyCorr (m : Mod) (off : Int) : Mod :=
  if off = 0 then m
  else if off.natAbs ≤ m.dur.tcfg.slewMax.toNat then
    let m1 := foldSlew m
    afterChoice { m1 with tim := { m1.tim with slew := some (m.clk, off, choice m % 50000000 + 1) } }
  else stepTime m off

/-- Holdover age in ns: since the stamp at which the last source was lost (13 R352). -/
def holdAge (m : Mod) : Nat := m.tim.lossAt.elim 0 (fun s => extNs m - nsOf s)

/-- What is left of a slew. -/
def slewLeft (m : Mod) : Int := m.tim.slew.elim 0 (fun x => x.2.1 - slewDone m)

/-- The whole hour of external time. -/
def hourNow (m : Mod) : Nat := extNs m / (3600 * nsPerS)

/-- Corrections applied in the present hour. -/
def hourApplied (m : Mod) : Int := if m.tim.hour = hourNow m then m.tim.applied - slewLeft m else 0

/-- Whether a correction stays within the guard (13 R355). -/
def withinGuard (m : Mod) (off : Int) : Bool :=
  decide ((hourApplied m + off).natAbs ≤ m.dur.tcfg.stepGuard.toNat * 1000 + holdAge m * 50 / 1000000000)

/-- A correction applied and counted against its hour. -/
def countCorr (m : Mod) (off : Int) : Mod :=
  applyCorr { m with tim := { m.tim with hour := hourNow m, applied := hourApplied m + off } } off

/-! ### Lock and holdover -/

/-- The source in use set; a change sets SRC_CHANGE. -/
def useSrc (m : Mod) (s : Option TimeSrc) : Mod :=
  if m.tim.inUse = s then m else raiseInt { m with tim := { m.tim with inUse := s } } .tim 1

/-- LOCKED on a source: time is trusted. -/
def lockOn (m : Mod) (s : TimeSrc) : Mod :=
  let m1 := useSrc m (some s)
  if m1.tim.mode = .locked then m1
  else
    let was := trustedNow m
    let m2 := setTrust { m1 with tim := { m1.tim with mode := .locked, lossAt := none } } (nowT m1) true
    if was then m2 else raiseInt m2 .tim 0x20

/-- The mode after a loss at a stamp: HOLDOVER until its limit, EXPIRED from then on (13 R352). -/
def holdFromLoss (m : Mod) (loss : W64) : Mod :=
  let stop := holdEnd m loss
  let m1 := { m with tim := { m.tim with lossAt := some loss } }
  if stop.toNat ≤ (nowT m).toNat then
    let m2 := setTrust { m1 with tim := { m1.tim with mode := .expired } } (nowT m) false
    if m.tim.mode = .expired then m2 else raiseInt m2 .tim 8
  else
    let m2 := if trustedNow m then m1 else raiseInt m1 .tim 0x20
    let m3 := setTrust m2 (nowT m) true
    let m3 := setTrust { m3 with tim := { m3.tim with mode := .holdover } } stop false
    if m.tim.mode = .locked then raiseInt m3 .tim 4 else m3

/-- The last qualified source is lost. -/
def enterHoldover (m : Mod) : Mod :=
  let m1 := useSrc m none
  if m1.tim.mode = .locked then holdFromLoss m1 (nowT m1) else m1

/-- The source in use may no longer be followed: the next qualified one, or holdover (13 R346). -/
def fallBack (m : Mod) : Mod :=
  match m.tim.inUse with
  | none => m
  | some s =>
    if srcUsable m s then m
    else match bestSrc m with
      | some b => useSrc m (some b)
      | none => enterHoldover m

/-- A source lost or disqualified: its qualification starts again. A refusal under R355 lasts to its hour's end. -/
def loseSrc (m : Mod) (s : TimeSrc) : Mod :=
  fallBack (updSrc m s (fun x => { SrcState.reset with rejected := x.rejected, refOk := x.refOk }))

/-! ### Samples -/

/-- A correction refused: error 0x0001 with the offset in µs. -/
def refuseSrc (m : Mod) (s : TimeSrc) (off : Int) (early : Bool) : Mod :=
  let m1 := raiseErr m .tim 4 1 (BitVec.ofNat 64 (BitVec.ofInt 32 (off / 1000)).toNat)
  fallBack (updSrc m1 s (fun x =>
    if early then { x with early := true } else { x with rejected := some (hourNow m) }))

/-- The unit follows a source's sample: the first setting, which the floor alone limits, or a correction under the
guard (13 R354 to R356). -/
def followSample (m : Mod) (s : TimeSrc) (ext : Int) : Mod :=
  let off := ext - (extNs m : Int)
  let m1 := evrSample { m with tim := { m.tim with lastOffset := BitVec.ofInt 32 off } } 0x0030 none off.natAbs
  if m1.tim.mode = .unset then
    if ext < (nsOf m1.tim.floor : Int) then refuseSrc m1 s off true
    else
      let m2 := applyCorr m1 off
      lockOn { m2 with tim := { m2.tim with hour := hourNow m2, applied := 0 } } s
  else if withinGuard m1 off then lockOn (countCorr m1 off) s
  else refuseSrc m1 s off false

/-- A sample taken: the run of samples that agree, qualification, and its use where the source is the one to follow. A
source of higher priority than the one in use is taken up at the sample after it qualified (13 R346; log 42). -/
def takeSample (m : Mod) (s : TimeSrc) (ext : Int) (agrees : Bool) : Mod :=
  if ext < 0 ∨ (2 ^ 34 * nsPerS : Int) ≤ ext then loseSrc m s
  else
    let x := srcOf m s
    let n := if agrees then x.samples + 1 else 1
    let ready := x.announced || srcClass s != 1
    let q := x.qualified || (decide (16 ≤ n) && ready)
    let m1 := updSrc m s (fun x => { x with samples := n, qualified := q, last := some (m.clk, ext) })
    if m1.tim.twinAlign then m1
    else if bestSrc m1 = some s ∧ (x.qualified ∨ m1.tim.inUse = none) then followSample m1 s ext
    else m1

/-! ### Configuration (13 R358) -/

/-- Whether a configuration changes a source's settings. -/
def srcChanged (a b : TimeCfg) (s : TimeSrc) : Bool :=
  a.srcEn.getLsbD (srcClass s - 1) != b.srcEn.getLsbD (srcClass s - 1) ||
    (match s with
      | .ptp0 => a.ptp0 != b.ptp0
      | .ptp1 => a.ptp1 != b.ptp1
      | _ => false)

/-- A configuration in force: changed sources restart their qualification, a new limit holds from now on. -/
def configured (old : TimeCfg) (m : Mod) : Mod :=
  let m1 := timeSrcs.foldl (fun m s => if srcChanged old m.dur.tcfg s then updSrc m s (fun _ => SrcState.reset) else m) m
  let m2 := fallBack m1
  match m2.tim.lossAt with
  | some s => if old.holdLimit = m2.dur.tcfg.holdLimit then m2 else holdFromLoss m2 s
  | none => m2

/-- The source of a place in the priority. -/
def srcAt (n : Nat) : TimeSrc := (timeSrcs[n]?).getD .tod

/-- Time set once from a refused source, which is followed from then on where this unit may follow it (13 R358; log 42). -/
def acceptTime (m : Mod) (n : Nat) (off : Int) : Mod :=
  let s := srcAt n
  let m1 := stepTime (updSrc m s (fun x => { x with rejected := none, early := false })) off
  if srcUsable m1 s && !m1.tim.twinAlign then lockOn m1 s else m1

end Sys2Proof.Machine
end

