-- ==== Sys2Proof/Machine/Tamper.lean ====
section
/-! DEFINITION. The security supervisor: sources, responses, records, the Squall, and decisions taken twice (15 R386 to
R404). -/

namespace Sys2Proof.Machine

/-! ### The calibration set (15 Table 15.7) -/

/-- The nominal voltage of a rail: VIN, VAUX and the cells from 18 Table 18.6, the others unstated (log 11). -/
def railNominal (i : Nat) : Nat := if i = 0 then 12000 else if i = 1 then 3300 else if i = 7 then 3000 else Config.railNominal i % 5000

/-- A rail entry at its clamp limits (15 R406). -/
def railWidest (i : Nat) : Bytes :=
  natLe 2 (railNominal i * 88 / 100) ++ natLe 2 (railNominal i * 112 / 100) ++ natLe 2 (railNominal i * 15 / 100) ++
    zeroBytes 2

/-- The default set fixed in the supervisor's logic (15 R407). -/
def defaultCal : Bytes :=
  let rails := ((List.range 8).map railWidest).flatten
  let clocks := ((List.range 4).map (fun _ => natLe 2 20000 ++ [70] ++ zeroBytes 5)).flatten
  putAt (putAt factoryCal 0x20 rails) 0x60 clocks

/-- The set in use. -/
def calSet (m : Mod) : Bytes := if m.ssv.calDefault then defaultCal else m.ssv.cal

/-- A signed 16-bit field. -/
def calS16 (b : Bytes) (off : Nat) : Int := (getLe16 b off).toInt

/-- The weakest response a source can have (15 Table 15.1). -/
def floorResp (src : Nat) : Nat :=
  if src ≤ 0x17 then 2
  else if src ≤ 0x47 then 0
  else if src ≤ 0x4D then 2
  else if src = 0x6A ∨ src = 0x6F ∨ src = 0x4F then 0
  else if src ≤ 0x67 then 1
  else if 0x6B ≤ src ∧ src ≤ 0x6E then 1
  else 0

/-- Whether a source is a loop. -/
def isLoop (src : Nat) : Bool := decide (0x18 ≤ src ∧ src ≤ 0x47)

/-- Whether a source is reserved and never triggers. -/
def reservedSrc (src : Nat) : Bool := src == 0x4F || decide (0x70 ≤ src)

/-- Where a loop's entry stands in the set. -/
def loopAt (src : Nat) : Nat := 0x0C0 + 12 * (src - 0x18)

/-- The mode of a loop: 0 OFF, 1 ACTIVE, 2 PASSIVE. -/
def loopMode (m : Mod) (src : Nat) : Nat := getNat8 (calSet m) (loopAt src)

/-- The response configured for a source; none for a loop that is OFF, a reserved source and the cells, whose rules
are their own (15 R388, R389, R391). -/
def respOf (m : Mod) (src : Nat) : Option Nat :=
  if reservedSrc src ∨ src = 0x68 ∨ src = 0x69 then none
  else if isLoop src then (if loopMode m src = 0 then none else some (getNat8 (calSet m) (loopAt src + 1)))
  else some (max (floorResp src) (getNat8 (calSet m) (0x300 + src)))

/-- The limit a measured value of a source is held against (15 Table 15.13, word 2). -/
def limitOf (m : Mod) (src : Nat) (value : W32) : W32 :=
  let c := calSet m
  let v := value.toNat
  let w := fun (n : Nat) => BitVec.ofNat 32 n
  if isLoop src then
    (if loopMode m src = 2 then
      (if v < (getLe32 c (loopAt src + 4)).toNat then getLe32 c (loopAt src + 4) else getLe32 c (loopAt src + 8))
    else 0)
  else if 0x48 ≤ src ∧ src ≤ 0x4B then getLe32 c (0x0B0 + 4 * (src - 0x48))
  else if src = 0x4C ∨ src = 0x4D then
    (if (value.truncate 16 : BitVec 16).toInt < calS16 c 0x18 then (getLe16 c 0x18).signExtend 32 else (getLe16 c 0x1A).signExtend 32)
  else if src = 0x4E then w 64
  else if 0x50 ≤ src ∧ src ≤ 0x57 then
    let at' := 0x20 + 8 * (src - 0x50)
    (if v < (getLe16 c at').toNat then w (getLe16 c at').toNat else w (getLe16 c (at' + 2)).toNat)
  else if 0x58 ≤ src ∧ src ≤ 0x5F then w (getLe16 c (0x24 + 8 * (src - 0x58))).toNat
  else if 0x60 ≤ src ∧ src ≤ 0x63 then w (getLe16 c (0x60 + 8 * (src - 0x60))).toNat
  else if 0x64 ≤ src ∧ src ≤ 0x67 then w (getNat8 c (0x62 + 8 * (src - 0x64)))
  else 0

/-! ### Supplies -/

/-- Whether a cell can supply the SSV. -/
def cellUsable (c : Cell) : Bool := c.present && !c.depleted

/-- Whether the SSV has any supply (15 R386, R387). -/
def ssvSupplied (m : Mod) : Bool := m.ssv.power != .lull || cellUsable m.ssv.cellA || cellUsable m.ssv.cellB

/-- Whether a source is watched in the present power state (15 Table 15.1, R388). -/
def srcWatched (m : Mod) (src : Nat) : Bool :=
  match m.ssv.power with
  | .main | .aux => true
  | .lull => decide (src ≤ 0x4E) || src == 0x56 || src == 0x57 || src == 0x68 || src == 0x69 || src == 0x6D || src == 0x6F

/-- Whether an excursion below a rail's window is one that does not trigger: power failing, or a rail meant to be off
(15 R388). -/
def railExcused (m : Mod) (src : Nat) (value : W32) : Bool :=
  decide (0x50 ≤ src ∧ src ≤ 0x55) && decide (value.toNat < (getLe16 (calSet m) (0x20 + 8 * (src - 0x50))).toNat) &&
    (m.jnl.flushing || (m.ssv.power != .main && src != 0x51))

/-! ### Records (15 R399, Table 15.13) -/

/-- The stamp of a record: of TIM in MAIN, otherwise of the SSV's own counter, which drifts by at most 100 ppm from the
last TIME64 the SSV had (15 R386; log 5). -/
def ssvStamp (m : Mod) : W64 :=
  if m.ssv.power = .main then nowT m
  else
    let gone := m.clk - m.ssv.lastClk
    let room := gone / 10000
    t64Of (nsOf m.ssv.lastTime + (gone - room + choice m % (2 * room + 1)))

/-- The lowest free record slot. -/
def freeRec (m : Mod) : Option Nat := (List.range 64).find? (fun n => (tblFind m.ssv.recs n).isNone)

/-- A tamper record written; with every slot held it is counted in LOST (15 R399). -/
def addRecord (m : Mod) (src resp detail : Nat) (value limit : W32) : Mod :=
  let m1 := { m with ssv := { m.ssv with seq := m.ssv.seq + 1 } }
  match freeRec m with
  | none => { m1 with ssv := { m1.ssv with lost := min 65535 (m1.ssv.lost + 1) } }
  | some n =>
    let r : TamperRec :=
      { lull := m.ssv.power == .lull, copied := false, checkBad := false, resp := resp, source := src, detail := detail,
        seq := m.ssv.seq, stamp := ssvStamp m, value := value, limit := limit }
    let m2 := { m1 with ssv := { m1.ssv with recs := tblSet m1.ssv.recs n r } }
    let m3 := if m.ssv.power = .main then m2 else afterChoice m2
    if 48 ≤ m3.ssv.recs.length then raiseInt m3 .ssv 8 else m3

/-- A source latched (15 R393). -/
def latchSrc (m : Mod) (src : Nat) : Mod :=
  let m1 := { m with ssv := { m.ssv with latch := m.ssv.latch ||| BitVec.ofNat 128 (2 ^ src) } }
  if m1.ssv.power = .main then raiseInt m1 .ssv 1 else m1

/-! ### The Squall (15 R395 to R398) -/

/-- Durable state after its root is gone: nothing sealed under the storage key can be opened (05 R132, R135). The OTP
counters, the image slots and the settings in force stay. -/
def lostDur (d : Durable) : Durable :=
  { Durable.reset with otp := d.otp, imgA := d.imgA, imgB := d.imgB, tcfg := d.tcfg }

/-- A command answers a duplicate: it waited as one, or its own completion, not yet written, does. -/
def answersDup (c : Cmd) : Bool := c.dup || (match c.phase with | .dup _ => true | _ => false)

/-- Every command that holds a tag ends, unsealed and with no result (15 Table 15.3). -/
def eraseCmds (m : Mod) : Mod :=
  m.cmq.cmds.foldl (fun m p =>
    endOne (updCmd m p.1 (fun c => { c with sealKey := none })) p.1 stDeviceErased [] (answersDup p.2)) m

/-- Completions not yet written lose their results: those parked, and those held for a datagram, which leave now
because their sessions end (03 R68). -/
def eraseCpls (m : Mod) : Mod :=
  let bare := fun (h : TenHost) => { h with parked := h.parked.map erasedCpl }
  let m1 := { m with ten := tblMap m.ten (fun _ h => bare h) }
  let m2 := { m1 with nif := { m1.nif with sess := tblMap m1.nif.sess (fun _ n => { n with held := n.held.map erasedCpl }) } }
  (m2.nif.sess.map Prod.fst).foldl (fun m k => sendHeld m (k / 65536) (k % 65536)) m2

/-- Tenants that a Squall closes see their state change (03 Table 3.13). -/
def noteClosed (old m : Mod) : Mod := old.dur.ten.foldl (fun m p => noteTenant p.2 (tenantOf m p.1) p.1 m) m

/-- Every stream of the unit is lost (08 R233). -/
def loseStreams (m : Mod) : Mod :=
  { m with sce := { m.sce with jobs := [], str := [], strBase := { Stream.reset with lost := true } } }

/-- Operations of PKE end and operand memories are zeroed (10 R286). -/
def haltPke (m : Mod) : Mod :=
  let stop := fun (_ : Nat) (e : Eng) =>
    if e.state = .loading then { e with state := .zeroing, tag := 0, since := m.clk, mem := [] } else e
  { m with pke := { m.pke with queue := [], eng := tblMap m.pke.eng stop } }

/-- The key cache empty: every line FREE, and with the lines the keys sent from them (15 Table 15.3, 19 R469, 08 R216). -/
def dropLines (m : Mod) : Mod :=
  { m with
    kch := { m.kch with lines := [], bank := [], other := [], stash := [], busy := false, moved := 0 }
    sce := { m.sce with sched := [] }
    dge := { m.dge with keys := [] }
    bsx := { m.bsx with slots := [] } }

/-- The scheduler empty but for its own cadences. -/
def dropSched (m : Mod) : Mod :=
  let own := fun (t : Timer) => match t.kind with | .system n => n != 0 | _ => false
  { m with sch := { m.sch with rings := [], timers := m.sch.timers.filter own, overflow := [] } }

/-- Dual control's volatile state zeroed: accumulators and sessions (11 R313). -/
def zeroDcu (m : Mod) : Mod :=
  { m with dcu := { m.dcu with
    sess := [], cer := [], verify := [], proofs := [],
    port := tblMap m.dcu.port (fun _ p => { p with session := none }) } }

/-- Keys of the Crosswind links zeroed. -/
def zeroLinks (m : Mod) : Mod :=
  { m with tlk := { m.tlk with link := tblMap m.tlk.link (fun _ l => { l with keys := none }) } }

/-- Capsules in the unit's buffers dropped. -/
def dropCapsules (m : Mod) : Mod :=
  { m with
    cmq := { m.cmq with ptr := [] }
    ten := tblMap m.ten (fun _ h => { h with fifo := { h.fifo with push := [], stamps := [], discard := 0 } }) }

/-- A pair given up: its pairing cannot be read (15 R400). -/
def leavePair (m : Mod) (role : Role) : Mod :=
  { m with tlk := { m.tlk with
    role := role, paired := false, home := false, sync := false, stale := false, resync := false, orphaned := false,
    revertArmed := false, peerUid := 0, pairing := none, promoting := none, handover := none, byRevert := false,
    handing := false, held := none, holdFrom := none, alone := [] } }

/-- Records of the journal that wait are dropped. -/
def dropJournal (m : Mod) : Mod := { m with jnl := { m.jnl with issued := [], waiting := [], received := [] } }

/-- Roots and generator states zeroed (05 R132). -/
def zeroRoots (m : Mod) : Mod :=
  { m with
    khs := { m.khs with lcr := none, dsk := none, eshPresent := false }
    rng := { m.rng with d0 := { m.rng.d0 with ready := false }, d1 := { m.rng.d1 with ready := false } } }

/-- Whether this start of the core die has reached READY (19 Table 19.9). -/
def inService (m : Mod) : Bool := m.jnl.boot.getLsbD 0

/-- What a Squall zeroes on the core die. -/
def squallCore (m : Mod) : Mod :=
  let m1 := haltPke (zeroRoots (eraseCpls (eraseCmds m)))
  let m2 := dropJournal (dropCapsules (zeroLinks (zeroDcu (dropSched (dropLines (loseStreams m1))))))
  let m3 := { m2 with
    sce := { m2.sce with mask := [] }
    dge := { m2.dge with jobs := [] }
    kch := { m2.kch with mask := MaskGen.none }
    nif := { m2.nif with sess := [] }
    bsx := { m2.bsx with pend := [], held := [] }
    dur := lostDur m2.dur }
  leavePair (noteClosed m m3) .held

/-- The ESH zeroed. -/
def zeroEsh (m : Mod) : Mod := { m with ssv := { m.ssv with esh := none } }

/-- A Squall: its steps of Table 15.3 fall on one instant here (log 1). A second one starts no second erasure (R394);
one before READY leaves the start to end in ERASED_HOLD (R400). -/
def squall (m : Mod) : Mod :=
  let m1 := zeroEsh { m with ssv := { m.ssv with squalled := true } }
  if !m.powered ∨ m.ssv.tamper = .erased then m1
  else
    let m2 := squallCore m1
    if inService m then { m2 with ssv := { m2.ssv with tamper := .erased } } else m2

/-! ### Responses (15 R393, R394) -/

/-- A source acts with a response. `quiet` marks a cell event that is recorded only (R391). -/
def respond (m : Mod) (src resp detail : Nat) (value limit : W32) (quiet : Bool) : Mod :=
  let after := m.ssv.tamper == .erased
  let m1 := if src = 0x6A ∧ resp = 0 then m else addRecord m src resp detail value limit
  let m2 := if !quiet && (decide (1 ≤ resp) || after) then latchSrc m1 src else m1
  if resp = 2 then squall m2
  else if after then zeroEsh m2
  else m2

/-- A source triggers with the response configured for it, where it is watched at all (15 R388). -/
def trigger (m : Mod) (src detail : Nat) (value : W32) : Mod :=
  match respOf m src with
  | none => m
  | some r =>
    if ssvSupplied m && srcWatched m src && !railExcused m src value then
      respond m src r detail value (limitOf m src value) false
    else m

/-- A temperature detector whose reading lies outside the limits in force triggers. -/
def judgeTemp (src : Nat) (ok : Mod → Bool) (read : Mod → BitVec 16) (m : Mod) : Mod :=
  let t := (read m).toInt
  if ok m && (decide (t < calS16 (calSet m) 0x18) || decide (calS16 (calSet m) 0x1A < t)) then
    trigger m src 0 ((read m).signExtend 32)
  else m

/-- The readings the SSV holds, judged under new limits (15 R406); what the SSV holds no reading of triggers as it is
next sampled (log 44). -/
def judgeTemps (m : Mod) : Mod :=
  judgeTemp 0x4D (·.ssv.tempBOk) (·.ssv.tempB) (judgeTemp 0x4C (·.ssv.tempAOk) (·.ssv.tempA) m)

/-! ### The maintenance window and absent cells (15 R391) -/

/-- Cells that are absent alarm with DETAIL MISSING. -/
def cellsMissing (m : Mod) : Mod :=
  let quiet := m.ssv.power == .lull
  let m1 := if m.ssv.cellA.present then m else respond m 0x68 1 4 0 0 quiet
  if m1.ssv.cellB.present then m1 else respond m1 0x69 1 4 0 0 quiet

/-- The SSV is told of the maintenance window; its end with a cell absent alarms. -/
def ssvMaint (m : Mod) (open_ : Bool) : Mod :=
  let was := m.ssv.maintSeen
  let seen := open_ && m.ssv.power == .main
  let m1 := { m with ssv := { m.ssv with maintSeen := seen } }
  if was && !seen then cellsMissing m1 else m1

/-- DCU's maintenance window set, the SSV told (11 R314, Table 11.9). -/
def setMaint (m : Mod) (w : Option (W64 × W64)) : Mod :=
  if w = none ∧ m.dcu.maint = none then m
  else raiseInt (ssvMaint { m with dcu := { m.dcu with maint := w } } w.isSome) .dcu 2

/-! ### Decisions taken twice (15 R403, R404) -/

/-- A block locked until reset: FAULT and HEALTH 3; a lock of KHS or TXP clears READY. -/
def lockBlk (m : Mod) (b : Blk) : Mod :=
  let m1 := updBlk m b (fun h => { h with locked := true, fault := true, health := 3 })
  if b = .khs ∨ b = .txp then { m1 with devReady := false } else m1

/-- Disagreements that count at the present instant (15 R404). -/
def recentFi (m : Mod) : List Nat := m.ssv.fi.filter (fun t => decide (m.clk ≤ t + 60 * nsPerS))

/-- Two evaluations of a decision of a block disagree: the block locks, source 0x6C triggers, and a third within 60 s of
the first squalls; the trigger's own record is the record of that Squall (log 44). -/
def disagree (m : Mod) (b : Blk) : Mod :=
  let seen := recentFi m
  let m1 := raiseInt (lockBlk m b) .ssv 2
  let third := decide (2 ≤ seen.length)
  let m2 := { m1 with ssv := { m1.ssv with
    fi := if third then [] else seen ++ [m.clk], fiTotal := min 0xFFFFFF (m1.ssv.fiTotal + 1) } }
  let m3 := trigger m2 0x6C 0 0
  if third then squall m3 else m3

end Sys2Proof.Machine
end

