-- ==== Sys2Proof/Machine/Pair.lean ====
section
/-! DEFINITION. The pair: role and synchronisation, TWIN_STAT, twin time, forming and ending a pair (14 R360 to R362,
R382, 13 R357). -/

namespace Sys2Proof.Machine

/-- The role changed; ROLE_CHANGE is set (14 Table 14.11). -/
def setRole (m : Mod) (r : Role) : Mod :=
  if m.tlk.role = r then m
  else
    let m1 := { m with tlk := { m.tlk with role := r } }
    raiseInt (if serving m = serving m1 then m1 else loseStreams m1) .tlk 1

/-- TWIN_STAT.SYNC changed; SYNC_CHANGE is set. -/
def setSync (m : Mod) (b : Bool) : Mod :=
  if m.tlk.sync = b then m else raiseInt { m with tlk := { m.tlk with sync := b } } .tlk 2

/-- TWIN_STAT as the state gives it (14 Table 14.11). -/
def twinStatNow (m : Mod) : W32 :=
  let bit := fun (n : Nat) (b : Bool) => if b then 2 ^ n else 0
  BitVec.ofNat 32 (m.tlk.role.code + bit 2 m.tlk.home + bit 3 m.tlk.sync + bit 4 (!pathSilent m 0) +
    bit 5 (!pathSilent m 1) + bit 6 (!pathSilent m 2) + bit 7 m.tlk.stale + bit 8 m.tlk.resync +
    bit 9 m.tlk.revertArmed + bit 10 (m.tlk.divHeld != 0) + bit 11 m.tlk.orphaned + m.tlk.peerHealth % 16 * 2 ^ 12)

/-- TWIN_STAT; it holds its last value from the detection of a promotion to its admission (R371). -/
def twinStat (m : Mod) : W32 := m.tlk.held.elim (twinStatNow m) (fun h => h.1)

/-! ### Twin time (13 R356, R357) -/

/-- The unit takes its time from its twin. -/
def beginAlign (m : Mod) : Mod := { m with tim := { m.tim with twinAlign := true, inUse := none } }

/-- The unit follows its own sources again; with none to follow, LOCKED time becomes HOLDOVER (log 42). -/
def endAlign (m : Mod) : Mod :=
  if !m.tim.twinAlign then m
  else
    let m1 := { m with tim := { m.tim with twinAlign := false } }
    match bestSrc m1 with
    | some s => useSrc m1 (some s)
    | none => enterHoldover m1

/-- The twin's time measured and taken over (13 R357), slewed or stepped as any correction is (R354). -/
def alignTo (m : Mod) (now : W64) : Mod :=
  if !m.tim.twinAlign then m
  else
    let d := (nsOf now : Int) - (extNs m : Int)
    applyCorr { m with tim := { m.tim with twinOffset := BitVec.ofInt 32 d } } d

/-- A unit with no time yet takes its serving twin's time, state and holdover age (13 R356). -/
def adoptTime (m : Mod) (now : W64) (state age : Nat) : Mod :=
  let m1 := alignTo (beginAlign m) now
  if m.tim.mode ≠ .unset then m1
  else if state = 1 then
    raiseInt (setTrust { m1 with tim := { m1.tim with mode := .locked } } (nowT m1) true) .tim 0x20
  else if state = 2 ∨ state = 3 then holdFromLoss m1 (t64Of (extNs m1 - age * nsPerS))
  else m1

/-! ### Forming and ending -/

/-- A unit that shares no record with its Windward: it resynchronises from the first (14 R377; log 43). -/
def sharesNothing (m : Mod) : Mod :=
  { m with
    jnl := { m.jnl with jsnLast := 0, jsnCommit := 0, ring := [], ringOldest := 0, received := [] }
    tlk := { m.tlk with jsnApplied := 0 } }

/-- The pair forms (14 R362): the Windward serves on, the Leeward resynchronises. -/
def pairFormed (m : Mod) (uid : W64) (home windward : Bool) : Mod :=
  let m1 := { m with tlk := { m.tlk with
    paired := true, home := home, peerUid := uid, sync := false, stale := !windward, resync := !windward,
    orphaned := false, pairing := none, alone := [], divLog := [], divHeld := 0, revertArmed := false,
    handover := none, holdFrom := none, resyncBytes := 0 } }
  setRole (if windward then m1 else beginAlign (sharesNothing m1)) (if windward then .windward else .leeward)

/-- The pair ends: the unit is UNPAIRED (14 R382). -/
def pairEnded (m : Mod) : Mod :=
  let m1 := { m with tlk := { m.tlk with divLog := [], divHeld := 0 } }
  let was := m1.tlk.role
  let m2 := endAlign (zeroLinks (leavePair (setSync m1 false) .unpaired))
  if was = .unpaired then m2 else raiseInt m2 .tlk 1

/-! ### Re-admission (15 R401, R402) -/

/-- The storage key of the present life-cycle state derived from a unit secret and an erase share (05 R134, Table 5.2). -/
def releaseRoots (m : Mod) (dus esh : Bytes) : Mod :=
  let s := lcState m
  if 1 ≤ s ∧ s ≤ 4 then
    let lcr := lcrOf dus esh s
    { m with khs := { m.khs with lcr := some (s, lcr), dsk := some (dskOf lcr) } }
  else m

/-- A fresh erase share generated with prediction resistance, handed to the SSV, its check value recorded (05 R130,
R161). The unit holds an ESH whose ESC matches, so PRESENT is set beside FRESH (DEDUCED, log 9: R131 names FRESH alone
in this case). -/
def freshEsh (m : Mod) (dus : Bytes) : Mod :=
  let esh := drawn m 32
  let m1 := afterFreshDraw m 32
  let m2 :=
    { m1 with
      ssv := { m1.ssv with esh := some esh }
      khs := { m1.khs with esc := some (escOf dus esh), eshPresent := true, eshFresh := true, eshMismatch := false } }
  releaseRoots m2 dus esh

/-- SSV_READMIT takes effect: new roots for an empty unit that is UNPAIRED. How many bytes await reclamation is free
(log 5). -/
def readmitted (m : Mod) : Mod :=
  let m1 := freshEsh m (m.khs.dus.getD [])
  let m2 :=
    { m1 with
      ssv := { m1.ssv with
        squalled := false, cold := false, recs := m1.ssv.recs.filter (fun p => !p.2.copied), tamper := .readmitted }
      jnl := { m1.jnl with reclaim := BitVec.ofNat 64 (choice m1) } }
  let m3 := afterChoice m2
  let was := m3.tlk.role
  let m4 := leavePair m3 .unpaired
  if was = .unpaired then m4 else raiseInt m4 .tlk 1

/-- The unit leaves ERASED_HOLD to serve (15 R402). -/
def released (m : Mod) : Mod := { m with ssv := { m.ssv with tamper := .normal } }

/-- A readmitted unit leaves ERASED_HOLD when SYNC is set (15 R402 step 6). -/
def noteReadmitted (m : Mod) : Mod := if m.ssv.tamper == .readmitted && m.tlk.sync then released m else m

end Sys2Proof.Machine
end

