-- ==== Sys2Proof/Machine/RouteSets.lean ====
section
/-! DEFINITION. Route sets: prefixes, lookups, the words and record slots a set takes in the pool (07 R189 to R199). -/

namespace Sys2Proof.Machine

/-- Words of the node pool (07 R193). -/
def poolWords : Nat := 3145728

/-- Routes the table holds device-wide (07 R194). -/
def routeLimit : Nat := 2097152

/-- Record slots of the device (07 Table 7.9). -/
def recSlots : Nat := 131072

/-- No routes and no records. -/
def RouteSet.none : RouteSet := { routes := [], recs := [] }

/-- The order routes are listed in: by their digits behind a leading 1. -/
def routeKey (d : List Nat) : Nat := digitsNat (1 :: d)

/-- The record a prefix names in a set. -/
def routeFind (s : RouteSet) (d : List Nat) : Option Nat :=
  (s.routes.find? (fun r => r.digits == d)).map (fun r => r.recno)

/-- A route at its place in a list, replacing one of the same prefix (07 R202). -/
def routeInsert (x : Route) : List Route → List Route
  | [] => [x]
  | r :: rest =>
    if r.digits = x.digits then x :: rest
    else if routeKey x.digits < routeKey r.digits then x :: r :: rest
    else r :: routeInsert x rest

/-- A set with a route set. -/
def routePut (s : RouteSet) (x : Route) : RouteSet := { s with routes := routeInsert x s.routes }

/-- A set without a route. -/
def routeDrop (s : RouteSet) (d : List Nat) : RouteSet := { s with routes := s.routes.filter (fun r => !(r.digits == d)) }

/-- The record of a number; one never set reads as all zero (07 R189). -/
def recOf (s : RouteSet) (n : Nat) : Bytes := tblGet (zeroBytes 32) s.recs n

/-- The longest route of a set that matches a PAN (07 R193, R195). -/
def routeMatch (s : RouteSet) (pan : List Nat) : Option Route :=
  (s.routes.filter (fun r => pan.take r.digits.length == r.digits)).foldl (fun (b : Option Route) r =>
    match b with
    | none => some r
    | some x => if x.digits.length < r.digits.length then some r else some x) none

/-- A record's fields (07 Table 7.1). -/
def recPinKey (b : Bytes) : W64 := getLe64 b 0
def recMacKey (b : Bytes) : W64 := getLe64 b 8
def recIssuer (b : Bytes) : Bytes := sliceOf b 16 4
def recBlock (b : Bytes) : Bool := (getNat8 b 20).testBit 0

/-! ### Nodes (07 R193, R194) -/

/-- The node a prefix ends in, named by the digits that lead to it. -/
def nodeOf (d : List Nat) : List Nat := d.take (2 * ((d.length - 1) / 2))

/-- A node and those above it, up to the root. -/
def nodePath (n : List Nat) : List (List Nat) := (List.range (n.length / 2 + 1)).map (fun i => n.take (2 * i))

/-- The nodes of a set. -/
def nodesOf (s : RouteSet) : List (List Nat) := ((s.routes.map (fun r => nodePath (nodeOf r.digits))).flatten).eraseDups

/-- Words of one node of a set: 8 + E + C (07 R194). -/
def nodeWords (s : RouteSet) (n : List Nat) : Nat :=
  8 + s.routes.countP (fun r => nodeOf r.digits == n) +
    (nodesOf s).countP (fun c => c.length == n.length + 2 && c.take n.length == n)

/-- Words of a set that stands alone. -/
def setWords (s : RouteSet) : Nat := (nodesOf s).foldl (fun a n => a + nodeWords s n) 0

/-- The set a tenant's next update starts from: the shadow, or the active set (07 R198). -/
def viewOf (r : Routes) : RouteSet := (r.shadow.map (fun x => x.set)).getD r.active

/-- The shadow an update works on: a fresh one shares every node. -/
def shadowOf (r : Routes) : Shadow := r.shadow.getD { set := r.active, copied := [], fresh := [] }

/-- Whether the shadow differs from the active set (07 Table 7.9). -/
def differs (r : Routes) : Bool := r.shadow.elim false (fun x => x.set != r.active)

/-- Pool words that a tenant's sets hold, a shared node once (07 R194). -/
def routesWords (r : Routes) : Nat :=
  setWords r.active + r.shadow.elim 0 (fun x =>
    ((nodesOf x.set).filter (fun n => x.copied.contains n)).foldl (fun a n => a + nodeWords x.set n) 0)

/-- Routes a tenant holds, one in both sets once (07 R194). -/
def routesHeld (r : Routes) : Nat :=
  r.active.routes.length + r.shadow.elim 0 (fun x => x.set.routes.countP (fun y => (routeFind r.active y.digits).isNone))

/-- Record slots a tenant's sets hold. -/
def slotsHeld (r : Routes) : Nat := r.active.recs.length + r.shadow.elim 0 (fun x => x.fresh.length)

/-- Words and record slots that belong to the old set alone after a switch (07 R199). -/
def oldAlone (r : Routes) : Nat × Nat :=
  match r.shadow with
  | none => (0, 0)
  | some x =>
    let keep := (nodesOf x.set).filter (fun n => !x.copied.contains n)
    (((nodesOf r.active).filter (fun n => !keep.contains n)).foldl (fun a n => a + nodeWords r.active n) 0,
      r.active.recs.countP (fun p => x.fresh.contains p.1))

/-! ### The pool -/

/-- Words held device-wide, with the old sets not yet returned. -/
def usedWords (m : Mod) (d : Durable) : Nat :=
  d.rt.foldl (fun a p => a + routesWords p.2) (m.rtb.old.foldl (fun a x => a + x.words) 0)

/-- RTB_POOL_FREE. -/
def poolFree (m : Mod) (d : Durable) : Nat := poolWords - usedWords m d

/-- RTB_POOL_LARGEST: all free words after compaction and in an empty pool, otherwise a free value no larger (07 R206;
log 18). -/
def poolLargest (m : Mod) (d : Durable) : Nat :=
  let f := poolFree m d
  if m.rtb.compacted ∨ usedWords m d = 0 then f else Config.poolBlock m.jnl.jsnLast.toNat % (f + 1)

/-- Record slots in use device-wide. -/
def usedSlots (m : Mod) (d : Durable) : Nat :=
  d.rt.foldl (fun a p => a + slotsHeld p.2) (m.rtb.old.foldl (fun a x => a + x.slots) 0)

/-- Routes held device-wide. -/
def usedRoutes (d : Durable) : Nat := d.rt.foldl (fun a p => a + routesHeld p.2) 0

/-- The words of each node that a change of a tenant's sets places afresh. -/
def newNodes (before after : Routes) : List Nat :=
  let x := shadowOf before
  let y := shadowOf after
  let held := fun (n : List Nat) => (nodesOf before.active).contains n && !y.copied.contains n
  ((nodesOf y.set).filter (fun n => !held n && (!x.copied.contains n || nodeWords x.set n != nodeWords y.set n))).map
    (nodeWords y.set)

/-- The words of every node of a tenant's sets. -/
def allNodes (r : Routes) : List Nat :=
  (nodesOf r.active).map (nodeWords r.active) ++ r.shadow.elim [] (fun x =>
    ((nodesOf x.set).filter (fun n => x.copied.contains n)).map (nodeWords x.set))

/-- Whether free blocks can take nodes of these words, each in a contiguous block (07 R204): one block takes them up
to its words. Of a broken pool the spec gives no layout: one node goes into the largest block; for several it is free,
within what a largest block of that size leaves possible (log 18). -/
def placeable (m : Mod) (d : Durable) (sizes : List Nat) : Bool :=
  let f := poolFree m d
  let l := poolLargest m d
  let total := sizes.foldl (fun a n => a + n) 0
  decide (total ≤ f) && (f == l || (sizes.all (fun w => decide (w ≤ l)) &&
    sizes.all (fun w => decide (sizes.countP (fun v => decide (w ≤ v)) ≤ l / max 1 w + (f - l) / max 1 w)) &&
    (decide (sizes.length ≤ 1) || Config.poolFits m.jnl.jsnLast.toNat sizes)))

/-- POOL_LOW follows the free words as they fall below the threshold (07 R206). -/
def notePool (m0 m : Mod) : Mod :=
  if m.rtb.poolLow ≤ poolFree m0 m0.dur ∧ poolFree m m.dur < m.rtb.poolLow then raiseInt m .rtb 1 else m

/-- Nodes that stand in the pool. -/
def poolNodes (d : Durable) : Nat :=
  d.rt.foldl (fun a p => a + (nodesOf p.2.active).length + p.2.shadow.elim 0 (fun x =>
    ((nodesOf x.set).filter (fun n => x.copied.contains n)).length)) 0

/-- The pool in one run (07 R207). -/
def compacted (m : Mod) : Mod := { m with rtb := { m.rtb with compacted := true, moved := poolNodes m.dur % 2 ^ 24 } }

/-- A Leeward that cannot place a node of a record it applies compacts its own pool first (07 R208). -/
def compactFor (m0 m : Mod) (sizes : List Nat) : Mod :=
  if m.tlk.role = .leeward ∧ !placeable m0 m0.dur sizes then compacted m else m

/-- RTB after a tenant's routes change in a commit: an old set waits for its 24 clocks, POOL_LOW follows the free words,
and a node freed in place breaks the pool up (07 R199, R206). -/
def noteRoutes (m0 m : Mod) (t : Nat) (r : Routes) (switched : Bool) : Mod :=
  let before := routesIn m0.dur t
  let (w, s) := oldAlone before
  let o : OldSet := { tenant := t, words := w, slots := s, since := m.clk }
  let m1 := if switched then { m with rtb := { m.rtb with old := o :: m.rtb.old } } else compactFor m0 m (newNodes before r)
  let copies := fun (x : Routes) => x.shadow.elim [] (fun y => y.copied)
  let freed := !switched && (copies before).any (fun n =>
    !(copies r).contains n || nodeWords (viewOf before) n != nodeWords (viewOf r) n)
  notePool m0 (if freed then { m1 with rtb := { m1.rtb with compacted := false } } else m1)

end Sys2Proof.Machine
end

