-- ==== Sys2Proof/Machine/Journal.lean ====
section
/-! DEFINITION. The journal: issuing a record, its copy in the buffer and on the twin, its commit and what the commit
brings (01 R28, 14 R365 to R367, R488, 19 R476). -/

namespace Sys2Proof.Machine

/-! ### What follows from a committed effect -/

/-- A staged image becomes pending, and the floor rises when asked (04 R125 step 6). -/
def imagePending (m : Mod) (digest : Bytes) (version : W32) (svn : W16) (advance : Bool) : Mod :=
  let held := if m.txp.slot = .a then m.dur.imgB else m.dur.imgA
  let img : ImgSlot := { held with usable := true, version := version, svn := svn, digest := digest }
  let floor := if advance ∧ m.txp.svnFloor.toNat < svn.toNat then svn else m.txp.svnFloor
  let d := if m.txp.slot = .a then { m.dur with imgB := img } else { m.dur with imgA := img }
  { m with dur := d, txp := { m.txp with pending := true, otherValid := true, svnFloor := floor } }

/-- Approvals held in a domain. -/
def approvalsIn (d : Domain) : Nat := d.chal.foldl (fun a p => a + p.2.approvals.length) 0

/-- What follows on the unit from one effect applied to durable state. -/
def followEff (m0 m : Mod) (stamp : W64) : Effect → Mod
  | .tenant t r => noteTenant (tenantOf m0 t) r t (endDrain m t r)
  | .epoch t n => noteEpoch m t n
  | .blob t i b =>
    let m1 := if serving m ∧ bKind b = 1 then cacheBlob m t i b stamp else m
    writeBlob m1 t i b
  | .kst _ _ => noteKst m
  | .schedule h due => insTimer m (.key h.toNat) due
  | .zeroKey h => zeroHandleLine m h
  | .dropKeys t => idleStreams (zeroTenantLines m t) t
  | .session k _ => { m with nif := { m.nif with sess := tblSet m.nif.sess k NctSess.opened } }
  | .closeTenant t =>
    let m1 := if routesWords (routesIn m0.dur t) = 0 then m else { m with rtb := { m.rtb with compacted := false } }
    idleStreams (zeroTenantLines (closeHost m1 t) t) t
  | .resumed t => drainTenant m t
  | .restored i =>
    let m1 := if i.rec_.isSome then notePool m0 (compactFor m0 m (allNodes i.routes)) else m
    noteTenant (tenantOf m0 i.tenant) (tenantOf m i.tenant) i.tenant (installVolatile m1 i)
  | .timeSet n off => acceptTime m n off
  | .timeCfg _ => configured m0.dur.tcfg m
  | .image dg v s a => imagePending m dg v s a
  | .calibration b =>
    judgeTemps { m with ssv := { m.ssv with cal := b, calWrites := m.ssv.calWrites + 1, calDefault := false } }
  | .maint w => setMaint m w
  | .domain k r =>
    let n := approvalsIn r - approvalsIn (domainIn m0.dur k)
    { m with dcu := { m.dcu with approvals := m.dcu.approvals + BitVec.ofNat 64 n } }
  | .consumed _ _ => { m with dcu := { m.dcu with quorum := m.dcu.quorum + 1 } }
  | .paired uid home windward => pairFormed m uid home windward
  | .unpaired => pairEnded m
  | .portResult p id => sendResult m p stOk id
  | .routes t r switched => noteRoutes m0 m t r switched
  | .budget h b =>
    let m1 := dropTimers m (fun k => match k with | .budget x => x == h.toNat | _ => false)
    match b with
    | none => m1
    | some x => insTimer m1 (.budget h.toNat) (BitVec.ofNat 64 ((x.current + 1) * x.window * 2 ^ 30))
  | .budgetSet h _ _ _ =>
    let m1 := dropTimers m (fun k => match k with | .budget x => x == h.toNat | _ => false)
    (tblFind m1.dur.bud h.toNat).elim m1 (fun x =>
      insTimer m1 (.budget h.toNat) (BitVec.ofNat 64 ((x.current + 1) * x.window * 2 ^ 30)))
  | .readmit => readmitted m
  | .release => released m
  | .evrClear => { m with evr := { m.evr with log := [], full := false } }
  | .closeSession _ | .revert _ _
  | .promote _ | .snapshot _ | .saved _ _ _ | .fired _ _ | .lapse _ => m

/-- One effect applied: durable state, then what follows. `stamp` is the stamp of the command or record. -/
def effMod (stamp : W64) (m : Mod) (e : Effect) : Mod := followEff m { m with dur := effDur m.dur e } stamp e

/-! ### Records -/

/-- Bytes of a record in the journal buffer (log 22). -/
def recSize (jsn : W64) : Nat := min 1048576 (Config.recordBytes jsn.toNat)

/-- Bytes in the journal buffer now: what was there, less what drained to the ring at 440 MB/s (19 R476; log 22). -/
def bufLevel (m : Mod) : Nat := m.jnl.bufUsed - (m.clk - m.jnl.bufAt) * 44 / 100

/-- Whether a record finds room in the buffer. -/
def bufRoom (m : Mod) (jsn : W64) : Bool := decide (bufLevel m + recSize jsn ≤ 1048576)

/-- Whether the twin is heard on either link. -/
def linkLive (m : Mod) : Bool := !pathSilent m 0 || !pathSilent m 1

/-- The stamp a record's effects carry: of its command, otherwise the present. -/
def recStamp (m : Mod) (tag : Option Nat) : W64 := (tag.bind (cmdOf m)).elim (nowT m) (fun c => c.stamp)

/-- Whether a record waits for the twin: this unit is Windward of a synchronised pair and the record is replicated. -/
def needsAck (m : Mod) (r : JRecord) : Bool := m.tlk.paired && m.tlk.sync && m.tlk.role == .windward && !r.unitOnly

/-- What the twin is told of a commit: its stamp in a notice (14 R488); a record committed alone is remembered (R374). -/
def tellTwin (m : Mod) (r : JRecord) (s : W64) : Mod :=
  if !m.tlk.paired || m.tlk.role != .windward || r.unitOnly then m
  else if m.tlk.sync then sendTwin m (.notice [(r.jsn, s)])
  else { m with tlk := { m.tlk with alone := m.tlk.alone ++ [(r.jsn, r.req.elim 0 (fun q => q.reqId))] } }

/-- A record's request-ID entry made (03 R82). -/
def noteReq (m : Mod) (r : JRecord) (s : W64) : Mod :=
  match r.req with
  | none => m
  | some q =>
    if q.reqId = 0 then m
    else
      let e : ReqIdEntry :=
        { key := q.key, reqId := q.reqId, digest := q.digest, committed := s, status := q.status, result := q.result,
          unitOnly := r.unitOnly }
      { m with dur := { m.dur with reqids := m.dur.reqids ++ [e] } }

/-- The ring's records that 4 GiB of later records have not overwritten, and the bytes of all of them (19 R476). -/
def ringHeld : List (JRecord × W64) → List (JRecord × W64) × Nat
  | [] => ([], 0)
  | p :: rest =>
    let later := ringHeld rest
    if later.2 < 2 ^ 32 then (p :: later.1, later.2 + recSize p.1.jsn) else later

/-- A committed record held in the journal ring (19 R472); the oldest that 4 GiB of later records cover are gone (19 R476).
A record of JSN 0, of this unit alone, is not numbered there (log 39). -/
def noteRing (m : Mod) (r : JRecord) (s : W64) : Mod :=
  if r.jsn = 0 then noteSealed m
  else
    let m := noteSealed m
    let held := (ringHeld (m.jnl.ring ++ [(r, s)])).1
    { m with jnl := { m.jnl with ring := held, ringOldest := held.head?.elim r.jsn (fun p => p.1.jsn) } }

/-- Whether a record advances an epoch counter whose bits do not verify on this unit (05 R138). -/
def recordStuck (m : Mod) (r : JRecord) : Bool :=
  r.effects.any (fun e => match e with | .epoch t n => otpStuck m.dur.otp t n | _ => false)

/-- A record as it ends on the Windward: a command whose epoch bit fails ends with ST_INTERNAL_FAULT (05 R138; log 53). -/
def endedRecord (m : Mod) (r : JRecord) : JRecord :=
  if recordStuck m r then { r with req := r.req.map (fun q => { q with status := stInternalFault, result := [] }) } else r

/-- What a record's command completes with: what the record says, or ST_ABORTED where a pipeline it used has been withdrawn
(08 R236; log 45). -/
def recOutcome (m : Mod) (tag : Nat) (q : RecReq) : W16 × Bytes :=
  if (cmdOf m tag).any (fun c => c.outcome == some (stAborted, [])) then (stAborted, []) else (q.status, q.result)

/-- The first record issued commits (01 R28): its effects apply in order, its request-ID entry is made, its commit stamp
is fixed and sent (14 R488), and its command completes. -/
def commitOne (m : Mod) (i : Issued) : Mod :=
  let s := nowT m
  let r := endedRecord m i.rcd
  let m1 :=
    { m with
      jnl := { m.jnl with issued := m.jnl.issued.drop 1, jsnCommit := if r.unitOnly then m.jnl.jsnCommit else r.jsn }
      tlk := { m.tlk with jsnApplied := if r.unitOnly then m.tlk.jsnApplied else r.jsn } }
  let m2 := (r.effects.map (stampedEff s)).foldl (effMod (recStamp m r.tag)) m1
  let ten := (r.tag.bind (cmdOf m)).bind workTenant
  let m3 := evrSample (pmcEvent (tellTwin (noteReq (noteRing m2 r s) r s) r s) 0x1006 ten) 0x0011 ten (m.clk - i.issued)
  match r.tag, r.req with
  | some tag, some q =>
    let (st, res) := recOutcome m3 tag q
    complete m3 tag st res
  | _, _ => m3

/-- Records commit in order from the first issued, as far as they wait for no acknowledgement above `acked` (14 R365,
R366). A record of this unit alone takes its place in that order (11 R314; log 39). -/
def commitReady (acked : Nat) : Nat → Mod → Mod
  | 0, m => m
  | f + 1, m =>
    match m.jnl.issued with
    | [] => m
    | i :: _ =>
      if needsAck m i.rcd && decide (acked < i.rcd.jsn.toNat) then m
      else commitReady acked f (commitOne m i)

/-- Every record issued up to a JSN commits, in order. -/
def commitThrough (m : Mod) (jsn : W64) : Mod := commitReady jsn.toNat m.jnl.issued.length m

/-- A record enters the journal buffer: it is sent on the live links, and commits at once where no acknowledgement is
awaited (01 R28). -/
def enterRecord (m : Mod) (i : Issued) : Mod :=
  let r := i.rcd
  let m1 := { m with jnl := { m.jnl with
    bufUsed := bufLevel m + recSize r.jsn, bufAt := m.clk, issued := m.jnl.issued ++ [i] } }
  let m2 := (r.tag.elim m1 (fun tag => updCmd m1 tag (fun c => { c with phase := .commit r.jsn })))
  let m3 := if m2.tlk.paired && m2.tlk.role = .windward && !r.unitOnly && linkLive m2 then sendTwin m2 (.record r) else m2
  commitThrough m3 m3.tlk.jsnAcked

/-- A record issued under the next JSN, a record of this unit alone under none (11 R314); with the buffer full it
waits for space, in order (19 R476). -/
def issueRecord (m : Mod) (tag : Option Nat) (effects : List Effect) (req : Option RecReq) (unitOnly : Bool) : Mod :=
  let jsn := if unitOnly then 0 else m.jnl.jsnLast + 1
  let i : Issued :=
    { rcd := { jsn := jsn, effects := effects, req := req, tag := tag, unitOnly := unitOnly }, issued := m.clk }
  let m1 := if unitOnly then m else { m with jnl := { m.jnl with jsnLast := jsn } }
  if m1.jnl.waiting.isEmpty && bufRoom m1 jsn then enterRecord m1 i
  else
    let m2 := raiseInt { m1 with jnl := { m1.jnl with waiting := m1.jnl.waiting ++ [i] } } .jnl 2
    tag.elim m2 (fun t => updCmd m2 t (fun c => { c with phase := .space }))

/-- A command's record issued with the completion it brings; a command that changes no state of its own leaves no
request ID (03 R82, 09 R241). -/
def issueFor (m : Mod) (tag : Nat) (effects : List Effect) (status : W16) (result : Bytes) (unitOnly changes : Bool) :
    Mod :=
  match cmdOf m tag with
  | none => m
  | some c =>
    let q : RecReq :=
      { key := if c.admin then deviceDomain else c.tenant, reqId := if changes then c.reqId else 0, digest := c.digest,
        status := status,
        result := result }
    issueRecord m (some tag) effects (some q) unitOnly

/-- A record of the unit's own, with no command. -/
def issueOwn (m : Mod) (effects : List Effect) : Mod := issueRecord m none effects none false

/-- Records that waited enter the buffer in order while it has room; the longest wait is kept (19 Table 19.8). -/
def drainWaiting : Nat → Mod → Mod
  | 0, m => m
  | f + 1, m =>
    match m.jnl.waiting with
    | [] => m
    | i :: rest =>
      if bufRoom m i.rcd.jsn then
        let w := min 4095 ((m.clk - i.issued) / 1000)
        drainWaiting f (enterRecord { m with jnl := { m.jnl with waiting := rest, bufWait := max m.jnl.bufWait w } } i)
      else m

end Sys2Proof.Machine
end

