-- ==== Sys2Proof/Machine/Opcodes.lean ====
section
/-! DEFINITION. The opcodes: on which paths each is defined, whether it is state-changing and the largest result it
returns (03 Table 3.3, R69, and the opcode table of each chapter). -/

namespace Sys2Proof.Machine

/-- Where an opcode runs, and what R69 and R82 need to know of it. -/
structure OpInfo where
  tenantPath : Bool
  adminPath : Bool
  changes : Bool
  maxRes : Nat
  deriving DecidableEq, Repr

/-- An opcode of the tenant paths. -/
def opT (changes : Bool) (maxRes : Nat) : Option OpInfo :=
  some { tenantPath := true, adminPath := false, changes := changes, maxRes := maxRes }

/-- An opcode of the admin queue. -/
def opA (changes : Bool) (maxRes : Nat) : Option OpInfo :=
  some { tenantPath := false, adminPath := true, changes := changes, maxRes := maxRes }

/-- An opcode of both. -/
def opB (changes : Bool) (maxRes : Nat) : Option OpInfo :=
  some { tenantPath := true, adminPath := true, changes := changes, maxRes := maxRes }

/-- Opcodes of family 0x01, by operation. -/
def opFam01 : Nat → Option OpInfo
  | 0x01 => opT true 12 -- KEY_GENERATE
  | 0x02 => opT true 12 -- KEY_IMPORT_BLOCK
  | 0x03 => opT false 4064 -- KEY_EXPORT_BLOCK
  | 0x04 => opT true 12 -- KEY_IMPORT_PUBLIC
  | 0x05 => opT true 12 -- KEY_DERIVE
  | 0x06 => opT true 12 -- KEY_ROTATE
  | 0x07 => opT true 0 -- KEY_RETIRE
  | 0x08 => opT true 0 -- KEY_DESTROY
  | 0x09 => opT false 56 -- KEY_INFO
  | 0x0A => opT true 2 -- WRAP_ADVANCE
  | _ => none

/-- Opcodes of family 0x02, by operation. -/
def opFam02 : Nat → Option OpInfo
  | 0x01 => opT false 18 -- PIN_TRANSLATE
  | 0x02 => opT false 24 -- PIN_TRANSLATE_ROUTED
  | 0x03 => opT false 0 -- PIN_VERIFY_OFFSET
  | 0x04 => opT false 0 -- PIN_VERIFY_REFERENCE
  | 0x05 => opT false 16 -- PIN_CHANGE
  | 0x06 => opT false 8 -- PIN_OFFSET_GENERATE
  | 0x10 => opT true 0 -- PIN_BUDGET_SET
  | 0x11 => opT false 24 -- PIN_BUDGET_GET
  | _ => none

/-- Opcodes of family 0x03, by operation. -/
def opFam03 : Nat → Option OpInfo
  | 0x01 => opT false 18 -- DUKPT_PIN_TRANSLATE
  | 0x02 => opT false 24 -- DUKPT_PIN_TRANSLATE_ROUTED
  | 0x03 => opT false 0 -- DUKPT_MAC_VERIFY
  | 0x10 => opT false 178 -- DUKPT_IK_EXPORT
  | _ => none

/-- Opcodes of family 0x04, by operation. -/
def opFam04 : Nat → Option OpInfo
  | 0x01 => opT false 18 -- MAC_GENERATE
  | 0x02 => opT false 0 -- MAC_VERIFY
  | 0x03 => opT false 4 -- MAC_VERIFY_ROUTED
  | _ => none

/-- Opcodes of family 0x05, by operation. -/
def opFam05 : Nat → Option OpInfo
  | 0x01 => opT false 8 -- EMV_ARQC_VERIFY
  | 0x02 => opT false 8 -- EMV_SCRIPT_MAC
  | 0x03 => opT false 256 -- EMV_SCRIPT_ENCRYPT
  | _ => none

/-- Opcodes of family 0x06, by operation. -/
def opFam06 : Nat → Option OpInfo
  | 0x01 => opT false 3 -- CSC_GENERATE
  | 0x02 => opT false 0 -- CSC_VERIFY
  | _ => none

/-- Opcodes of family 0x07, by operation. -/
def opFam07 : Nat → Option OpInfo
  | 0x01 => opT false 10 -- TOKENISE
  | 0x02 => opT false 10 -- DETOKENISE
  | _ => none

/-- Opcodes of family 0x08, by operation. -/
def opFam08 : Nat → Option OpInfo
  | 0x01 => opT false 28 -- AEAD_ENCRYPT
  | 0x02 => opT false 0 -- AEAD_DECRYPT
  | 0x03 => opT false 0 -- CIPHER_ENCRYPT
  | 0x04 => opT false 0 -- CIPHER_DECRYPT
  | 0x10 => opT false 12 -- STREAM_OPEN
  | 0x11 => opT false 8 -- STREAM_UPDATE
  | 0x12 => opT false 31 -- STREAM_FINAL
  | 0x13 => opT false 0 -- STREAM_ABORT
  | _ => none

/-- Opcodes of family 0x09, by operation. -/
def opFam09 : Nat → Option OpInfo
  | 0x01 => opT false 512 -- PK_SIGN
  | 0x02 => opT false 0 -- PK_VERIFY
  | 0x03 => opT false 512 -- PK_ENCRYPT
  | 0x04 => opT false 512 -- PK_DECRYPT
  | 0x05 => opT true 536 -- PK_KEYGEN
  | 0x06 => opT true 12 -- PK_AGREE
  | 0x07 => opT false 0 -- PK_AGREE_CHECK
  | 0x10 => opT false 8 -- PK_CANCEL
  | _ => none

/-- Opcodes of family 0x0A, by operation. -/
def opFam0A : Nat → Option OpInfo
  | 0x01 => opT false 64 -- DIGEST
  | 0x02 => opT false 64 -- HMAC_GENERATE
  | 0x03 => opT false 0 -- HMAC_VERIFY
  | _ => none

/-- Opcodes of family 0x0B, by operation. -/
def opFam0B : Nat → Option OpInfo
  | 0x01 => opT false 4048 -- RANDOM_GET
  | _ => none

/-- Opcodes of family 0x0C, by operation. -/
def opFam0C : Nat → Option OpInfo
  | 0x01 => opT true 0 -- RT_RECORD_SET
  | 0x02 => opT true 8 -- RT_ROUTE_UPDATE
  | 0x03 => opT true 8 -- RT_COMMIT
  | 0x04 => opT true 0 -- RT_ABORT
  | 0x05 => opT false 40 -- RT_LOOKUP
  | 0x06 => opT false 24 -- RT_STATUS
  | 0x10 => opA false 8 -- RT_COMPACT
  | _ => none

/-- Opcodes of family 0x0D, by operation. -/
def opFam0D : Nat → Option OpInfo
  | 0x01 => opT true 256 -- SESSION_HELLO
  | 0x02 => opT true 0 -- SESSION_CLOSE
  | 0x03 => opT false 32 -- SESSION_STATUS
  | 0x04 => opT true 0 -- CRED_ENROL
  | 0x05 => opT true 0 -- CRED_REMOVE
  | 0x06 => opT true 0 -- TENANT_POLICY_SET
  | 0x07 => opT false 16 -- TENANT_INFO
  | 0x10 => opA true 8 -- TENANT_CREATE
  | 0x11 => opA true 0 -- TENANT_CLOSE
  | 0x12 => opA true 8 -- TENANT_REROOT
  | 0x13 => opA true 0 -- TENANT_FREEZE
  | 0x14 => opA true 0 -- TENANT_RESUME
  | 0x15 => opA true 264 -- MIGRATE_PREPARE
  | 0x16 => opA true 8 -- MIGRATE_SAVE
  | 0x17 => opA true 0 -- MIGRATE_RESTORE
  | _ => none

/-- Opcodes of family 0x0E, by operation. -/
def opFam0E : Nat → Option OpInfo
  | 0x01 => opB true 48 -- QUORUM_OPEN
  | 0x02 => opB true 8 -- QUORUM_APPROVE
  | 0x03 => opB false 12 -- QUORUM_STATUS
  | 0x04 => opB true 0 -- QUORUM_CLOSE
  | 0x10 => opB true 0 -- CUST_ENROL
  | 0x11 => opB true 0 -- CUST_REMOVE
  | 0x12 => opB true 0 -- POLICY_SET
  | 0x13 => opB false 930 -- CUST_LIST
  | 0x20 => opT false 16 -- CEREMONY_OPEN
  | 0x21 => opT true 19 -- CEREMONY_COMPONENT
  | 0x22 => opT false 0 -- CEREMONY_CLOSE
  | 0x30 => opA true 16 -- MAINT_OPEN
  | 0x31 => opA true 0 -- MAINT_CLOSE
  | _ => none

/-- Opcodes of family 0x0F, by operation. -/
def opFam0F : Nat → Option OpInfo
  | 0x10 => opA true 0 -- SSV_READMIT
  | 0x11 => opA false 0 -- SSV_RESTART
  | 0x12 => opA true 8 -- CAL_WRITE
  | 0x13 => opA false 1024 -- CAL_READ
  | 0x14 => opA true 0 -- SSV_RELEASE
  | 0x20 => opA true 0 -- TIME_CONFIG_SET
  | 0x21 => opA true 8 -- TIME_ACCEPT
  | 0x40 => opA false 16 -- EVR_READ
  | 0x41 => opA true 8 -- EVR_CLEAR
  | 0x50 => opA true 8 -- IMG_ACCEPT
  | _ => none

/-- Opcodes of family 0x10, by operation. -/
def opFam10 : Nat → Option OpInfo
  | 0x01 => opA true 0 -- TWIN_PAIR
  | 0x02 => opA true 0 -- TWIN_UNPAIR
  | 0x03 => opA false 40 -- TWIN_STATUS
  | 0x04 => opA true 16 -- TWIN_PROMOTE
  | 0x05 => opA false 8 -- TWIN_HANDOVER
  | 0x06 => opA true 0 -- TWIN_REVERT_SET
  | 0x07 => opA false 0 -- TWIN_RESTART
  | _ => none

/-- What is known of an opcode; none where it is undefined (03 Table 3.2 step 11). -/
def opInfo (op : Nat) : Option OpInfo :=
  match op / 256 with
  | 0x01 => opFam01 (op % 256)
  | 0x02 => opFam02 (op % 256)
  | 0x03 => opFam03 (op % 256)
  | 0x04 => opFam04 (op % 256)
  | 0x05 => opFam05 (op % 256)
  | 0x06 => opFam06 (op % 256)
  | 0x07 => opFam07 (op % 256)
  | 0x08 => opFam08 (op % 256)
  | 0x09 => opFam09 (op % 256)
  | 0x0A => opFam0A (op % 256)
  | 0x0B => opFam0B (op % 256)
  | 0x0C => opFam0C (op % 256)
  | 0x0D => opFam0D (op % 256)
  | 0x0E => opFam0E (op % 256)
  | 0x0F => opFam0F (op % 256)
  | 0x10 => opFam10 (op % 256)
  | _ => none

end Sys2Proof.Machine
end

