-- ==== Sys2Proof/Machine/Accept.lean ====
section
/-! DEFINITION. Acceptance: giving a capsule its tag and the checks of Table 3.2 in order (03 R61 to R66, R81, R82;
12 R329 to R336). -/

namespace Sys2Proof.Machine

/-- A whole capsule as it reaches CMQ: the tenant of its path, its path, what its entry or descriptor named, its bytes,
its stamp and the instant of its last byte (R98). -/
structure Arrival where
  tenant : Nat
  admin : Bool
  path : Path
  sqHead : Nat
  resAddr : W64
  resSize : Nat
  cap : Bytes
  stamp : Stamp
  entered : Nat
  deriving DecidableEq, Repr

/-! ### Header fields (03 Table 3.1) -/

def capVersion (b : Bytes) : Nat := getNat8 b 0
def capFlags (b : Bytes) : Nat := getNat8 b 1
def capOpcode (b : Bytes) : Nat := (getLe16 b 2).toNat
def capTenant (b : Bytes) : Nat := (getLe16 b 4).toNat
def capSession (b : Bytes) : Nat := (getLe16 b 6).toNat
def capSeq (b : Bytes) : W64 := getLe64 b 8
def capReqId (b : Bytes) : W64 := getLe64 b 0x10
def capBodyLen (b : Bytes) : Nat := (getLe16 b 0x18).toNat
def capPrio (b : Bytes) : Nat := getNat8 b 0x1A
def capSealed (b : Bytes) : Bool := (capFlags b).testBit 0

/-- Whether a capsule's reserved header bits are 0 (TENANT is ignored on the admin queue, 03 R63). -/
def capReservedZero (admin : Bool) (b : Bytes) : Bool :=
  capFlags b / 2 == 0 && (admin || capTenant b / 4096 == 0) && capPrio b / 8 == 0 && allZero (sliceOf b 0x1B 5)

/-- The command a capsule makes when it takes its tag; its body is still as transmitted. -/
def cmdOfArrival (a : Arrival) : Cmd :=
  { tenant := a.tenant, admin := a.admin, path := a.path, sqHead := a.sqHead, resAddr := a.resAddr,
    resSize := a.resSize, opcode := capOpcode a.cap, session := capSession a.cap, seq := capSeq a.cap,
    reqId := capReqId a.cap, prio := capPrio a.cap % 8, wasSealed := capSealed a.cap, sealKey := none, digest := [],
    body := a.cap, stamp := a.stamp.time, since := a.stamp.clk, entered := a.entered, level := 0, phase := .running, core := 0, ctx := 0, runs := 0, pins := [],
    slots := [], stage := 0, mem := [], outcome := none, dup := false, readAt := 0, reached := none, scratch := [], pipes := [], arpc := false }

/-- A tag taken: the highest use is kept, and TAG_EMPTY set when no device tag is left (03 Table 3.17). -/
def takeTag (m : Mod) (tag : Nat) (c : Cmd) : Mod :=
  let m1 := setCmd m tag c
  let m2 := { m1 with cmq := { m1.cmq with hwm := max m1.cmq.hwm (tagsUsed m1) } }
  if tagsUsed m2 = 16384 then raiseInt m2 .cmq 1 else m2

/-! ### Steps 1 and 2 -/

/-- Whether an erased unit answers a command (15 Table 15.5). -/
def erasedAdmits (m : Mod) (admin : Bool) (op : Nat) : Bool :=
  match m.ssv.tamper with
  | .normal => true
  | .erased => admin && (op == 0x0F11 || op == 0x1003)
  | .hold => admin && (op == 0x0F11 || op == 0x1003 || op == 0x0F10)
  | .readmitted => admin && (op / 256 == 0x0E || op / 256 == 0x0F || op / 256 == 0x10)

/-- Whether a command is exempt from step 2 (03 Table 3.2). -/
def standbyExempt (m : Mod) (admin : Bool) (op : Nat) : Bool :=
  admin && (op / 256 == 0x10 || (decide (0x0E01 ≤ op) && decide (op ≤ 0x0E04))) || (isErased m && erasedAdmits m admin op)

/-- Whether the unit serves a stamp: UNPAIRED or WINDWARD, and before the instant of a handover (14 R378). -/
def servesAt (m : Mod) (s : W64) : Bool :=
  serving m && (m.tlk.handover.elim true (fun h => decide (s.toNat < h.toNat)))

/-- Steps 1 to 6 of Table 3.2 on a capsule; none when all pass. -/
def earlyFail (m : Mod) (c : Cmd) (cap : Bytes) : Option W16 :=
  if !m.devReady then some stRetryLater
  else if isErased m && !erasedAdmits m c.admin c.opcode then some stDeviceErased
  else if !servesAt m c.stamp && !standbyExempt m c.admin c.opcode then some stStandby
  else if capVersion cap ≠ 1 ∨ !capReservedZero c.admin cap then some stBadFormat
  else if c.admin && (capSealed cap || capSession cap != 0 || capSeq cap != 0) then some stBadFormat
  else if cap.length ≠ 32 + capBodyLen cap ∨ 4064 < capBodyLen cap ∨
      (capSealed cap ∧ capBodyLen cap < 16) then some stBadLength
  else if c.path = .fifo ∧ 4048 < capBodyLen cap then some stBadLength
  else if !c.admin && capTenant cap % 4096 != c.tenant then some stNotAuthorised
  else match c.path with
    | .nct _ _ =>
      if (tenantOf m c.tenant).state = .frozen ∨ (tenantOf m c.tenant).state = .restoring ∨ (tenOf m c.tenant).draining
      then some stTenantFrozen else none
    | _ => none

/-! ### Sessions -/

/-- Whether a session has reached its limits at a stamp (12 R336). -/
def sessSpent (s : Session) (stamp : W64) : Bool :=
  decide (2 ^ 32 - 1 ≤ s.count ∨ s.expiry.toNat ≤ stamp.toNat)

/-- Whether SEQ falls inside a replay window and has not been accepted (12 R333). Bit i of the bitmap is SEQ h − i. -/
def winFresh (h bitmap seq : Nat) : Bool :=
  decide (1 ≤ seq) && decide (h < seq + 1024) && (decide (h < seq) || !bitmap.testBit (h - seq))

/-- H and bitmap after SEQ is accepted (12 R333). -/
def winAccept (h bitmap seq : Nat) : Nat × Nat :=
  if h < seq then (seq, (bitmap * 2 ^ (min 1024 (seq - h)) + 1) % 2 ^ 1024) else (h, bitmap ||| 2 ^ (h - seq))

/-- Whether a session can accept SEQ. -/
def seqFresh (s : Session) (seq : Nat) : Bool := winFresh s.h s.bitmap seq

/-- A session after it accepts SEQ (12 R333). -/
def acceptSeq (s : Session) (seq : Nat) : Session :=
  let w := winAccept s.h s.bitmap seq
  { s with h := w.1, bitmap := w.2, count := s.count + 1 }

/-- Whether a SEQ waits for a mark (12 R334). -/
def gated (m : Mod) (s : Session) (seq : Nat) : Bool :=
  m.tlk.paired && m.tlk.sync && decide (s.acked + 4096 < seq)

/-- A mark sent to the twin and written to the journal buffer: never below H, never below the last mark (12 R334). It
travels as a record outside the journal's numbering, the record of number 0 in the buffer's count of bytes, and carries the
end of the half-open state (R331; log 29). -/
def sendMark (m : Mod) (t sid mark : Nat) : Mod :=
  match sessOf m t sid with
  | none => m
  | some s =>
    let k := max (max mark s.h) s.mark
    let s' := { s with mark := k, acked := if m.tlk.paired && m.tlk.sync then s.acked else k }
    let r : JRecord :=
      { jsn := 0, effects := [.session (sessKey t sid) s'], req := none, tag := none, unitOnly := false }
    let m1 := setSess { m with jnl := { m.jnl with bufUsed := bufLevel m + recSize 0, bufAt := m.clk } } t sid s'
    if m.tlk.paired && m.tlk.role == .windward then sendTwin m1 (.record r) else m1

/-! ### Steps 7 to 13 -/

/-- Whether an open capsule is permitted (03 R63, 12 R328). -/
def openAllowed (m : Mod) (c : Cmd) : Bool :=
  c.admin || (c.opcode == 0x0D01 && (tenantOf m c.tenant).state == .active) ||
    (match c.path with | .nct _ _ => false | _ => (tenantOf m c.tenant).openCaps)

/-- Steps 11 and 12. -/
def opcodeFail (c : Cmd) : Option W16 :=
  match opInfo c.opcode with
  | none => some stBadOpcode
  | some i => if (if c.admin then i.adminPath else i.tenantPath) then none else some stNotAuthorised

/-- The key space of a command's request ID (01 R29). -/
def reqKey (c : Cmd) : Nat := if c.admin then deviceDomain else c.tenant

/-- Whether a command takes a request-ID entry (03 R82). -/
def takesEntry (c : Cmd) : Bool := c.reqId != 0 && (opInfo c.opcode).elim false (fun i => i.changes)

/-- Whether a remembered entry still counts at a stamp: 10 s from its commit stamp (01 R29). -/
def entryLive (e : ReqIdEntry) (s : W64) : Bool := decide (s.toNat < (t64Add e.committed (10 * nsPerS)).toNat)

/-- The entry that remembers a command's request ID. -/
def findEntry (m : Mod) (c : Cmd) : Option ReqIdEntry :=
  m.dur.reqids.find? (fun e => e.key == reqKey c && e.reqId == c.reqId && entryLive e c.stamp)

/-- The command in flight under the same request ID. -/
def findFlight (m : Mod) (tag : Nat) (c : Cmd) : Option (Nat × Cmd) :=
  m.cmq.cmds.find? (fun p => p.1 != tag && reqKey p.2 == reqKey c && p.2.reqId == c.reqId && takesEntry p.2 &&
    p.2.phase != .gate && (match p.2.phase with | .dup _ => false | _ => true))

/-- Whether a command in flight will take an entry at its commit: accepted as an original, and not yet complete. -/
def willEnter (c : Cmd) : Bool :=
  takesEntry c && (match c.phase with | .gate | .dup _ | .done => false | _ => true)

/-- Entries held, and those the commands in flight will take. -/
def entriesDue (m : Mod) (tag : Nat) : Nat :=
  m.dur.reqids.length + m.cmq.cmds.countP (fun p => p.1 != tag && willEnter p.2)

/-- The first command accepted after a unit without its twin's counts began to serve: the window of each budget that holds
its stamp is spent (09 R255). -/
def spendBudgets (m : Mod) (s : W64) : Mod :=
  if !m.tlk.countsLost || !m.devReady then m
  else
    let b := tblMap m.dur.bud (fun _ x => { x with spent := some (s.toNat / 2 ^ 30) })
    { m with dur := { m.dur with bud := b }, tlk := { m.tlk with countsLost := false } }

/-- An accepted command goes to SCH, or back while SCH quiesces or is disabled (02 R36, 04 R114). -/
def toScheduler (m : Mod) (tag : Nat) (c : Cmd) : Mod :=
  let m1 := pmcEvent (spendBudgets m c.stamp) 0x1000 (workTenant c)
  if !blkServes m1 .sch then complete m1 tag stRetryLater []
  else makeReady m1 tag (levelOf m1 c)

/-- Step 13 and what follows it: the request-ID lookup (01 R29, 03 R82, R83), then acceptance. -/
def acceptReqId (m : Mod) (tag : Nat) (c : Cmd) (consume : Mod → Mod) : Mod :=
  if !takesEntry c then toScheduler (consume m) tag c
  else match findEntry m c with
    | some e =>
      if e.digest = c.digest then endOne (consume m) tag e.status e.result true else complete m tag stReplay []
    | none =>
      match findFlight m tag c with
      | some (o, oc) =>
        if oc.digest ≠ c.digest then complete m tag stReplay []
        else match oc.phase, oc.outcome with
          | .done, some (st, res) => endOne (consume m) tag st res true
          | _, _ => updCmd (consume m) tag (fun c => { c with phase := .dup o })
      | none =>
        if 4194304 ≤ entriesDue m tag then raiseInt (complete m tag stRetryLater []) .cmq 2
        else toScheduler (consume m) tag c

/-- A session has accepted a SEQ: the Windward sends a mark when H has risen 2,048 above the last one (12 R333, R334). -/
def noteSeq (m : Mod) (t sid seq : Nat) : Mod :=
  match sessOf m t sid with
  | none => m
  | some s =>
    let s1 := acceptSeq s seq
    let m1 := setSess m t sid s1
    if m.tlk.paired && decide (s1.mark + 2048 ≤ s1.h) then sendMark m1 t sid s1.h else m1

/-- Steps 9 to 13 of a capsule whose body is in clear (03 Table 3.2); a SEQ above the gate waits (12 R334). -/
def acceptTail (m : Mod) (tag : Nat) : Mod :=
  match cmdOf m tag with
  | none => m
  | some c =>
    let rest := fun (m : Mod) (consume : Mod → Mod) =>
      match opcodeFail c with
      | some st => complete m tag st []
      | none => acceptReqId m tag c consume
    if !c.wasSealed then
      if openAllowed m c then rest m id else complete m tag stNotAuthorised []
    else match sessOf m c.tenant c.session with
      | none => complete m tag stSessionInvalid []
      | some s =>
        if gated m s c.seq.toNat then
          sendMark (updCmd m tag (fun c => { c with phase := .gate })) c.tenant c.session c.seq.toNat
        else if seqFresh s c.seq.toNat then
          rest m (fun m => noteSeq m c.tenant c.session c.seq.toNat)
        else complete m tag stReplay []

/-- The command with its plaintext body and its digest of opcode and body (03 R82). -/
def withBody (c : Cmd) (body : Bytes) : Cmd :=
  { c with body := body, digest := sha256 (natLe 2 c.opcode ++ body) }

/-- Steps 7 and 8, then the rest (03 R62, 12 R331, R336). -/
def acceptOpened (m : Mod) (tag : Nat) (c : Cmd) (cap : Bytes) : Mod :=
  if !c.wasSealed then acceptTail (setCmd m tag (withBody c (cap.drop 32))) tag
  else match sessOf m c.tenant c.session with
    | none => complete m tag stSessionInvalid []
    | some s =>
      if sessSpent s c.stamp then
        issueOwn (complete m tag stSessionInvalid []) [.closeSession (sessKey c.tenant c.session)]
      else
        let nonce := [1, 0] ++ natLe 2 c.session ++ le64 c.seq
        let body := cap.drop 32
        match gcmDec s.kc nonce (cap.take 32) (body.take (body.length - 16)) (body.drop (body.length - 16)) with
        | none => complete m tag stCapsuleAuthFail []
        | some pt =>
          let m1 := setSess m c.tenant c.session { s with halfOpen := false }
          acceptTail (setCmd m1 tag { withBody c pt with sealKey := some s.km }) tag

/-- A command that never took a tag completes: unsealed, held in a tag only while its queue has no room. -/
def turnAway (m : Mod) (c : Cmd) (status : W16) : Mod :=
  let (m1, gone) := deliver m (buildCpl c none status [] false)
  if gone then m1 else waitDone m1 (freeTag m1) c status [] false

/-- A completion for an entry whose capsule was never read (03 R70, R71, Table 3.12): SEQ 0. -/
def rejectEntry (m : Mod) (a : Arrival) (status : W16) (reqId : W64) : Mod :=
  turnAway m { cmdOfArrival a with reqId := reqId, seq := 0 } status

/-- A capsule enters acceptance: it takes a tag and runs the checks of Table 3.2 (03 R65); while CMQ is quiescing or
disabled it is turned away (02 R36). -/
def acceptCapsule (m : Mod) (a : Arrival) : Mod :=
  let c := cmdOfArrival a
  if !blkServes m .cmq then turnAway m c stRetryLater
  else
    let tag := freeTag m
    let m1 := takeTag m tag c
    match earlyFail m1 c a.cap with
    | some st => complete m1 tag st []
    | none => acceptOpened m1 tag c a.cap

/-- Gated commands of a session go on after a mark was acknowledged (12 R334). -/
def releaseGated (m : Mod) (t sid : Nat) : Mod :=
  (m.cmq.cmds.filter (fun p => p.2.phase = .gate ∧ p.2.tenant = t ∧ p.2.session = sid)).foldl
    (fun m p => acceptTail m p.1) m

end Sys2Proof.Machine
end

