-- ==== Sys2Proof/Machine/Prog.lean ====
section
/-! DEFINITION. What an opcode program does at a dispatch, and how it gets its keys (04 R113 to R118, 05 Table 5.8,
06 R172 to R175). -/

namespace Sys2Proof.Machine

/-- What a program comes to. Nothing of the block has changed where no state is carried. -/
inductive Act where
  /-- It ends with a status and no result. -/
  | stop (st : W16)
  /-- It ends, having changed volatile state, with a status and a result. -/
  | finish (m : Mod) (st : W16) (res : Bytes)
  /-- It issues its journal record; the completion follows the commit. `own` marks a record of this unit only. -/
  | journal (m : Mod) (effects : List Effect) (st : W16) (res : Bytes) (own : Bool)
  /-- It needs the keys of these handles in one request. -/
  | need (hs : List W64)
  /-- It goes to its next stage with what it has learned, its pins and slots released. -/
  | stage (m : Mod) (mem : List Bytes)
  /-- The successor chain it follows has led to this key, which is active (09 R240). -/
  | reach (h : W64)
  /-- It has placed its command in a phase that waits. -/
  | hold (m : Mod)

/-- A program: what the command at a tag comes to. -/
abbrev Prog := Mod → Nat → Cmd → Except Act Act

/-- A check: the program ends with a status where it fails. -/
def ensure (b : Bool) (st : W16) : Except Act Unit := if b then .ok () else .error (.stop st)

/-- A value that must be there. -/
def orStop {α : Type} (o : Option α) (st : W16) : Except Act α :=
  match o with
  | some a => .ok a
  | none => .error (.stop st)

/-- A program ends with ST_OK and a result, volatile state changed. -/
def okWith (m : Mod) (res : Bytes) : Act := .finish m stOk res

/-- A block that a program needs now: refused with ST_LOCKED while it is locked (15 R403), with ST_RETRY_LATER while it
is disabled or quiescing (02 R36), and for RTB after a failed test (17 Table 17.5). -/
def needBlk (m : Mod) (b : Blk) : Except Act Unit := do
  ensure (!(blkOf m b).locked) stLocked
  ensure (blkServes m b && (b != .rtb || decide ((blkOf m b).health < 3))) stRetryLater

/-! ### Fetching keys -/

/-- Fetch slots of BSX (06 R188). -/
def fetchSlots : Nat := 1024

/-- Fetch slots that hold or fetch public-key blobs (06 R175). -/
def pkSlots (m : Mod) : Nat := m.bsx.slots.countP (fun p => p.2.pk)

/-- The lowest free fetch slot. -/
def freeSlot (m : Mod) : Option Nat :=
  if m.bsx.slots.length < fetchSlots then
    (List.range (m.bsx.slots.length + 1)).find? (fun n => (tblFind m.bsx.slots n).isNone)
  else none

/-- A fetch slot placed. -/
def setSlot (m : Mod) (n : Nat) (f : Fetch) : Mod := { m with bsx := { m.bsx with slots := tblSet m.bsx.slots n f } }

/-- A fetch slot released, and its retry timer with it. -/
def dropSlot (m : Mod) (n : Nat) : Mod :=
  dropTimers { m with bsx := { m.bsx with slots := tblErase m.bsx.slots n } }
    (fun k => match k with | .blob x => x == n | _ => false)

/-- The host address a fetch reads, as its low 64 bits. -/
def fetchAddr (m : Mod) (h : W64) : W64 := (blobAddr m (hTenant h) (hIndex h)).elim 0 (fun x => BitVec.ofNat 64 x.2)

/-- A failed blob read: the retry timer BSX_RETRY_GAP later (06 R174). -/
def fetchFailed (m : Mod) (n : Nat) : Mod :=
  match tblFind m.bsx.slots n with
  | none => m
  | some f =>
    let m1 := raiseErr m .bsx 2 1 (fetchAddr m f.handle)
    let at' := m1.clk + m1.bsx.retryGap * 1000
    let m2 := setSlot m1 n { f with retryAt := some at' }
    insTimer m2 (.blob n) (t64Add (nowT m2) (m2.bsx.retryGap * 1000))

/-- A blob read issued; through a port without link it fails at once (06 R174). -/
def issueFetch (m : Mod) (n : Nat) : Mod :=
  match tblFind m.bsx.slots n with
  | none => m
  | some f =>
    match blobAddr m (hTenant f.handle) (hIndex f.handle) with
    | none => fetchFailed m n
    | some (p, a) =>
      if portUp m p then
        let m1 := pmcEvent m 0x1005 (some (hTenant f.handle))
        emit (setSlot m1 n { f with retryAt := none, issued := m1.clk }) (.hostRead p (BitVec.ofNat 64 a) (blobLen (hKind f.handle)))
      else fetchFailed m n

/-- Whether a handle's key is fetched for PKE at every use, in no line (06 R175, 10 R274). -/
def pkKind (h : W64) : Bool := hKind h != 1

/-- The slot a command holds for a public-key handle. -/
def slotFor (m : Mod) (c : Cmd) (h : W64) : Option (Nat × Fetch) :=
  c.slots.findSome? (fun n => (tblFind m.bsx.slots n).bind (fun f => if f.handle = h then some (n, f) else none))

/-- The line of a handle's key. -/
def lineFor (m : Mod) (h : W64) : Option (Nat × Line) :=
  (lookupLine m.kch (hTenant h) (hKind h) (hIndex h)).bind (fun n => (tblFind m.kch.lines n).map (fun l => (n, l)))

/-- How asking for one key goes. -/
inductive Ask where
  | have
  | waiting
  | refused (st : W16)
  deriving DecidableEq, Repr

/-- Steps 1 and 2 of Table 5.8 on a handle a command names. -/
def handleStatus (m : Mod) (t : Nat) (h : W64) : Option W16 :=
  if (tenantOf m t).trk.isNone then some stTenantNoRoot
  else if handleOk m t h then none else some stKeyUnknown

/-- A key of PKE's kinds: its blob is fetched into a slot of the command's own. A full stash does not stop it, small kinds
0x2 and 0x3 included (DESIGN CHOICE, log 19: R181 refuses misses on small kinds and lets large ones go on, and these are
never looked up). -/
def askPk (m : Mod) (tag : Nat) (c : Cmd) (h : W64) : Mod × Ask :=
  match slotFor m c h with
  | some (_, f) => (m, if f.blob.isSome then .have else .waiting)
  | none =>
    if !blkServes m .bsx then (m, .refused stRetryLater)
    else if 256 ≤ pkSlots m then (m, .waiting)
    else match freeSlot m with
      | none => (m, .waiting)
      | some n =>
        let f : Fetch :=
          { handle := h, line := none, first := m.clk, issued := m.clk, pk := true, waiters := [tag], retryAt := none, blob := none }
        let m1 := updCmd (setSlot m n f) tag (fun c => { c with slots := n :: c.slots })
        (issueFetch m1 n, .waiting)

/-- A line past its tenant's age limit and unpinned is evicted at the lookup (06 R187). -/
def ageOut (m : Mod) (h : W64) : Mod :=
  match lineFor m h with
  | none => m
  | some (n, l) =>
    let lim := (tenOf m (hTenant h)).tage
    if l.state = .valid ∧ l.pins = [] ∧ lim ≠ 0 ∧ lim * 1000 < lineAge m l then
      let m1 := freeLine m n
      { m1 with kch := { m1.kch with ageEvict := m1.kch.ageEvict + 1 } }
    else m

/-- A miss counted. -/
def countMiss (m : Mod) (t : Nat) : Mod :=
  pmcEvent { m with kch := { m.kch with miss := m.kch.miss + 1 } } 0x1004 (some t)

/-- A miss: a slot and a line are taken, the handle entered, the blob read (06 R173). -/
def missLine (m : Mod) (tag : Nat) (c : Cmd) (h : W64) : Mod × Ask :=
  match freeSlot m with
    | none => (m, .waiting)
    | some s =>
      match takeLine m c.tenant with
      | (none, m1) => (m1, .waiting)
      | (some n, m1) =>
        let l : Line :=
          { state := .fetching, use := .stored, tenant := c.tenant, kind := hKind h, index := hIndex h, attr := [], shareA := [],
            shareB := [], stamp := msStamp c.stamp, pins := [], deliveries := 0, remasked := m1.clk, remasks := 0, slot := some s,
            zero := false }
        let f : Fetch :=
          { handle := h, line := some n, first := m1.clk, issued := m1.clk, pk := false, waiters := [tag], retryAt := none, blob := none }
        let m2 := addWay (setLine m1 n l) { tenant := c.tenant, kind := hKind h, index := hIndex h, line := n }
        (issueFetch (pinLine (setSlot m2 s f) tag n c.stamp) s, .waiting)

/-- A key of kind 0x1: a hit is pinned, a line being fetched is waited on, a miss starts a fetch (06 R172, R173). -/
def askLine (m : Mod) (tag : Nat) (c : Cmd) (h : W64) : Mod × Ask :=
  match lineFor m h with
  | none => missLine (countMiss m c.tenant) tag c h
  | some (n, l) =>
    if l.pins.contains tag then (m, if l.state = .valid then .have else .waiting)
    else
      let m1 := pinLine (if l.state = .fetching then countMiss m c.tenant else m) tag n c.stamp
      if l.state = .valid then (pmcEvent { m1 with kch := { m1.kch with hit := m1.kch.hit + 1 } } 0x1003 (some c.tenant), .have)
      else
        let m2 := match l.slot.bind (tblFind m1.bsx.slots) with
          | some f => setSlot m1 (l.slot.getD 0) { f with waiters := f.waiters ++ [tag] }
          | none => m1
        (m2, .waiting)

/-! ### Releasing -/

/-- A command leaves a fetch slot: a slot of PKE's is released, another loses its waiter. -/
def leaveSlot (tag : Nat) (m : Mod) (n : Nat) : Mod :=
  match tblFind m.bsx.slots n with
  | none => m
  | some f => if f.pk then dropSlot m n else setSlot m n { f with waiters := f.waiters.erase tag }

/-- A command's pins and slots released (06 R172: before a second stage). -/
def releaseKeys (m : Mod) (tag : Nat) : Mod :=
  match cmdOf m tag with
  | none => m
  | some c => updCmd (c.slots.foldl (leaveSlot tag) (unpinAll m tag)) tag (fun c => { c with slots := [] })

/-- One key of a request. -/
def askKey (m : Mod) (tag : Nat) (h : W64) : Mod × Ask :=
  match cmdOf m tag with
  | none => (m, .waiting)
  | some c => if pkKind h then askPk m tag c h else askLine m tag c h

/-- Whether a handle of a request takes a fetch slot: of PKE's kinds and in none yet, or in no line. -/
def takesSlot (m : Mod) (c : Cmd) (h : W64) : Bool := if pkKind h then (slotFor m c h).isNone else (lineFor m h).isNone

/-- What refuses a request before any slot is taken: the handle's checks, a block that does not serve, a full stash
(06 R173, R181). -/
def askRefusal (m : Mod) (c : Cmd) (h : W64) : Option W16 :=
  match handleStatus m c.tenant h with
  | some st => some st
  | none =>
    if !blkServes m .kch then some stRetryLater
    else if !takesSlot m c h then none
    else if !pkKind h && decide (256 ≤ m.kch.stash.length) then some stCacheStashFull
    else if !blkServes m .bsx || (!pkKind h && (blkOf m .khs).fault) then some stRetryLater
    else none

/-- Whether every miss of a request finds its slot; otherwise the request takes nothing and waits (01 R26). -/
def slotsForAll (m : Mod) (c : Cmd) (hs : List W64) : Bool :=
  let l := (hs.filter (takesSlot m c)).eraseDups
  decide (m.bsx.slots.length + l.length ≤ fetchSlots) && (l.all (fun h => !pkKind h) || decide (pkSlots m + l.countP pkKind ≤ 256))

/-- A whole request: every handle is looked up in one step; the first refusal decides; slots for all misses, then pins
(06 R172, 01 R26). -/
def askAll (m : Mod) (tag : Nat) (c : Cmd) (hs : List W64) : Mod × Ask :=
  let m0 := hs.foldl ageOut m
  match hs.findSome? (askRefusal m0 c) with
  | some st => ((if st = stCacheStashFull then countMiss m0 c.tenant else m0), .refused st)
  | none =>
    if !slotsForAll m0 c hs then (m0, .waiting)
    else hs.foldl (fun (r : Mod × Ask) h =>
      let (m1, b) := askKey r.1 tag h
      (m1, match r.2, b with
        | .have, b => b
        | a, .have => a
        | _, .refused st => .refused st
        | a, _ => a)) (m0, .have)

/-- Whether a command already holds a handle of a request, or waits on its line. -/
def asked (m : Mod) (tag : Nat) (c : Cmd) (h : W64) : Bool :=
  if pkKind h then (slotFor m c h).isSome else (lineFor m h).elim false (fun x => x.2.pins.contains tag)

/-- A request of a command: where it names a key that the command does not hold, the command's pins and slots are released
first, so that it is made while the command holds none (06 R172, 01 R26). -/
def askKeys (m : Mod) (tag : Nat) (hs : List W64) : Mod × Ask :=
  match cmdOf m tag with
  | none => (m, .waiting)
  | some c =>
    let m0 := if (c.pins.isEmpty && c.slots.isEmpty) || hs.all (asked m tag c) then m else releaseKeys m tag
    match cmdOf m0 tag with
    | none => (m0, .waiting)
    | some c0 => askAll m0 tag c0 hs

/-- A stream command leaves its status on the context it names (08 Table 8.13, SCX_LAST_STATUS). -/
def noteStatus (m : Mod) (tag : Nat) (st : W16) : Mod :=
  match cmdOf m tag with
  | none => m
  | some c =>
    if !c.admin && decide (0x0810 ≤ c.opcode ∧ c.opcode ≤ 0x0813) && !c.body.isEmpty && decide (getNat8 c.body 0 < 8) then
      updStr m c.tenant (getNat8 c.body 0) (fun x => { x with lastStatus := st })
    else m

/-- A command ends with its keys released. -/
def endCmd (m : Mod) (tag : Nat) (st : W16) (res : Bytes) : Mod :=
  let m1 := noteStatus m tag st
  complete (releaseKeys m1 tag) tag st res

/-! ### What a program reads of its keys -/

/-- The attributes and key field of a handle as the command holds it; the request is made where it is not held yet. -/
def keyHeld (m : Mod) (tag : Nat) (c : Cmd) (hs : List W64) (h : W64) : Except Act (Bytes × Bytes) :=
  if pkKind h then
    match (slotFor m c h).bind (fun x => x.2.blob) with
    | none => .error (.need hs)
    | some b =>
      match checkBlob m h b with
      | .ok p => .ok p
      | .error st => .error (.stop st)
  else
    match lineFor m h with
    | none => .error (.need hs)
    | some (_, l) => if l.state = .valid ∧ l.pins.contains tag then .ok (l.attr, lineKey l) else .error (.need hs)

/-- A key used: held, then steps 6 to 8 of Table 5.8 at the command's stamp. -/
def useKey (m : Mod) (tag : Nat) (c : Cmd) (hs : List W64) (h : W64) : Except Act (Bytes × Bytes) := do
  let p ← keyHeld m tag c hs h
  match keyUse m h p.1 c.stamp with
  | some st => .error (.stop st)
  | none => pure p

/-- All keys of a request held; used where a program checks them one by one later. -/
def holdAll (m : Mod) (tag : Nat) (c : Cmd) (hs : List W64) : Except Act Unit :=
  hs.foldl (fun r h => r.bind (fun _ => (keyHeld m tag c hs h).map (fun _ => ()))) (.ok ())

/-- The key bytes of a symmetric key, cut to its length. -/
def symKey (attr key : Bytes) : Bytes := key.take (aLen attr / 8)

/-- A key's usage and mode, and its algorithm where it matters (05 Table 5.8 step 9). -/
def keyIs (attr : Bytes) (usages : List String) (modes : List Char) : Except Act Unit :=
  ensure (usages.any (fun u => aUsage attr == ascii u) && modes.any (fun x => aMode attr == chr x)) stKeyUsage

/-- The successor of a key that may be active at a stamp, as far as the key state table shows (09 R240): one it calls
destroyed or retired is not. -/
def successorOf (m : Mod) (h s : W64) : Option W64 :=
  (kstIn m.dur h).bind (fun e => e.successor.bind (fun k =>
    let e2 := kstIn m.dur k
    if (e2.bind (fun e => e.destroyed)).isSome || (e2.bind (fun e => e.retire)).any (fun r => decide (r.toNat ≤ s.toNat)) then
      none
    else some k))

/-- A key named for output, its successors followed where asked (09 R240): `hs` are the other keys of the request. The
successor's own checks say whether it is active; the chain then goes on from there, at most four keys being asked for at
once (01 R27). -/
def useFollowed (m : Mod) (tag : Nat) (c : Cmd) (hs : List W64) (h : W64) (follow : Bool) :
    Except Act (W64 × Bytes × Bytes) := do
  let k := if follow then c.reached.getD h else h
  let p ← useKey m tag c (hs ++ [k]) k
  match if follow then successorOf m k c.stamp else none with
  | none => pure (k, p)
  | some s =>
    let q ← keyHeld m tag c (hs ++ [k, s]) s
    match keyUse m s q.1 c.stamp with
    | some _ => pure (k, p)
    | none => .error (.reach s)

/-- The key a chain has led to, of a handle named for output. -/
def reachedOf (c : Cmd) (h : W64) (follow : Bool) : W64 := if follow then c.reached.getD h else h

/-- A masked pipeline is at hand: SCE serves and the generators run (02 R36, 05 R164). -/
def needCipher (m : Mod) : Except Act Unit := do
  ensure (blkServes m .sce) stRetryLater
  ensure (!m.rng.halted) stAborted

/-- Randomness is at hand (05 R164). -/
def needRng (m : Mod) : Except Act Unit := ensure (!m.rng.halted) stAborted

/-- The blocks a program's micro-operations took (08 Table 8.14). -/
def countBlocks (m : Mod) (aes tdes : Nat) : Mod :=
  { m with sce := { m.sce with
    aesBlocks := m.sce.aesBlocks + BitVec.ofNat 64 aes, tdesBlocks := m.sce.tdesBlocks + BitVec.ofNat 64 tdes } }

/-! ### Running a program -/

/-- Results that fit inline: 24 bytes sealed, 40 open (03 R68, R69). -/
def inlineMax (c : Cmd) : Nat := if c.sealKey.isSome then 24 else 40

/-- Whether a command came by a host path, where results use a buffer (03 R69). -/
def hostPath (c : Cmd) : Bool := match c.path with | .nct _ _ => false | _ => true

/-- The result buffer is too small for the largest result of the opcode (03 R69). -/
def resultShort (c : Cmd) : Bool :=
  let n := (opInfo c.opcode).elim 0 (fun i => i.maxRes)
  hostPath c && decide (c.resSize < n) && decide (inlineMax c < n)

/-- What an event makes of a command whose wait it ends. -/
def actNow (m : Mod) (tag : Nat) (r : Except Act Act) : Mod :=
  match cmdOf m tag, r with
  | none, _ => m
  | some _, .ok (.stop st) | some _, .error (.stop st) => endCmd m tag st []
  | some _, .ok (.finish m1 st res) | some _, .error (.finish m1 st res) => endCmd m1 tag st res
  | some c, .ok (.journal m1 e st res own) | some c, .error (.journal m1 e st res own) =>
    issueFor (releaseKeys m1 tag) tag e st res own (takesEntry c)
  | some _, .ok (.hold m1) | some _, .error (.hold m1) => m1
  | some _, _ => m

/-- A dispatch of a command: its program runs to its end or to a wait. `fuel` bounds the stages and requests of one
dispatch (06 R172). -/
def runProg (prog : Prog) : Nat → Mod → Nat → Mod
  | 0, m, _ => m
  | f + 1, m, tag =>
    match cmdOf m tag with
    | none => m
    | some c =>
      let act := match prog m tag c with
        | .ok a => a
        | .error a => a
      match act with
      | .stop st => endCmd m tag st []
      | .finish m1 st res => endCmd m1 tag st res
      | .journal m1 effs st res own => issueFor (releaseKeys m1 tag) tag effs st res own (takesEntry c)
      | .hold m1 => m1
      | .stage m1 mem =>
        runProg prog f (updCmd (releaseKeys m1 tag) tag (fun c => { c with stage := c.stage + 1, mem := mem })) tag
      | .reach h => runProg prog f (updCmd m tag (fun c => { c with reached := some h })) tag
      | .need hs =>
        match askKeys m tag hs with
        | (m1, .refused st) => endCmd m1 tag st []
        | (m1, .waiting) => updCmd m1 tag (fun c => { c with phase := .keys })
        | (m1, .have) => runProg prog f m1 tag

/-- The program of a command that a context holds begins or goes on: at its first dispatch the result buffer is checked
(03 R69). -/
def runCmd (prog : Prog) (m : Mod) (tag : Nat) : Mod :=
  match cmdOf m tag with
  | none => m
  | some c =>
    if (blkOf m .txp).locked then endCmd m tag stLocked []
    else if c.runs ≤ 1 ∧ resultShort c then endCmd m tag stBadLength []
    else runProg prog (64 + m.dur.kst.length) m tag

end Sys2Proof.Machine
end

