-- ==== Sys2Proof/Machine/Quorum.lean ====
section
/-! DEFINITION. Classes, policies and quorum decisions (11 R301 to R308), and the creation of a stored key (05 R143,
06 R176), which programs of several families share. -/

namespace Sys2Proof.Machine

/-! ### Classes (11 Table 11.1) -/

def clsKeyCreate : Nat := 0x01
def clsKeyTrust : Nat := 0x02
def clsKeyExport : Nat := 0x03
def clsKeyRetire : Nat := 0x04
def clsKeyDestroy : Nat := 0x05
def clsPinBudget : Nat := 0x06
def clsTenantRoot : Nat := 0x07
def clsCustodian : Nat := 0x08
def clsTenantAdmin : Nat := 0x11
def clsDevCustodian : Nat := 0x12
def clsTwinPair : Nat := 0x13
def clsTimeConfig : Nat := 0x14
def clsCalibration : Nat := 0x15
def clsLifeCycle : Nat := 0x16
def clsDebug : Nat := 0x17
def clsMicrocode : Nat := 0x18
def clsMaintenance : Nat := 0x19

/-- Whether a class is defined. -/
def classDefined (k : Nat) : Bool := (decide (1 ≤ k) && decide (k ≤ 8)) || (decide (0x11 ≤ k) && decide (k ≤ 0x19))

/-- Whether a class belongs to the device domain. -/
def classDevice (k : Nat) : Bool := decide (0x11 ≤ k)

/-- The default M of a class. -/
def defaultM (k : Nat) : Nat :=
  if k = clsKeyTrust ∨ k = clsKeyDestroy ∨ k = clsTenantRoot ∨ k = clsCustodian ∨ classDevice k then 2 else 0

/-- The M of a class in a domain (11 R301). -/
def policyM (d : Durable) (dom k : Nat) : Nat := tblGet (defaultM k) (domainIn d dom).m k

/-- OP_DIGEST of a command: opcode, tenant ID, plaintext body (11 R304); on the admin queue the tenant is 0 (log 20). -/
def opDigest (opcode tenant : Nat) (body : Bytes) : Bytes := sha384 (natLe 2 opcode ++ natLe 2 tenant ++ body)

/-- OP_DIGEST of a command at a tag. -/
def cmdDigest (c : Cmd) : Bytes := opDigest c.opcode (if c.admin then 0 else c.tenant) c.body

/-! ### Deciding a quorum -/

/-- Whether an approval counts for a command's stamp: its custodian is still the one enrolled (11 R307). -/
def approvalCounts (dom : Domain) (s : W64) (a : Nat × W64) : Bool :=
  match tblFind dom.cust a.1 with
  | none => false
  | some k => decide (k.stamp.toNat ≤ a.2.toNat) && decide (a.2.toNat ≤ s.toNat)

/-- Approvals that count. -/
def counted (dom : Domain) (ch : Challenge) (s : W64) : Nat := ch.approvals.countP (approvalCounts dom s)

/-- A challenge's bytes of interest: class and digest match. -/
def chalMatches (k : Nat) (digest : Bytes) (ch : Challenge) : Bool := ch.cls == k && ch.opDigest == digest

/-- Whether a challenge can still be used at stamps inside its window. -/
def chalLive (ch : Challenge) : Bool := ch.state == 0 || ch.state == 3

/-- The earliest opened of the challenges that match and whose window holds the stamp (11 R307). -/
def findChallenge (dom : Domain) (k : Nat) (digest : Bytes) (s : W64) : Option (Nat × Challenge) :=
  (dom.chal.filter (fun p => chalMatches k digest p.2 && chalLive p.2 && inWindow p.2.opened p.2.ends s)).foldl
    (fun (b : Option (Nat × Challenge)) p =>
      match b with
      | none => some p
      | some x => if p.2.opened.toNat < x.2.opened.toNat then some p else some x) none

/-- Whether a challenge matches whose window does not hold the stamp (11 R308). -/
def matchOutside (dom : Domain) (k : Nat) (digest : Bytes) (s : W64) : Bool :=
  dom.chal.any (fun p => chalMatches k digest p.2 && chalLive p.2 && !inWindow p.2.opened p.2.ends s)

/-- Whether approvals of a challenge stamped at or before a stamp are still being verified (11 R307). -/
def verifyingFor (m : Mod) (dom id : Nat) (s : W64) : Bool :=
  m.dcu.verify.any (fun p => p.2.dom == dom && p.2.chal == id && decide (p.2.stamp.toNat ≤ s.toNat))

/-- A challenge with nothing in it, consumed. -/
def Challenge.spent : Challenge :=
  { cls := 0, opDigest := [], bytes := [], opened := 0, ends := 0, approvals := [], state := 1, localOnly := false }

/-- A challenge consumed in a domain's record. -/
def consumeIn (d : Durable) (dom id : Nat) : Effect :=
  let x := domainIn d dom
  let chal := tblUpd Challenge.spent x.chal id (fun ch => { ch with state := 1 })
  .domain dom { x with chal := chal }

/-- A quorum of `need` approvals of a class, judged against durable state `d`: the effects that consume its challenge,
or what the command comes to (11 R303, R307, R308). -/
def quorumOf (m : Mod) (d : Durable) (tag : Nat) (c : Cmd) (dom k need : Nat) (digest : Bytes) :
    Except Act (List Effect) :=
  let x := domainIn d dom
  if need = 0 then .ok []
  else if (blkOf m .dcu).locked then .error (.stop stLocked)
  else match findChallenge x k digest c.stamp with
    | none => .error (.stop (if matchOutside x k digest c.stamp then stOutsideWindow else stQuorumMissing))
    | some (id, ch) =>
      if verifyingFor m dom id c.stamp then .error (.hold (updCmd m tag (fun c => { c with phase := .verify })))
      else if counted x ch c.stamp < need then .error (.stop stQuorumMissing)
      else .ok [consumeIn d dom id, .consumed dom id]

/-- The quorum of a class in a domain, at the policy's M (11 R301, R303). -/
def quorumIn (m : Mod) (d : Durable) (tag : Nat) (c : Cmd) (dom k : Nat) (digest : Bytes) : Except Act (List Effect) :=
  if classDevice k ∧ (domainIn d dom).cust.length < 2 then .error (.stop stQuorumMissing)
  else quorumOf m d tag c dom k (policyM d dom k) digest

/-- The quorums of several classes, each on a challenge of its own domain (11 R302): the effects that consume them. -/
def quorums (m : Mod) (tag : Nat) (c : Cmd) (digest : Bytes) : List (Nat × Nat) → Durable → Except Act (List Effect)
  | [], _ => .ok []
  | (dom, k) :: rest, d => do
    let e ← quorumIn m d tag c dom k digest
    let r ← quorums m tag c digest rest (e.foldl effDur d)
    pure (e ++ r)

/-- The quorum of one class in its own domain. -/
def quorum (m : Mod) (tag : Nat) (c : Cmd) (k : Nat) : Except Act (List Effect) :=
  quorums m tag c (cmdDigest c) [(if classDevice k then deviceDomain else c.tenant, k)] (projDur m)

/-! ### Creating a key -/

/-- Blob writes reserved or held (06 R176, BSX_PEND_WRITE). -/
def pendWrites (m : Mod) : Nat :=
  m.bsx.pend.length + ((m.jnl.issued ++ m.jnl.waiting).map (fun i => i.rcd.effects)).flatten.countP
    (fun e => match e with | .blob _ _ _ => true | _ => false)

/-- The index a new blob of a kind takes at a cursor (05 R143). -/
def nextIndex (k cursor : Nat) : Nat := if kindLarge k then (cursor + 15) / 16 * 16 else cursor

/-- A tenant's wrapping generation for the next blob; none when they are spent (05 R144). -/
def nextGen (x : Tenant) : Option (Nat × Nat) :=
  if x.sealedCnt < 2 ^ 32 then some (x.twkGen, x.sealedCnt)
  else if x.twkGen = 0xFFFF then none
  else some (x.twkGen + 1, 0)

/-- The timers of a new key's activation and retirement (04 R107). -/
def keyTimers (h : W64) (attr : Bytes) : List Effect :=
  (if aNotBefore attr = 0 then [] else [.schedule h (aNotBefore attr)]) ++
    (if aNotAfter attr = t64Never then [] else [.schedule h (aNotAfter attr)])

/-- A key created under a tenant's root as the records before leave it: link and entry checked, index and generation
taken, the blob sealed; the effects of its record and its handle (05 R143, R144, 06 R176). -/
def createKey (m : Mod) (d : Durable) (t kind : Nat) (attr key : Bytes) : Except Act (List Effect × W64) := do
  let x := tenantIn d t
  let trk ← orStop x.trk stTenantNoRoot
  let i := nextIndex kind x.cursor
  let units := kindUnits kind
  let place ← orStop (blobAddr m t i) stBlobSpace
  ensure (decide (i + units ≤ winUnits m t * 16384)) stBlobSpace
  ensure (blkServes m .bsx && portUp m place.1 && decide (pendWrites m < 4096)) stRetryLater
  let (g, n) ← orStop (nextGen x) stBlobSpace
  let hck := hckOf trk t x.epoch
  let h := handleOf hck t kind i
  let blob := sealBlob (twkOf trk t x.epoch g) (blobHeader t kind x.epoch g i (hCheck h)) attr key (blobLen kind)
  pure ([.tenant t { x with cursor := i + units, twkGen := g, sealedCnt := n + 1 }, .blob t i blob] ++ keyTimers h attr, h)

end Sys2Proof.Machine
end

