-- ==== Sys2Proof/Machine/Operands.lean ====
section
/-! DEFINITION. Operands: the fields of a command's body and the checks made on them before any key is taken
(09 R239, 07 R192, R193, R201). -/

namespace Sys2Proof.Machine

/-- The byte of a body at an offset. -/
def f8 (c : Cmd) (off : Nat) : Nat := getNat8 c.body off

/-- The 16-bit field of a body at an offset. -/
def f16 (c : Cmd) (off : Nat) : Nat := (getLe16 c.body off).toNat

/-- The 32-bit field of a body at an offset. -/
def f32 (c : Cmd) (off : Nat) : Nat := (getLe32 c.body off).toNat

/-- The 64-bit field of a body at an offset. -/
def f64 (c : Cmd) (off : Nat) : W64 := getLe64 c.body off

/-- A byte string of a body. -/
def fBytes (c : Cmd) (off len : Nat) : Bytes := sliceOf c.body off len

/-- The body's length is the one stated (09 R239). -/
def bodyLen (c : Cmd) (n : Nat) : Except Act Unit := ensure (c.body.length == n) stBadLength

/-- The body has at least the fixed fields stated. -/
def bodyMin (c : Cmd) (n : Nat) : Except Act Unit := ensure (decide (n ≤ c.body.length)) stBadLength

/-- Reserved bytes of a body are 0. -/
def reserved (c : Cmd) (off len : Nat) : Except Act Unit := ensure (allZero (fBytes c off len)) stBadFormat

/-- A field stands inside its stated range. -/
def range (b : Bool) : Except Act Unit := ensure b stBadFormat

/-- Packed BCD digits: `n` digits and then 0xF to the end (07 R192). -/
def bcdOf (b : Bytes) (n : Nat) : Option (List Nat) :=
  let d := nibbles b
  if n ≤ d.length ∧ (d.take n).all (fun x => decide (x ≤ 9)) = true ∧ (d.drop n).all (· == 15) = true
  then some (d.take n) else none

/-- Digits as packed BCD in a field of `len` bytes, padded with 0xF. -/
def bcdField (len : Nat) (d : List Nat) : Bytes := packNibbles (d ++ List.replicate (2 * len - d.length) 15)

/-- A PAN of a body: 12 to 19 digits (07 R192, R193). -/
def panOf (c : Cmd) (lenOff off : Nat) : Except Act (List Nat) := do
  range (decide (12 ≤ f8 c lenOff ∧ f8 c lenOff ≤ 19))
  orStop (bcdOf (fBytes c off 10) (f8 c lenOff)) stBadFormat

/-- A result that fits its field. -/
def result (b : List Bytes) : Bytes := b.flatten

end Sys2Proof.Machine
end

