-- ==== Sys2Proof/Machine/Budget.lean ====
section
/-! DEFINITION. PIN-verification rate budgets (09 R252 to R256). -/

namespace Sys2Proof.Machine

/-- Entries of the budget table. -/
def budgetLimit : Nat := 262144

/-- The window of a budget that holds a stamp (09 R253). -/
def windowOf (b : Budget) (s : W64) : Nat := s.toNat / 2 ^ 30 / max 1 b.window

/-- A budget brought forward to a stamp (09 R253). -/
def broughtForward (b : Budget) (s : W64) : Budget :=
  let w := windowOf b s
  if b.current < w then { b with current := w, count := 0 } else b

/-- Whether a budget's current window is one taken as spent (09 R255). -/
def windowSpent (b : Budget) : Bool := b.spent.elim false (fun x => decide (b.current ≤ x / max 1 b.window))

/-- A reservation: the budget with one more attempt, or the status that refuses it (09 R253). -/
def reserve (m : Mod) (h s : W64) : Except Act Budget :=
  match tblFind m.dur.bud h.toNat with
  | none => .error (.stop stNoBudget)
  | some b =>
    let x := broughtForward b s
    if !trustedAt m s then .error (.stop stTimeUntrusted)
    else if x.limit ≤ x.count ∨ windowSpent x = true then .error (.stop stRateLimited)
    else .ok { x with count := x.count + 1 }

/-- The end of a budget's current window. -/
def windowEnd (b : Budget) : W64 := BitVec.ofNat 64 ((b.current + 1) * b.window * 2 ^ 30)

/-- A counted attempt (09 R254): the count is kept and sent to the Leeward; the completion waits for its
acknowledgement while the pair is synchronised. Counts travel as records of JSN 0 (DESIGN CHOICE, log 29). -/
def countedStop (m : Mod) (tag : Nat) (h : W64) (b : Budget) (st : W16) : Act :=
  let m1 := { m with dur := { m.dur with bud := tblSet m.dur.bud h.toNat b } }
  if m1.tlk.paired && m1.tlk.sync then
    let r : JRecord := { jsn := 0, effects := [.budget h (some b)], req := none, tag := none, unitOnly := false }
    let m2 := { m1 with tlk := { m1.tlk with countSeq := m1.tlk.countSeq + 1 } }
    .hold (updCmd (sendTwin m2 (.record r)) tag (fun c => { c with phase := .count m1.tlk.countSeq m.clk, outcome := some (st, []) }))
  else .finish m1 st []

/-- A match: the reservation is returned, the window it was made in stays current (09 R253). -/
def returned (m : Mod) (h : W64) (b : Budget) : Mod :=
  { m with dur := { m.dur with bud := tblSet m.dur.bud h.toNat { b with count := b.count - 1 } } }

/-- PIN_BUDGET_SET (09 R252). -/
def progBudgetSet : Prog := fun m tag c => do
  bodyLen c 16
  let h := f64 c 0
  let limit := f32 c 8
  let window := f32 c 12
  range (decide (limit = 0 ∨ (1 ≤ window ∧ window ≤ 86400)))
  let q ← quorum m tag c clsPinBudget
  let (attr, _) ← useKey m tag c [h] h
  ensure (aUsage attr == ascii "V1" || (aUsage attr == ascii "P0" && (aMode attr == chr 'D' || aMode attr == chr 'B')))
    stKeyUsage
  let d := projDur m
  match tblFind d.bud h.toNat with
  | none =>
    ensure (limit != 0) stNoBudget
    ensure (decide (d.bud.length < budgetLimit)) stBudgetFull
    pure (.journal m (q ++ [.budgetSet h limit window c.stamp]) stOk [] false)
  | some _ =>
    pure (.journal m (q ++ [if limit = 0 then .budget h none else .budgetSet h limit window c.stamp]) stOk [] false)

/-- PIN_BUDGET_GET (09 R256); a window taken as spent shows LIMIT as its count (DEDUCED, log 31). -/
def progBudgetGet : Prog := fun m tag c => do
  bodyLen c 8
  let h := f64 c 0
  let _ ← useKey m tag c [h] h
  let b ← orStop (tblFind m.dur.bud h.toNat) stNoBudget
  let x := broughtForward b c.stamp
  let start : W64 := BitVec.ofNat 64 (x.current * x.window * 2 ^ 30)
  pure (okWith m (natLe 4 x.limit ++ natLe 4 x.window ++ le64 start ++
    natLe 4 (if windowSpent x then x.limit else x.count) ++ zeroBytes 4))

/-- The rollover timer of a budget fires: its window moves on, the count restarts, and the next timer is placed
(04 R111, 09 R254). -/
def opBudgetRollover (m : Mod) : Mod :=
  match dueTimer m 3 with
  | none => m
  | some t =>
    let m1 := takeTimer m t
    match t.kind with
    | .budget h =>
      match tblFind m1.dur.bud h with
      | none => m1
      | some b =>
        let x := broughtForward b (tickT m1)
        insTimer { m1 with dur := { m1.dur with bud := tblSet m1.dur.bud h x } } (.budget h) (windowEnd x)
    | _ => m1

end Sys2Proof.Machine
end

