-- ==== Sys2Proof/Machine/Ff1.lean ====
section
/-! DEFINITION. Format-preserving encryption FF1 of SP 800-38G in radix 10, which the spec names (09 R265).
PRESUMED: the mode itself is the published standard's (log 6). -/

namespace Sys2Proof.Machine

/-- The fixed first block of FF1 for radix 10. -/
def ff1P (n u tlen : Nat) : Bytes :=
  [1, 2, 1] ++ natBe 3 10 ++ [10, byteOf (u % 256)] ++ natBe 4 n ++ natBe 4 tlen

/-- The number FF1 adds in round `i`: from the other half. -/
def ff1Y (key tweak : Bytes) (n u i half : Nat) : Nat :=
  let v := n - u
  let b := ((10 ^ v - 1).log2 + 1 + 7) / 8
  let d := 4 * ((b + 3) / 4) + 4
  let padLen := (32 - (tweak.length + b + 1) % 16) % 16
  let q := tweak ++ zeroBytes padLen ++ [byteOf i] ++ natBe b half
  let r := cbcMac .aes key (zeroBytes 16) (ff1P n u tweak.length ++ q)
  let more := ((List.range ((d + 15) / 16 - 1)).map (fun j => aesEnc key (xorBytes r (natBe 16 (j + 1))))).flatten
  beNat ((r ++ more).take d)

/-- The rounds of FF1 encryption from round `i` on. -/
def ff1EncRounds (key tweak : Bytes) (n u : Nat) : Nat → Nat → Nat → Nat → Nat × Nat
  | 0, _, a, b => (a, b)
  | k + 1, i, a, b =>
    let m := if i % 2 = 0 then u else n - u
    let y := ff1Y key tweak n u i b
    ff1EncRounds key tweak n u k (i + 1) b ((a + y) % 10 ^ m)

/-- The rounds of FF1 decryption from round `i` down. -/
def ff1DecRounds (key tweak : Bytes) (n u : Nat) : Nat → Nat → Nat → Nat × Nat
  | 0, a, b => (a, b)
  | i + 1, a, b =>
    let m := if i % 2 = 0 then u else n - u
    let y := ff1Y key tweak n u i a
    ff1DecRounds key tweak n u i ((b + 10 ^ m - y % 10 ^ m) % 10 ^ m) a

/-- AES blocks of one FF1 operation on `n` digits: in each of ten rounds the fixed block and those of the tweak and half. -/
def ff1Blocks (tlen n : Nat) : Nat :=
  let b := ((10 ^ (n - n / 2) - 1).log2 + 1 + 7) / 8
  10 * (1 + (tlen + b + 1 + 15) / 16)

/-- FF1 encryption of decimal digits. -/
def ff1Enc (key tweak : Bytes) (d : List Nat) : List Nat :=
  let n := d.length
  let u := n / 2
  let (a, b) := ff1EncRounds key tweak n u 10 0 (digitsNat (d.take u)) (digitsNat (d.drop u))
  natDigits u a ++ natDigits (n - u) b

/-- FF1 decryption of decimal digits. -/
def ff1Dec (key tweak : Bytes) (d : List Nat) : List Nat :=
  let n := d.length
  let u := n / 2
  let (a, b) := ff1DecRounds key tweak n u 10 (digitsNat (d.take u)) (digitsNat (d.drop u))
  natDigits u a ++ natDigits (n - u) b

end Sys2Proof.Machine
end

