-- ==== Sys2Proof/Machine/PayCrypto.lean ====
section
/-! DEFINITION. What the payment programs compute: PIN fields, decimalised offsets, DUKPT, MACs, EMV keys and
cryptograms, card security codes (09 R245 to R265). -/

namespace Sys2Proof.Machine

/-! ### PIN fields (09 Table 9.4, R245) -/

/-- The block cipher of a PIN block format. -/
def fmtCipher (f : Nat) : Cipher := if f = 4 then .aes else .tdes

/-- The formats the module applies. -/
def fmtDefined (f : Nat) : Bool := f == 0 || f == 1 || f == 3 || f == 4

/-- Bytes of a block of a format. -/
def fmtLen (f : Nat) : Nat := if f = 4 then 16 else 8

/-- The PAN field of a format, zero where it has none. -/
def panField (f : Nat) (pan : List Nat) : Bytes :=
  if f = 1 then zeroBytes 8
  else if f = 4 then packNibbles (([pan.length - 12] ++ pan ++ List.replicate 32 0).take 32)
  else
    let d := (pan.take (pan.length - 1))
    let last := d.drop (d.length - 12)
    packNibbles (List.replicate (16 - last.length) 0 ++ last)

/-- The PIN field of an enciphered block. -/
def pinOpen (f : Nat) (key : Bytes) (pan : List Nat) (blk : Bytes) : Bytes :=
  if f = 4 then aesDec key (xorBytes (aesDec key blk) (panField 4 pan))
  else xorBytes (tdesDec key (blk.take 8)) (panField f pan)

/-- The enciphered block of a PIN field. -/
def pinSeal (f : Nat) (key : Bytes) (pan : List Nat) (field : Bytes) : Bytes :=
  if f = 4 then aesEnc key (xorBytes (aesEnc key field) (panField 4 pan))
  else tdesEnc key (xorBytes field (panField f pan))

/-- Whether a fill nibble matches a format. -/
def fillOk (f x : Nat) : Bool :=
  if f = 0 then x == 15 else if f = 1 then decide (x ≤ 9) else if f = 3 then decide (10 ≤ x) else x == 10

/-- PF_CHECK: the PIN digits of a field that passes (09 R245). -/
def pfCheck (f : Nat) (field : Bytes) : Option (List Nat) :=
  let d := (nibbles field).take 16
  let n := d.getD 1 0
  let pin := (d.drop 2).take n
  if d.getD 0 99 = f ∧ 4 ≤ n ∧ n ≤ 12 ∧ pin.all (fun x => decide (x ≤ 9)) = true ∧
      (d.drop (2 + n)).all (fillOk f) = true then some pin
  else none

/-- PF_BUILD: a PIN field with the fill made of random bytes, 16 of them (09 R245). -/
def pfBuild (f : Nat) (pin : List Nat) (fill : Bytes) : Bytes :=
  let r := fill.map (fun b => b.toNat)
  let pad := fun (x : Nat) => if f = 0 then 15 else if f = 1 then x % 10 else if f = 3 then 10 + x % 6 else 10
  let head := (([f, pin.length] ++ pin) ++ r.map pad).take 16
  packNibbles head ++ (if f = 4 then fill.take 8 else [])

/-! ### Decimalised offsets (09 R249) -/

/-- The decimalisation table of a PVK: its own where DEC_LOCK is 1 (05 R147). -/
def decTable (attr key : Bytes) : List Nat :=
  if aDecLock attr then nibbles (sliceOf key 32 8) else (List.range 16).map (fun i => i % 10)

/-- Whether a decimalisation table is valid: digits alone, each at least once (09 R249). -/
def decTableOk (b : Bytes) : Bool :=
  let d := nibbles b
  d.all (fun x => decide (x ≤ 9)) && (List.range 10).all (fun x => d.contains x)

/-- The natural PIN digits of validation data under a PVK. -/
def naturalPin (attr key vdata : Bytes) (n : Nat) : List Nat :=
  ((nibbles (tdesEnc (key.take 16) vdata)).take n).map (fun x => (decTable attr key).getD x 0)

/-- DEC_MATCH. -/
def decMatch (attr key vdata : Bytes) (offset pin : List Nat) : Bool :=
  ((naturalPin attr key vdata offset.length).zip offset).map (fun p => (p.1 + p.2) % 10) == pin

/-- DEC_OFFSET. -/
def decOffset (attr key vdata : Bytes) (pin : List Nat) : List Nat :=
  (pin.zip (naturalPin attr key vdata pin.length)).map (fun p => (p.1 + 10 - p.2) % 10)

/-! ### DUKPT (09 R257 to R259) -/

/-- The bits set in a counter, from a highest bit down. -/
def bitsDown (hi n : Nat) : List Nat := ((List.range (hi + 1)).reverse).filter (fun i => n.testBit i)

/-- Whether a KSN keeps the rules of a variant; `initial` admits a counter of zero alone (09 R257, Table 9.11). -/
def ksnOk (variant : Nat) (ksn : Bytes) (initial : Bool) : Bool :=
  if variant = 2 then
    let ctr := beNat (sliceOf ksn 8 4)
    if initial then ctr == 0 else ctr != 0 && decide (popCount 32 ctr ≤ 16)
  else
    let ctr := beNat (sliceOf ksn 7 3) % 2 ^ 21
    allZero (sliceOf ksn 10 2) && (if initial then ctr == 0 else ctr != 0 && decide (popCount 21 ctr ≤ 10))

/-- The 10-byte KSN of VARIANT 1 with its counter cleared. -/
def ksnBase (ksn : Bytes) : Bytes := natBe 10 (beNat (ksn.take 10) / 2 ^ 21 * 2 ^ 21)

/-- What a stored initial key is bound to: the initial key ID, or the KSN without counter (09 R267). -/
def ksnId (variant : Nat) (ksn : Bytes) : Bytes := if variant = 2 then ksn.take 8 else ksnBase ksn

/-- A derivation step of X9.24-3 with a key of 16 or 32 bytes (09 Table 9.10). -/
def dukptAes (k : Bytes) (usage : Nat) (data : Bytes) : Bytes :=
  let alg := if k.length = 32 then 4 else 2
  let one := fun (i : Nat) => aesEnc k ([1, byteOf i] ++ natBe 2 usage ++ natBe 2 alg ++ natBe 2 (8 * k.length) ++ data)
  if k.length = 32 then one 1 ++ one 2 else one 1

/-- The initial key of VARIANT 2. -/
def dukptIk2 (bdk ksn : Bytes) : Bytes := dukptAes bdk 0x8001 (ksn.take 8)

/-- The keys after each counter bit of VARIANT 2, the working counter standing at `wc` before. -/
def stepKeys2 (did : Bytes) : Bytes → Nat → List Nat → List Bytes
  | _, _, [] => []
  | k, wc, b :: r =>
    let k' := dukptAes k 0x8000 (did ++ natBe 4 (wc + 2 ^ b))
    k' :: stepKeys2 did k' (wc + 2 ^ b) r

/-- The intermediate keys of VARIANT 2 from an initial key. -/
def dukptSteps2 (ik ksn : Bytes) : List Bytes :=
  stepKeys2 (sliceOf ksn 4 4) ik 0 (bitsDown 31 (beNat (sliceOf ksn 8 4)))

/-- The working key of VARIANT 2 from an initial key. -/
def dukptWork2 (ik ksn : Bytes) (usage : Nat) : Bytes :=
  dukptAes ((dukptSteps2 ik ksn).getLastD ik) usage (sliceOf ksn 4 4 ++ sliceOf ksn 8 4)

/-- The constant C of 09 R259. -/
def dukptC : Bytes := [0xC0, 0xC0, 0xC0, 0xC0, 0, 0, 0, 0, 0xC0, 0xC0, 0xC0, 0xC0, 0, 0, 0, 0]

/-- The initial key of VARIANT 1. -/
def dukptIk1 (bdk ksn : Bytes) : Bytes :=
  let x := (ksnBase ksn).take 8
  tdesEnc bdk x ++ tdesEnc (xorBytes bdk dukptC) x

/-- One step of the non-reversible process on half a key. -/
def nrkg (k reg : Bytes) : Bytes :=
  let r := k.drop 8
  xorBytes (desEnc (k.take 8) (xorBytes reg r)) r

/-- The keys after each counter bit of VARIANT 1, the register standing at `reg` before. -/
def stepKeys1 : Bytes → Nat → List Nat → List Bytes
  | _, _, [] => []
  | k, reg, b :: r =>
    let rb := natBe 8 (reg + 2 ^ b)
    let k' := nrkg (xorBytes k dukptC) rb ++ nrkg k rb
    k' :: stepKeys1 k' (reg + 2 ^ b) r

/-- The intermediate keys of VARIANT 1 from an initial key. -/
def dukptSteps1 (ik ksn : Bytes) : List Bytes :=
  stepKeys1 ik (beNat ((ksnBase ksn).drop 2)) (bitsDown 20 (beNat (sliceOf ksn 7 3) % 2 ^ 21))

/-- The current key of VARIANT 1 from an initial key. -/
def dukptWork1 (ik ksn : Bytes) : Bytes := (dukptSteps1 ik ksn).getLastD ik

/-- The PIN or MAC key of VARIANT 1: the variant's mask added. -/
def dukptKey1 (ik ksn : Bytes) (mac : Bool) : Bytes :=
  let m := if mac then zeroBytes 6 ++ [0xFF, 0] else zeroBytes 7 ++ [0xFF]
  xorBytes (dukptWork1 ik ksn) (m ++ m)

/-- The working key of a base key: PIN or MAC (09 R258, R259). -/
def dukptKey (variant : Nat) (isB0 : Bool) (key ksn : Bytes) (mac : Bool) : Bytes :=
  if variant = 2 then
    dukptWork2 (if isB0 then dukptIk2 key ksn else key) ksn (if mac then 0x2001 else 0x1000)
  else dukptKey1 (if isB0 then dukptIk1 key ksn else key) ksn mac

/-- The intermediate keys of a variant from an initial key (09 R258, R259). -/
def dukptSteps (variant : Nat) (ik ksn : Bytes) : List Bytes :=
  if variant = 2 then dukptSteps2 ik ksn else dukptSteps1 ik ksn

/-- The initial key of a base derivation key. -/
def dukptIk (variant : Nat) (key ksn : Bytes) : Bytes := if variant = 2 then dukptIk2 key ksn else dukptIk1 key ksn

/-! ### MACs (09 R261, 08 Table 8.3) -/

/-- A message padded by ISO 9797-1 method 1 or 2. -/
def isoPad (pad bl : Nat) (d : Bytes) : Bytes := if pad = 2 then padMethod2 bl d else padMethod1 bl d

/-- The MAC a usage gives, before it is cut. -/
def macOf (usage : Bytes) (alg : Nat) (key : Bytes) (pad : Nat) (d : Bytes) : Bytes :=
  let c : Cipher := if alg = chr 'T' then .tdes else .aes
  if usage = ascii "M6" then cmac c key d
  else if usage = ascii "M3" then iso9797Alg3 key (isoPad pad 8 d)
  else iso9797Alg1 c key (isoPad pad c.blockLen d)

/-! ### EMV (09 R262) -/

/-- The 8 bytes Y of option A. -/
def emvY (pan : List Nat) (psn : List Nat) : Bytes :=
  let d := pan ++ psn
  let last := d.drop (d.length - 16)
  packNibbles (List.replicate (16 - last.length) 0 ++ last)

/-- Eight bytes inverted. -/
def invert (b : Bytes) : Bytes := b.map (fun x => ~~~ x)

/-- The ICC master key. -/
def emvMk (aes : Bool) (imk y : Bytes) : Bytes :=
  if aes then aesEnc imk (y ++ invert y) else oddParity (tdesEnc imk y ++ tdesEnc imk (invert y))

/-- The session key of an ATC. -/
def emvSk (aes : Bool) (mk atc : Bytes) : Bytes :=
  if aes then aesEnc mk (atc ++ zeroBytes 14)
  else tdesEnc mk (atc ++ [0xF0] ++ zeroBytes 5) ++ tdesEnc mk (atc ++ [0x0F] ++ zeroBytes 5)

/-- The cryptogram algorithm of a session key. -/
def emvMac (aes : Bool) (sk : Bytes) (pad : Nat) (d : Bytes) : Bytes :=
  if aes then cmac .aes sk d else iso9797Alg3 sk (isoPad pad 8 d)

/-! ### Card security codes (09 R264) -/

/-- The code of the digits of PAN, expiry and service code. -/
def cscOf (key : Bytes) (d : List Nat) (n : Nat) : List Nat :=
  let blocks := packNibbles ((d ++ List.replicate 32 0).take 32)
  let x := nibbles (iso9797Alg3 key blocks)
  ((x.filter (fun v => decide (v ≤ 9))) ++ ((x.filter (fun v => decide (10 ≤ v))).map (fun v => v - 10))).take n

end Sys2Proof.Machine
end

