-- ==== Sys2Proof/Machine/Micro.lean ====
section
/-! DEFINITION. Cipher micro-operations: the check of KCH, the pipeline, the key schedule, the scratch registers and
the data area (01 R19, 08 R215 to R219, 09 R242, R243). -/

namespace Sys2Proof.Machine

/-- Kinds of micro-operation (08 Table 8.2). -/
inductive UopKind where
  | ecbEnc
  | ecbDec
  | cbcEnc
  | cbcDec
  | cmac
  | alg1
  | alg3
  | ff1Enc
  | ff1Dec
  deriving DecidableEq, Repr

/-- Where a micro-operation's result goes: the context data area, or the scratch registers from one on (08 R217). -/
inductive UopDst where
  | data
  | scratch (n : Nat)
  deriving DecidableEq, Repr

/-- A micro-operation: the line it names, its kind and cipher, how many blocks it takes, its result and where that goes. -/
structure Uop where
  line : Nat
  kind : UopKind
  cipher : Cipher
  blocks : Nat
  dst : UopDst
  out : Bytes
  deriving DecidableEq, Repr

/-! ### The check (01 R19) -/

/-- Whether a stored key's usage and mode admit a kind (08 Table 8.2; V1 and C0 keys are never used directly, 09 R243). -/
def storedAdmits (a : Bytes) (k : UopKind) : Bool :=
  let is := fun (us : List String) => us.any (fun u => aUsage a == ascii u)
  let mode := fun (ms : List Char) => ms.any (fun x => aMode a == chr x)
  match k with
  | .ecbEnc => (is ["P0"] && mode ['E', 'B']) || (is ["B0", "B1", "E0", "E1", "E2"] && mode ['X'])
  | .ecbDec => is ["P0"] && mode ['D', 'B']
  | .cbcEnc => is ["K0", "K1"] && mode ['E', 'B']
  | .cbcDec => is ["K0", "K1"] && mode ['D', 'B']
  | .cmac => is ["M6", "K1"]
  | .alg1 => is ["M1"]
  | .alg3 => is ["M3"]
  | .ff1Enc => is ["90"] && mode ['E', 'B']
  | .ff1Dec => is ["90"] && mode ['D', 'B']

/-- The MAC of a DERIVED line: algorithm 3 for TDES, CMAC for AES (09 Table 9.2). -/
def macKind (a : Bytes) : UopKind := if aAlg a = chr 'T' then .alg3 else .cmac

/-- Whether a line admits a kind (08 Table 8.2, 09 Table 9.2). -/
def lineAdmits (l : Line) (k : UopKind) : Bool :=
  match l.use with
  | .stored => storedAdmits l.attr k
  | .ecb => k == .ecbEnc
  | .mac => k == macKind l.attr
  | .macArpc => k == macKind l.attr || k == .ecbEnc
  | .pin => k == .ecbDec
  | .conf => k == .cbcEnc

/-- Whether a result may go to the data area: a ciphertext, a MAC or cryptogram, a token; of a DERIVED line's ECB steps the
ARPC alone, once a command (08 R217). -/
def dataAdmits (l : Line) (k : UopKind) (arpc : Bool) : Bool :=
  match k with
  | .ecbDec | .cbcDec | .ff1Dec => false
  | .ecbEnc =>
    match l.use with
    | .stored => aUsage l.attr == ascii "P0"
    | .macArpc => !arpc
    | _ => false
  | _ => true

/-- KCH's check of a micro-operation against the tenant and the usage of the line it names, and the place of its result. -/
def uopOk (l : Line) (tag : Nat) (c : Cmd) (u : Uop) : Bool :=
  l.state != .fetching && l.tenant == c.tenant && l.pins.contains tag && lineAdmits l u.kind &&
    ((aAlg l.attr == chr 'T') == (u.cipher == .tdes)) && (u.dst != .data || dataAdmits l u.kind c.arpc)

/-- A refusal: recorded in KCH's error registers, counted (01 R19, 06 Table 6.5); ERR_ADDR takes the line's number
(DESIGN CHOICE, log 47). -/
def uopRefused (m : Mod) (n : Nat) : Mod :=
  raiseErr { m with kch := { m.kch with uopRefuse := m.kch.uopRefuse + 1 } } .kch 4 1 (BitVec.ofNat 64 n)

/-! ### Running one -/

/-- Pipelines in service for a cipher: P0 to P7 by 0 to 7, T0 and T1 by 8 and 9. -/
def cipherPipes (m : Mod) (k : Cipher) : List Nat :=
  (match k with | .aes => List.range 8 | .tdes => [8, 9]).filter (fun p => m.sce.pipes.getLsbD p)

/-- The pipeline a command's micro-operations go to: the spec gives no placement, so which is free where several serve
(log 47). -/
def uopPipe (m : Mod) (tag : Nat) (k : Cipher) : Nat :=
  match cipherPipes m k with
  | [p] => p
  | l => l.getD (Config.uopPipe tag m.clk % max 1 l.length) 0

/-- Scratch registers from one on written, 16 bytes each (08 R217). -/
def putScratch (n : Nat) (b : Bytes) (s : Tbl Bytes) : Tbl Bytes :=
  (chunks 16 b).zipIdx.foldl (fun s p => tblSet s ((n + p.2) % 4) (fitRight 16 p.1)) s

/-- The scratch registers of a command's context written. -/
def setScratch (m : Mod) (tag n : Nat) (b : Bytes) : Mod := updCmd m tag (fun c => { c with scratch := putScratch n b c.scratch })

/-- What a micro-operation leaves with its command: the pipeline it used, its result in scratch, the ARPC taken. -/
def noteUop (u : Uop) (p : Nat) (l : Line) (c : Cmd) : Cmd :=
  { c with
    pipes := if c.pipes.contains p then c.pipes else p :: c.pipes
    scratch := match u.dst with | .data => c.scratch | .scratch n => putScratch n u.out c.scratch
    arpc := c.arpc || (u.kind == .ecbEnc && u.dst == .data && l.use == .macArpc) }

/-- A micro-operation: refused where the check fails, and the command ends with ST_INTERNAL_FAULT; otherwise the
line's shares are in the pipeline's key schedule store, the blocks run with their own randomness, the result stands
where it goes. With no pipeline of its cipher in service the command ends with ST_RETRY_LATER (DESIGN CHOICE, log 47).
-/
def runUop (m : Mod) (tag : Nat) (u : Uop) : Except Act Mod :=
  match tblFind m.kch.lines u.line, cmdOf m tag with
  | some l, some c =>
    if !uopOk l tag c u then .error (.finish (uopRefused m u.line) stInternalFault [])
    else if (cipherPipes m u.cipher).isEmpty then .error (.finish m stRetryLater [])
    else
      let p := uopPipe m tag u.cipher
      let m1 := countPipe (loadSched m p u.line) p u.blocks
      let m2 := match u.cipher with | .aes => countBlocks m1 u.blocks 0 | .tdes => countBlocks m1 0 u.blocks
      .ok (updCmd m2 tag (noteUop u p l))
  | _, _ => .error (.finish (uopRefused m u.line) stInternalFault [])

/-- A micro-operation under a line. -/
def under (tag n : Nat) (k : UopKind) (ci : Cipher) (blocks : Nat) (dst : UopDst) (out : Bytes) (m : Mod) : Except Act Mod :=
  runUop m tag { line := n, kind := k, cipher := ci, blocks := blocks, dst := dst, out := out }

/-- The line of a handle's key; no line of the store where it has none. -/
def lineNo (m : Mod) (h : W64) : Nat := (lineFor m h).elim lineTotal Prod.fst

/-- The attributes of a DERIVED line: algorithm, length, DERIVED; usage and mode as Table 9.2 gives them. -/
def derivedAttr (alg : Nat) (key : Bytes) (use : LineUse) : Bytes :=
  let (usage, mode) := match use with
    | .stored | .ecb => ([0, 0], 0)
    | .mac | .macArpc => (ascii (if alg = chr 'T' then "M3" else "M6"), chr 'V')
    | .pin => (ascii "P0", chr 'D')
    | .conf => (ascii "D0", chr 'E')
  mkAttr alg 2 (8 * key.length) usage mode (chr 'N') [0, 0] 0 0 t64Never

/-- A working key in the command's DERIVED line (09 Table 9.1, TO_LINE). -/
def working (m : Mod) (tag alg : Nat) (use : LineUse) (key : Bytes) : Mod × Nat :=
  toLine m tag use (derivedAttr alg key use) key

/-- The copy of a V1 or C0 key in the command's DERIVED line, re-masked (09 R243). -/
def copied (m : Mod) (tag alg : Nat) (use : LineUse) (key : Bytes) : Mod × Nat :=
  let (m1, n) := working m tag alg use key
  (remaskLine m1 n, n)

/-- A derivation: each key of a chain is one ECB step under the line before it, into scratch, then in the DERIVED line for
the next (09 R258, R259, R262). The line of the last key. -/
def deriveChain (tag alg : Nat) (k : Cipher) (blocks : Nat) : Mod → Nat → List (LineUse × Bytes) → Except Act (Mod × Nat)
  | m, n, [] => .ok (m, n)
  | m, n, (use, key) :: r => do
    let m1 ← runUop m tag { line := n, kind := .ecbEnc, cipher := k, blocks := blocks, dst := .scratch 0, out := key }
    let (m2, n2) := working m1 tag alg use key
    deriveChain tag alg k blocks m2 n2 r

/-! ### What commands of several families run -/

/-- The cipher of a key. -/
def cipherOf (a : Bytes) : Cipher := if aAlg a = chr 'T' then .tdes else .aes

/-- The kind of micro-operation of a usage's MAC. -/
def macUop (usage : Bytes) : UopKind := if usage = ascii "M6" then .cmac else if usage = ascii "M3" then .alg3 else .alg1

/-- Message blocks of a MAC of `n` bytes. -/
def macLen (usage : Bytes) (alg pad n : Nat) : Nat :=
  let bl := if alg = chr 'T' then 8 else 16
  if usage = ascii "M6" then max 1 ((n + bl - 1) / bl) else (isoPad pad bl (List.replicate n 0)).length / bl

/-- The MAC of a message under a line, in the data area (08 R217). -/
def macUnder (tag n : Nat) (usage : Bytes) (alg pad len : Nat) (mac : Bytes) (m : Mod) : Except Act Mod :=
  under tag n (macUop usage) (if alg = chr 'T' then .tdes else .aes) (macLen usage alg pad len) .data mac m

/-- The derivation of a DUKPT working key under a base key's line, each key of the chain in the command's DERIVED line
in its turn (09 R258, R259): the line of the working key. VARIANT 1 adds the variant to the last key without a cipher
step. -/
def dukptLine (tag : Nat) (h : W64) (a key : Bytes) (v : Nat) (ksn : Bytes) (use : LineUse) (m : Mod) : Except Act (Mod × Nat) :=
  let isB0 := aUsage a == ascii "B0"
  let ik := if isB0 then dukptIk v key ksn else key
  let steps := ((if isB0 then [ik] else []) ++ dukptSteps v ik ksn).map (fun k => (LineUse.ecb, k))
  let wk := dukptKey v isB0 key ksn (use == .mac)
  if v = 2 then deriveChain tag (chr 'A') .aes (aLen a / 128) m (lineNo m h) (steps ++ [(use, wk)])
  else do
    let (m1, _) ← deriveChain tag (chr 'T') .tdes 2 m (lineNo m h) steps
    pure (working m1 tag (chr 'T') use wk)

/-- The micro-operations of an X9.143 block under its protection key: CMAC for its two derived keys and for the block,
CBC for the payload (05 R148; the spec gives the derived keys no line of their own: DESIGN CHOICE, log 47). -/
def blockUops (tag : Nat) (h : W64) (enc : Bool) (blk : Bytes) (payload : Nat) (m : Mod) : Except Act Mod := do
  let n := lineNo m h
  let m1 ← under tag n .cmac .aes (4 + (blk.length - 32 - payload) / 16) (.scratch 0) [] m
  if enc then under tag n .cbcEnc .aes (payload / 16) .data [] m1
  else under tag n .cbcDec .aes (payload / 16) (.scratch 1) [] m1

end Sys2Proof.Machine
end

