-- ==== Sys2Proof/Machine/Routes.lean ====
section
/-! DEFINITION. The route-table commands and lookups (chapter 07). -/

namespace Sys2Proof.Machine

/-- A command that changes routes is turned away while RTB quiesces or compacts (07 Table 7.6). -/
def routesOpen (m : Mod) : Except Act Unit := do
  needBlk m .rtb
  ensure m.rtb.compacting.isNone stRetryLater

/-- ST_ROUTE_FULL: counted, ROUTE_FULL set with its error record (07 R206, R211). -/
def routeFull (m : Mod) (t size : Nat) (recs : Bool) : Act :=
  let m1 := raiseErr m .rtb 1 1 (BitVec.ofNat 64 (t + size * 2 ^ 12))
  let m2 := if recs then raiseInt m1 .rtb 8 else m1
  .finish { m2 with rtb := { m2.rtb with full := m2.rtb.full + 1 } } stRouteFull []

/-- The limits of the table after a tenant's routes become `r` with nodes of these words placed (07 R194, Table 7.6). -/
def routeFits (m : Mod) (d : Durable) (t : Nat) (r : Routes) (sizes : List Nat) : Except Act Unit :=
  let d1 := { d with rt := tblSet d.rt t r }
  let size := sizes.foldl max 0
  if recSlots < usedSlots m d1 then .error (routeFull m t 0 true)
  else if routeLimit < usedRoutes d1 then .error (routeFull m t 0 false)
  else if poolWords < usedWords m d1 ∨ !placeable m d sizes then .error (routeFull m t size false)
  else .ok ()

/-- The same for an update of the tenant's sets. -/
def routeRoom (m : Mod) (d : Durable) (t : Nat) (r : Routes) : Except Act Unit := routeFits m d t r (newNodes (routesIn d t) r)

/-- A handle that a record may hold: 0, or one of the tenant's of kind 0x1 (07 R190). -/
def recHandleOk (m : Mod) (t : Nat) (h : W64) : Option W16 :=
  if h = 0 then none
  else match handleStatus m t h with
    | some st => some st
    | none => if hKind h = 1 then none else some stKeyUnknown

/-- RT_RECORD_SET (07 R190, R194). -/
def progRecordSet : Prog := fun m _ c => do
  bodyLen c 40
  reserved c 2 6
  let recno := f16 c 0
  let x := fBytes c 8 32
  range (decide (recno < (tenOf m c.tenant).recCap))
  range (getLe16 x 20 / 2 == 0 && allZero (x.drop 22))
  routesOpen m
  match (recHandleOk m c.tenant (recPinKey x)).or (recHandleOk m c.tenant (recMacKey x)) with
  | some st => .error (.stop st)
  | none =>
    let d := projDur m
    let r := routesIn d c.tenant
    let s := shadowOf r
    if tblFind s.set.recs recno = some x then pure (.journal m [] stOk [] false)
    else
      let touched := ((s.set.routes.filter (fun y => y.recno == recno)).map (fun y => nodePath (nodeOf y.digits))).flatten
      let s1 : Shadow :=
        { set := { s.set with recs := tblSet s.set.recs recno x }, copied := (s.copied ++ touched).eraseDups,
          fresh := if s.fresh.contains recno then s.fresh else s.fresh ++ [recno] }
      let r1 := { r with shadow := some s1 }
      routeRoom m d c.tenant r1
      pure (.journal m [.routes c.tenant r1 false] stOk [] false)

/-- One entry of RT_ROUTE_UPDATE: the prefix, and its record where it sets one (07 Table 7.5). -/
def updEntry (cap : Nat) (b : Bytes) : Option (List Nat × Option Nat) :=
  let op := getNat8 b 0
  let len := getNat8 b 1
  let recno := (getLe16 b 2).toNat
  if !(1 ≤ len ∧ len ≤ 19 : Bool) || !allZero (sliceOf b 14 2) then none
  else match bcdOf (sliceOf b 4 10) len with
    | none => none
    | some d =>
      if op = 1 then (if recno < cap then some (d, some recno) else none)
      else if op = 2 then (if recno = 0 then some (d, none) else none)
      else none

/-- One entry applied to a shadow: the shadow, and whether it changed (07 R202). -/
def applyEntry (s : Shadow) (e : List Nat × Option Nat) : Shadow × Bool :=
  if routeFind s.set e.1 = e.2 then (s, false)
  else
    let set := match e.2 with
      | none => routeDrop s.set e.1
      | some n => routePut s.set { digits := e.1, recno := n }
    ({ s with set := set, copied := (s.copied ++ nodePath (nodeOf e.1)).eraseDups }, true)

/-- RT_ROUTE_UPDATE, whole or not at all (07 R200, R202, R211). -/
def progRouteUpdate : Prog := fun m _ c => do
  bodyMin c 8
  bodyLen c (8 + 16 * f16 c 0)
  range (decide (1 ≤ f16 c 0 ∧ f16 c 0 ≤ 252))
  reserved c 2 6
  let entries := (chunks 16 (c.body.drop 8)).map (updEntry (tenOf m c.tenant).recCap)
  range (entries.all (fun e => e.isSome))
  routesOpen m
  let d := projDur m
  let r := routesIn d c.tenant
  let s0 := shadowOf r
  let (s1, n) := (entries.filterMap id).foldl (fun (a : Shadow × Nat) e =>
    let (s, ch) := applyEntry a.1 e
    (s, if ch then a.2 + 1 else a.2)) (s0, 0)
  let count := s1.set.routes.length
  ensure (decide (count ≤ (tenOf m c.tenant).routeCap ∨ count ≤ s0.set.routes.length)) stRouteCap
  let res := natLe 2 n ++ natLe 2 (entries.length - n) ++ natLe 4 count
  if n = 0 then pure (.journal m [] stOk res false)
  else
    let r1 := { r with shadow := some s1 }
    routeRoom m d c.tenant r1
    pure (.journal m [.routes c.tenant r1 false] stOk res false)

/-- RT_COMMIT (07 R197). -/
def progRtCommit : Prog := fun m _ c => do
  bodyLen c 0
  routesOpen m
  let r := routesIn (projDur m) c.tenant
  if differs r then
    let r1 : Routes := { active := viewOf r, shadow := none, epoch := r.epoch + 1 }
    pure (.journal m [.routes c.tenant r1 true] stOk (le32 r1.epoch ++ natLe 4 r1.active.routes.length) false)
  else
    let effs := if r.shadow.isSome then [Effect.routes c.tenant { r with shadow := none } false] else []
    pure (.journal m effs stOk (le32 r.epoch ++ natLe 4 r.active.routes.length) false)

/-- RT_ABORT (07 R197). -/
def progRtAbort : Prog := fun m _ c => do
  bodyLen c 0
  routesOpen m
  let r := routesIn (projDur m) c.tenant
  let effs := if r.shadow.isSome then [Effect.routes c.tenant { r with shadow := none } false] else []
  pure (.journal m effs stOk [] false)

/-- RTB having made one more lookup, with or without a route (07 Table 7.9). -/
def countLookup (m : Mod) (found : Bool) : Mod :=
  { m with rtb := { m.rtb with lookups := m.rtb.lookups + 1, noRoute := if found then m.rtb.noRoute else m.rtb.noRoute + 1 } }

/-- A lookup that reads no key: the route and its record (07 R191, R193). -/
def lookupIn (s : RouteSet) (pan : List Nat) : Option (Route × Bytes) :=
  match routeMatch s pan with
  | none => none
  | some r => let x := recOf s r.recno; if recBlock x then none else some (r, x)

/-- A routed command's lookup in the active set, with the key that its opcode needs of the record (07 R191). -/
def routeKeyOf (m : Mod) (c : Cmd) (pan : List Nat) (key : Bytes → W64) : Except Act (Mod × Bytes) :=
  if !blkServes m .rtb then .error (.stop stRetryLater)
  else match lookupIn (routesIn m.dur c.tenant).active pan with
    | none => .error (.finish (countLookup m false) stNoRoute [])
    | some (_, x) =>
      if key x = 0 then .error (.finish (countLookup m false) stNoRoute []) else .ok (countLookup m true, x)

/-- RT_LOOKUP (07 R203). -/
def progRtLookup : Prog := fun m _ c => do
  bodyLen c 16
  let pan ← panOf c 0 6
  range (decide (f8 c 1 ≤ 1))
  reserved c 2 4
  needBlk m .rtb
  let r := routesIn m.dur c.tenant
  match lookupIn (if f8 c 1 = 0 then r.active else viewOf r) pan with
  | none => .error (.finish (countLookup m false) stNoRoute [])
  | some (x, b) =>
    pure (okWith (countLookup m true) ([byteOf x.digits.length, 0] ++ natLe 2 x.recno ++ le32 r.epoch ++ b))

/-- RT_STATUS (07 R201): with no shadow set its counts are the active set's (DEDUCED, log 27). -/
def progRtStatus : Prog := fun m _ c => do
  bodyLen c 0
  needBlk m .rtb
  let r := routesIn m.dur c.tenant
  pure (okWith m (le32 r.epoch ++ natLe 4 r.active.routes.length ++ natLe 4 (viewOf r).routes.length ++
    natLe 4 (if differs r then 1 else 0) ++ natLe 4 (viewOf r).recs.length ++ zeroBytes 4))

/-- RT_COMPACT begins: BUSY, and the command waits (07 R207). -/
def progRtCompact : Prog := fun m tag c => do
  bodyLen c 0
  routesOpen m
  let m1 := { m with rtb := { m.rtb with compacting := some tag, moved := 0 } }
  pure (.hold (updCmd m1 tag (fun c => { c with phase := .compact })))

/-- Compaction finishes: the pool is one run, COMPACT_DONE is set and RT_COMPACT completes (07 R207). -/
def opCompactionDone (m : Mod) : Mod :=
  match m.rtb.compacting with
  | none => m
  | some tag =>
    let m1 := compacted m
    let m2 := raiseInt { m1 with rtb := { m1.rtb with compacting := none } } .rtb 4
    endCmd m2 tag stOk (natLe 4 (poolFree m2 m2.dur) ++ natLe 4 (poolLargest m2 m2.dur))

/-- Whether an old set's words and slots return: 24 clocks of 1.25 ns after its switch (07 R199). -/
def oldDue (m : Mod) (t : Nat) (x : OldSet) : Bool := x.tenant == t && decide (x.since + 30 ≤ m.clk)

/-- The words and slots of a tenant's old sets return to the pool. -/
def opOldSetFree (t : Nat) (m : Mod) : Mod :=
  { m with rtb := { m.rtb with
    old := m.rtb.old.filter (fun x => !oldDue m t x),
    compacted := m.rtb.compacted && m.rtb.old.all (fun x => !oldDue m t x || x.words == 0) } }

end Sys2Proof.Machine
end

