-- ==== Sys2Proof/Machine/X9143.lean ====
section
/-! DEFINITION. X9.143 key blocks of version 'D' (05 R148): header, optional blocks, binding. The layout is the
standard's (PRESUMED, log 26). -/

namespace Sys2Proof.Machine

/-- A key block in clear: the header's fields, the optional blocks it carries and its key. -/
structure KeyBlock where
  usage : Bytes
  alg : Nat
  mode : Nat
  kvn : Bytes
  export_ : Nat
  opts : List (Bytes × Bytes)
  key : Bytes
  deriving DecidableEq, Repr

/-- A number of four decimal digits in ASCII. -/
def dec4 (n : Nat) : Bytes := digitsAscii (natDigits 4 n)

/-- A byte as two hexadecimal characters. -/
def hex2 (n : Nat) : Bytes := hexAscii [byteOf n]

/-- The number two hexadecimal characters give. -/
def unhex (b : Bytes) : Option Nat := (asciiHex b).map beNat

/-! ### Binding -/

/-- The block encryption key (usage 0) or block MAC key (usage 1) of a key block protection key. -/
def kbKey (kbpk : Bytes) (usage : Nat) : Bytes :=
  let one := fun (i : Nat) => cmac .aes kbpk ([byteOf i] ++ natBe 2 usage ++ [0, 0, 4, 1, 0])
  one 1 ++ one 2

/-- The key data in clear: its length in bits, the key, random padding to a multiple of 16. -/
def kbPlain (key fill : Bytes) : Bytes :=
  let d := natBe 2 (8 * key.length) ++ key
  d ++ fill.take ((16 - d.length % 16) % 16)

/-- The key in key data in clear. -/
def kbKeyOf (d : Bytes) : Option Bytes :=
  let n := beNat (d.take 2)
  if n % 8 = 0 ∧ 2 + n / 8 ≤ d.length then some (sliceOf d 2 (n / 8)) else none

/-! ### Optional blocks -/

/-- One optional block as it stands in a header. -/
def optBytes (o : Bytes × Bytes) : Bytes :=
  let n := 4 + o.2.length
  if n < 256 then o.1 ++ hex2 n ++ o.2
  else o.1 ++ ascii "0002" ++ hexAscii (natBe 2 (n + 6)) ++ o.2

/-- Optional blocks read from a header, `n` of them: the blocks and what follows. -/
def optsOf : Nat → Bytes → Option (List (Bytes × Bytes) × Bytes)
  | 0, b => some ([], b)
  | n + 1, b =>
    match unhex (sliceOf b 2 2) with
    | none => none
    | some 0 =>
      match (unhex (sliceOf b 4 2)).bind (fun w => (unhex (sliceOf b 6 (2 * w))).map (fun l => (2 * w, l))) with
      | none => none
      | some (w, l) =>
        if l < 6 + w ∨ b.length < l then none
        else (optsOf n (b.drop l)).map (fun r => ((b.take 2, sliceOf b (6 + w) (l - 6 - w)) :: r.1, r.2))
    | some l =>
      if l < 4 ∨ b.length < l then none
      else (optsOf n (b.drop l)).map (fun r => ((b.take 2, sliceOf b 4 (l - 4)) :: r.1, r.2))

/-- The optional blocks the module accepts (05 R148). -/
def optKnown (id : Bytes) : Bool :=
  [ascii "HM", ascii "IK", ascii "KC", ascii "KP", ascii "KS", ascii "PB", ascii "TS"].contains id

/-- The data of an optional block. -/
def optOf (opts : List (Bytes × Bytes)) (id : String) : Option Bytes :=
  (opts.find? (fun o => o.1 == ascii id)).map Prod.snd

/-- The optional blocks with PB so that their bytes are a multiple of 16. -/
def withPad (opts : List (Bytes × Bytes)) (fill : Bytes) : List (Bytes × Bytes) :=
  let n := ((opts.map optBytes).flatten).length
  if n % 16 = 0 then opts
  else
    let short := (16 - n % 16) % 16
    let len := if short < 4 then short + 16 else short
    opts ++ [(ascii "PB", (fill.take (len - 4)).map (fun x => hexChar (x.toNat % 16)))]

/-! ### Whole blocks -/

/-- The header with its optional blocks; `total` is the block's length in characters. -/
def kbHeader (k : KeyBlock) (total : Nat) : Bytes :=
  ascii "D" ++ dec4 total ++ k.usage ++ [byteOf k.alg, byteOf k.mode] ++ k.kvn ++ [byteOf k.export_] ++
    digitsAscii (natDigits 2 k.opts.length) ++ ascii "00" ++ (k.opts.map optBytes).flatten

/-- A key block under a protection key; `fill` is random. -/
def kbBuild (kbpk : Bytes) (k : KeyBlock) (fill : Bytes) : Bytes :=
  let pt := kbPlain k.key fill
  let total := 16 + ((k.opts.map optBytes).flatten).length + 2 * pt.length + 32
  let hdr := kbHeader k total
  let mac := cmac .aes (kbKey kbpk 1) (hdr ++ pt)
  hdr ++ hexAscii (cbcEnc .aes (kbKey kbpk 0) mac pt) ++ hexAscii mac

/-- A key block opened under a protection key, or the status that refuses it (05 R148). -/
def kbOpen (kbpk blk : Bytes) : Except W16 KeyBlock :=
  let len := (asciiDigits (sliceOf blk 1 4)).map digitsNat
  let nopt := (asciiDigits (sliceOf blk 12 2)).map digitsNat
  let ctx := sliceOf blk 14 1
  match len, nopt with
  | some l, some n =>
    if blk.take 1 ≠ ascii "D" ∨ l ≠ blk.length ∨ ctx ≠ ascii "0" then .error stBadFormat
    else match optsOf n (blk.drop 16) with
      | none => .error stBadFormat
      | some (opts, rest) =>
        if opts.any (fun o => !optKnown o.1) ∨ rest.length < 64 ∨ rest.length % 32 ≠ 0 then .error stBadFormat
        else
          let usage := sliceOf blk 5 2
          let mode := getNat8 blk 8
          let exp := getNat8 blk 11
          if (usageModes usage).elim true (fun l => !l.contains mode) then .error stKeyUsage
          else if !([chr 'E', chr 'N', chr 'S'].contains exp) then .error stKeyUsage
          else match asciiHex (rest.take (rest.length - 32)), asciiHex (rest.drop (rest.length - 32)) with
            | some ct, some mac =>
              let pt := cbcDec .aes (kbKey kbpk 0) mac ct
              let hdr := blk.take (blk.length - rest.length)
              if cmac .aes (kbKey kbpk 1) (hdr ++ pt) ≠ mac then .error stVerifyFail
              else match kbKeyOf pt with
                | none => .error stBadFormat
                | some key =>
                  .ok { usage := usage, alg := getNat8 blk 7, mode := mode, kvn := sliceOf blk 9 2, export_ := exp,
                        opts := opts, key := key }
            | _, _ => .error stBadFormat
  | _, _ => .error stBadFormat

/-- Bytes of the encrypted payload of a block whose header stands. -/
def kbPayload (blk : Bytes) : Nat :=
  match (asciiDigits (sliceOf blk 12 2)).map digitsNat with
  | none => 0
  | some n => (optsOf n (blk.drop 16)).elim 0 (fun r => (r.2.length - 32) / 2)

/-- The HM code of an HMAC PARAM, and back (X9.143; log 26). -/
def hmCode (param : Nat) : Bytes :=
  match param with
  | 2 => ascii "22"
  | 3 => ascii "23"
  | 4 => ascii "31"
  | _ => ascii "21"

/-- The PARAM an HM code names. -/
def hmParam (b : Bytes) : Option Nat :=
  [1, 2, 3, 4].find? (fun p => hmCode p == b)

/-- Days of a month of the Gregorian calendar. -/
def monthDays (y mo : Nat) : Nat :=
  if mo = 2 then (if y % 4 = 0 ∧ (y % 100 ≠ 0 ∨ y % 400 = 0) then 29 else 28)
  else if mo = 4 ∨ mo = 6 ∨ mo = 9 ∨ mo = 11 then 30 else 31

/-- Whether a TS block holds a valid time: YYYYMMDDhhmmssZ, its day one of its month (log 26). -/
def tsValid (b : Bytes) : Bool :=
  match asciiDigits (b.take 14) with
  | none => false
  | some d =>
    let f := fun (i : Nat) => digitsNat ((d.drop i).take 2)
    b.length == 15 && b.drop 14 == ascii "Z" && decide (1 ≤ f 4 ∧ f 4 ≤ 12) &&
      decide (1 ≤ f 6 ∧ f 6 ≤ monthDays (digitsNat (d.take 4)) (f 4)) && decide (f 8 ≤ 23) && decide (f 10 ≤ 59) &&
      decide (f 12 ≤ 60)

/-- Year, month and day of a day counted from 1970-01-01. -/
def civil (day : Nat) : Nat × Nat × Nat :=
  let z := day + 719468
  let doe := z % 146097
  let yoe := (doe - doe / 1460 + doe / 36524 - doe / 146096) / 365
  let doy := doe - (365 * yoe + yoe / 4 - yoe / 100)
  let mp := (5 * doy + 2) / 153
  let mo := if mp < 10 then mp + 3 else mp - 9
  (yoe + z / 146097 * 400 + (if mo ≤ 2 then 1 else 0), mo, doy - (153 * mp + 2) / 5 + 1)

/-- The TS of a stamp: its TIME64 seconds as a date and time (DESIGN CHOICE, log 26: no leap seconds). -/
def tsOf (s : W64) : Bytes :=
  let n := s.toNat / 2 ^ 30
  let (y, mo, d) := civil (n / 86400)
  digitsAscii (natDigits 4 y ++ natDigits 2 mo ++ natDigits 2 d ++ natDigits 2 (n / 3600 % 24) ++ natDigits 2 (n / 60 % 60) ++
    natDigits 2 (n % 60)) ++ ascii "Z"

/-- The check value blocks and the time of an exported key: KC of an AES or TDES key, KP of the protection key, TS where
time is trusted (DESIGN CHOICE, log 26: the spec does not say when each is emitted). -/
def kbStamps (a key ap kp : Bytes) (ts : Option W64) : List (Bytes × Bytes) :=
  let kc := if aAlg a = chr 'T' then [(ascii "KC", ascii "00" ++ hexAscii (kcvOf a key))]
    else if aAlg a = chr 'A' then [(ascii "KC", ascii "01" ++ hexAscii (kcvOf a key))] else []
  kc ++ [(ascii "KP", ascii "01" ++ hexAscii (kcvOf ap kp))] ++ ts.elim [] (fun t => [(ascii "TS", tsOf t)])

end Sys2Proof.Machine
end

