-- ==== Sys2Proof/Machine/Payment.lean ====
section
/-! DEFINITION. The payment programs: PIN, DUKPT, MAC, EMV, card security code and tokenisation commands
(09 R245 to R265). -/

namespace Sys2Proof.Machine

/-! ### Operands -/

/-- A PIN block field of a body: the right half is zero for a TDES format (09 R246). -/
def pinField (c : Cmd) (f off : Nat) : Except Act Bytes := do
  range (f == 4 || allZero (fBytes c (off + 8) 8))
  pure (fBytes c off (fmtLen f))

/-- A translation from formats 0, 3 or 4 into format 1 is refused from the body alone (09 R247). -/
def fmtAllowed (inFmt outFmt : Nat) : Except Act Unit := ensure (!(outFmt == 1 && inFmt != 1)) stNotAuthorised

/-- A PIN key serves the formats of its algorithm alone (09 R246). -/
def fmtKey (attr : Bytes) (f : Nat) : Except Act Unit := ensure ((aAlg attr == chr 'A') == (f == 4)) stKeyUsage

/-- The PIN of a block under a PIN key. -/
def pinOf (f : Nat) (key : Bytes) (pan : List Nat) (blk : Bytes) : Option (List Nat) := pfCheck f (pinOpen f key pan blk)

/-- A PIN block decrypted under a line into a scratch register, the PAN field undone by PAN_XOR; the PIN field stands there
(09 Tables 9.1, 9.4, R248). -/
def pinIn (tag n s f : Nat) (key : Bytes) (pan : List Nat) (blk : Bytes) (m : Mod) : Except Act Mod := do
  let x := if f = 4 then aesDec key blk else tdesDec key (blk.take 8)
  let m1 ← under tag n .ecbDec (fmtCipher f) 1 (.scratch s) x m
  let m2 := setScratch m1 tag s (xorBytes x (panField f pan))
  if f = 4 then under tag n .ecbDec .aes 1 (.scratch s) (pinOpen f key pan blk) m2 else pure m2

/-- A PIN field built in scratch 1 with fresh fill where its format has any, and encrypted under a line into the data area:
the block (09 R245, R247, R248). -/
def pinOut (tag n f : Nat) (key : Bytes) (pan pin : List Nat) (m : Mod) : Except Act (Mod × Bytes) := do
  let field := pfBuild f pin (if f = 0 then zeroBytes 16 else drawn m 16)
  let m1 := setScratch (if f = 0 then m else afterDraw m 16) tag 1 field
  let x := if f = 4 then aesEnc key field else field
  let m2 ← if f = 4 then under tag n .ecbEnc .aes 1 (.scratch 1) x m1 else pure m1
  let out := pinSeal f key pan field
  let m3 ← under tag n .ecbEnc (fmtCipher f) 1 .data out (setScratch m2 tag 1 (xorBytes x (panField f pan)))
  pure (m3, out)

/-- The result of a translation: the block, with what the route or the successor link adds (09 Tables 9.5, 9.11). -/
def pinResult (blk attr : Bytes) (routed follow : Bool) (x : Bytes) : Bytes :=
  if routed then blk ++ recIssuer x ++ aKvn attr ++ [0, 0] else blk ++ (if follow then aKvn attr else [])

/-! ### PIN translation (09 R248) -/

/-- PIN_TRANSLATE and PIN_TRANSLATE_ROUTED. -/
def progPinTranslate (routed : Bool) : Prog := fun m tag c => do
  bodyLen c 48
  let inF := f8 c 0x10
  let outF := f8 c 0x11
  range (fmtDefined inF && fmtDefined outF)
  let pan ← panOf c 0x12 0x16
  range (decide (f8 c 0x13 ≤ if routed then 0 else 1))
  reserved c 0x14 2
  range (!routed || f64 c 8 == 0)
  let blk ← pinField c inF 0x20
  fmtAllowed inF outF
  let follow := routed || f8 c 0x13 == 1
  if routed && c.stage == 0 then
    let (m1, x) ← routeKeyOf m c pan recPinKey
    pure (.stage m1 [x])
  else
    let x := c.mem.headD []
    let hOut := if routed then recPinKey x else f64 c 8
    let (ai, ki) ← useKey m tag c [f64 c 0, reachedOf c hOut follow] (f64 c 0)
    let (ho, ao, ko) ← useFollowed m tag c [f64 c 0] hOut follow
    keyIs ai ["P0"] ['D', 'B']
    fmtKey ai inF
    keyIs ao ["P0"] ['E', 'B']
    fmtKey ao outF
    needCipher m
    let m1 ← pinIn tag (lineNo m (f64 c 0)) 0 inF (symKey ai ki) pan blk m
    match pinOf inF (symKey ai ki) pan blk with
    | none => .error (.finish m1 stPinFormat [])
    | some pin =>
      let (m2, out) ← pinOut tag (lineNo m1 ho) outF (symKey ao ko) pan pin m1
      pure (okWith m2 (pinResult out ao routed follow x))

/-! ### PIN verification (09 R249 to R253) -/

/-- PF_CHECK of a verification whose reservation stands: a failure counts (09 R253). -/
def checkedPin {α : Type} (m : Mod) (tag : Nat) (h : W64) (b : Budget) (pin : Option α) : Except Act α :=
  match pin with
  | none => .error (countedStop m tag h b stVerifyFail)
  | some p => .ok p

/-- The comparison: a mismatch counts, a match returns the reservation (09 R253). -/
def matchedPin (m : Mod) (tag : Nat) (h : W64) (b : Budget) (ok : Bool) : Except Act Mod :=
  if ok then .ok (returned m h b) else .error (countedStop m tag h b stPinMismatch)

/-- Validation data encrypted under the copy of a PVK, in scratch 2 (09 R243, R249). -/
def pvkUnder (tag : Nat) (key vdata : Bytes) (m : Mod) : Except Act Mod :=
  let (m1, n) := copied m tag (chr 'T') .ecb (key.take 16)
  under tag n .ecbEnc .tdes 1 (.scratch 2) (tdesEnc (key.take 16) vdata) m1

/-- The fields PIN_VERIFY_OFFSET and PIN_OFFSET_GENERATE share (09 Table 9.7): PAN and block. -/
def offsetBody (c : Cmd) : Except Act (List Nat × Bytes) := do
  bodyLen c 64
  range (fmtDefined (f8 c 0x10))
  let pan ← panOf c 0x11 0x20
  reserved c 0x13 5
  let blk ← pinField c (f8 c 0x10) 0x30
  pure (pan, blk)

/-- PIN_VERIFY_OFFSET (09 R249). -/
def progPinVerifyOffset : Prog := fun m tag c => do
  let (pan, blk) ← offsetBody c
  range (decide (4 ≤ f8 c 0x12 ∧ f8 c 0x12 ≤ 12))
  let off ← orStop (bcdOf (fBytes c 0x2A 6) (f8 c 0x12)) stBadFormat
  let hs := [f64 c 0, f64 c 8]
  let (ak, kk) ← useKey m tag c hs (f64 c 0)
  let (av, kv) ← useKey m tag c hs (f64 c 8)
  keyIs ak ["P0"] ['D', 'B']
  fmtKey ak (f8 c 0x10)
  keyIs av ["V1"] ['V', 'C']
  needCipher m
  let b ← reserve m (f64 c 8) c.stamp
  let f := f8 c 0x10
  let m1 ← pinIn tag (lineNo m (f64 c 0)) 0 f (symKey ak kk) pan blk m
  let pin ← checkedPin m1 tag (f64 c 8) b (pinOf f (symKey ak kk) pan blk)
  let m2 ← pvkUnder tag kv (fBytes c 0x18 8) m1
  let m3 ← matchedPin m2 tag (f64 c 8) b (decMatch av kv (fBytes c 0x18 8) off pin)
  pure (okWith m3 [])

/-- PIN_OFFSET_GENERATE (09 R249). -/
def progPinOffset : Prog := fun m tag c => do
  let (pan, blk) ← offsetBody c
  reserved c 0x2A 6
  let hs := [f64 c 0, f64 c 8]
  let (ak, kk) ← useKey m tag c hs (f64 c 0)
  let (av, kv) ← useKey m tag c hs (f64 c 8)
  keyIs ak ["P0"] ['D', 'B']
  fmtKey ak (f8 c 0x10)
  keyIs av ["V1"] ['G', 'C']
  needCipher m
  let f := f8 c 0x10
  let m1 ← pinIn tag (lineNo m (f64 c 0)) 0 f (symKey ak kk) pan blk m
  match pinOf f (symKey ak kk) pan blk with
  | none => .error (.finish m1 stPinFormat [])
  | some pin =>
    let m2 ← pvkUnder tag kv (fBytes c 0x18 8) m1
    pure (okWith m2 ([byteOf pin.length, 0] ++ bcdField 6 (decOffset av kv (fBytes c 0x18 8) pin)))

/-- PIN_VERIFY_REFERENCE (09 R250). -/
def progPinVerifyRef : Prog := fun m tag c => do
  bodyLen c 64
  let f := f8 c 0x10
  let g := f8 c 0x11
  range (fmtDefined f && fmtDefined g)
  let pan ← panOf c 0x12 0x16
  reserved c 0x13 3
  let blk ← pinField c f 0x20
  let ref ← pinField c g 0x30
  let hs := [f64 c 0, f64 c 8]
  let (ak, kk) ← useKey m tag c hs (f64 c 0)
  let (ar, kr) ← useKey m tag c hs (f64 c 8)
  keyIs ak ["P0"] ['D', 'B']
  fmtKey ak f
  keyIs ar ["P0"] ['D', 'B']
  fmtKey ar g
  needCipher m
  let b ← reserve m (f64 c 8) c.stamp
  let m1 ← pinIn tag (lineNo m (f64 c 0)) 0 f (symKey ak kk) pan blk m
  let m2 ← pinIn tag (lineNo m1 (f64 c 8)) 1 g (symKey ar kr) pan ref m1
  let p ← checkedPin m2 tag (f64 c 8) b (pinOf f (symKey ak kk) pan blk)
  let r ← checkedPin m2 tag (f64 c 8) b (pinOf g (symKey ar kr) pan ref)
  let m3 ← matchedPin m2 tag (f64 c 8) b (p == r)
  pure (okWith m3 [])

/-- PIN_CHANGE (09 R251). -/
def progPinChange : Prog := fun m tag c => do
  bodyLen c 96
  let meth := f8 c 0x10
  let f := f8 c 0x11
  let g := f8 c 0x14
  range ((meth == 1 || meth == 2) && fmtDefined f && fmtDefined g)
  let pan ← panOf c 0x12 0x20
  reserved c 0x15 3
  range (if meth = 1 then decide (4 ≤ f8 c 0x13 ∧ f8 c 0x13 ≤ 12) && g == 0 && allZero (fBytes c 0x50 16)
    else f8 c 0x13 == 0 && allZero (fBytes c 0x18 8) && allZero (fBytes c 0x2A 6))
  let off ← if meth = 1 then orStop (bcdOf (fBytes c 0x2A 6) (f8 c 0x13)) stBadFormat else pure []
  let old ← pinField c f 0x30
  let new ← pinField c f 0x40
  let ref ← pinField c (if meth = 1 then 4 else g) 0x50
  if meth = 2 then fmtAllowed f g else pure ()
  let hs := [f64 c 0, f64 c 8]
  let (ak, kk) ← useKey m tag c hs (f64 c 0)
  let (av, kv) ← useKey m tag c hs (f64 c 8)
  keyIs ak ["P0"] ['D', 'B']
  fmtKey ak f
  if meth = 1 then keyIs av ["V1"] ['C'] else do
    keyIs av ["P0"] ['B']
    fmtKey av g
  needCipher m
  let b ← reserve m (f64 c 8) c.stamp
  let ki := symKey ak kk
  let kw := symKey av kv
  let m1 ← pinIn tag (lineNo m (f64 c 0)) 0 f ki pan old m
  let m2 ← if meth = 2 then pinIn tag (lineNo m1 (f64 c 8)) 1 g kw pan ref m1 else pure m1
  let p ← checkedPin m2 tag (f64 c 8) b (pinOf f ki pan old)
  let r ← if meth = 2 then checkedPin m2 tag (f64 c 8) b (pinOf g kw pan ref) else pure p
  let m3 ← if meth = 1 then pvkUnder tag kv (fBytes c 0x18 8) m2 else pure m2
  let m4 ← matchedPin m3 tag (f64 c 8) b (if meth = 1 then decMatch av kv (fBytes c 0x18 8) off p else p == r)
  let m5 ← pinIn tag (lineNo m4 (f64 c 0)) 0 f ki pan new m4
  match pinOf f ki pan new with
  | none => .error (.finish m5 stPinFormat [])
  | some pin =>
    if meth = 1 then
      pure (okWith m5 ([byteOf pin.length, 0] ++ bcdField 6 (decOffset av kv (fBytes c 0x18 8) pin)))
    else
      let (m6, out) ← pinOut tag (lineNo m5 (f64 c 8)) g kw pan pin m5
      pure (okWith m6 out)

/-! ### DUKPT (09 R257 to R260) -/

/-- A base key of a variant: usage, algorithm, and for a stored initial key its identifier (09 R257). -/
def dukptBase (attr key : Bytes) (variant : Nat) (ksn : Bytes) (b0Only : Bool) : Except Act Unit := do
  keyIs attr (if b0Only then ["B0"] else ["B0", "B1"]) ['X']
  ensure (if variant = 2 then aAlg attr == chr 'A' && (aLen attr == 128 || aLen attr == 256)
    else aAlg attr == chr 'T' && aLen attr == 128) stKeyUsage
  let id := ksnId variant ksn
  ensure (aUsage attr == ascii "B0" || sliceOf key 32 id.length == id) stKeyUsage

/-- DUKPT_PIN_TRANSLATE and its routed form (09 R260). -/
def progDukptTranslate (routed : Bool) : Prog := fun m tag c => do
  bodyLen c 64
  let v := f8 c 0x10
  let inF := f8 c 0x11
  let outF := f8 c 0x12
  range (if v = 1 then inF == 0 || inF == 1 || inF == 3 else v == 2 && inF == 4)
  range (fmtDefined outF)
  let pan ← panOf c 0x13 0x26
  range (decide (f8 c 0x14 ≤ if routed then 0 else 1))
  reserved c 0x15 3
  reserved c 0x24 2
  range (!routed || f64 c 8 == 0)
  let ksn := fBytes c 0x18 12
  range (ksnOk v ksn false)
  let blk ← pinField c inF 0x30
  fmtAllowed inF outF
  let follow := routed || f8 c 0x14 == 1
  if routed && c.stage == 0 then
    let (m1, x) ← routeKeyOf m c pan recPinKey
    pure (.stage m1 [x])
  else
    let x := c.mem.headD []
    let hOut := if routed then recPinKey x else f64 c 8
    let (ab, kb) ← useKey m tag c [f64 c 0, reachedOf c hOut follow] (f64 c 0)
    let (ho, ao, ko) ← useFollowed m tag c [f64 c 0] hOut follow
    dukptBase ab kb v ksn false
    keyIs ao ["P0"] ['E', 'B']
    fmtKey ao outF
    needCipher m
    let k := dukptKey v (aUsage ab == ascii "B0") (symKey ab kb) ksn false
    let (m1, n) ← dukptLine tag (f64 c 0) ab (symKey ab kb) v ksn .pin m
    let m2 ← pinIn tag n 0 inF k pan blk m1
    match pinOf inF k pan blk with
    | none => .error (.finish m2 stPinFormat [])
    | some pin =>
      let (m3, out) ← pinOut tag (lineNo m2 ho) outF (symKey ao ko) pan pin m2
      pure (okWith m3 (pinResult out ao routed follow x))

/-- DUKPT_MAC_VERIFY (09 R260). -/
def progDukptMac : Prog := fun m tag c => do
  bodyMin c 0x30
  bodyLen c (0x30 + f16 c 0x0A)
  let v := f8 c 8
  let n := f8 c 9
  range (v == 1 || v == 2)
  range (decide (4 ≤ n ∧ n ≤ if v = 1 then 8 else 16))
  range (decide (1 ≤ f16 c 0x0A ∧ f16 c 0x0A ≤ 4000))
  reserved c 0x0C 4
  reserved c 0x1C 4
  let ksn := fBytes c 0x10 12
  range (ksnOk v ksn false)
  let (ab, kb) ← useKey m tag c [f64 c 0] (f64 c 0)
  dukptBase ab kb v ksn false
  needCipher m
  let k := dukptKey v (aUsage ab == ascii "B0") (symKey ab kb) ksn true
  let d := c.body.drop 0x30
  let mac := if v = 2 then cmac .aes k d else iso9797Alg3 k (padMethod1 8 d)
  let (m1, l) ← dukptLine tag (f64 c 0) ab (symKey ab kb) v ksn .mac m
  let m2 ← macUnder tag l (ascii (if v = 2 then "M6" else "M3")) (aAlg ab) 1 d.length mac m1
  .error (.finish m2 (if mac.take n = fBytes c 0x20 n then stOk else stVerifyFail) [])

/-- DUKPT_IK_EXPORT (09 R260, 05 R156): the block carries IK or KS. -/
def progDukptExport : Prog := fun m tag c => do
  bodyLen c 40
  let v := f8 c 0x10
  range (v == 1 || v == 2)
  range (f8 c 0x11 == chr 'E' || f8 c 0x11 == chr 'N')
  reserved c 0x14 4
  reserved c 0x24 4
  let ksn := fBytes c 0x18 12
  range (ksnOk v ksn true)
  let q ← quorum m tag c clsKeyExport
  let hs := [f64 c 0, f64 c 8]
  let (ab, kb) ← useKey m tag c hs (f64 c 0)
  let (ap, kp) ← useKey m tag c hs (f64 c 8)
  dukptBase ab kb v ksn true
  keyIs ap ["K1"] ['E', 'B']
  ensure (aTrusted ap) stKeyUsage
  needCipher m
  let ik := dukptIk v (symKey ab kb) ksn
  let m0 ← under tag (lineNo m (f64 c 0)) .ecbEnc (cipherOf ab) (if v = 2 then aLen ab / 128 else 2) (.scratch 0) ik m
  let fill := drawn m0 32
  let id := hexAscii (ksnId v ksn)
  let kb1 : KeyBlock :=
    { usage := ascii "B1", alg := aAlg ab, mode := chr 'X', kvn := fBytes c 0x12 2, export_ := f8 c 0x11,
      opts := withPad [(ascii (if v = 2 then "IK" else "KS"), id)] (fill.drop 16),
      key := ik }
  let blk := kbBuild (symKey ap kp) kb1 fill
  let res := natLe 2 blk.length ++ blk
  let m1 ← blockUops tag (f64 c 8) true blk (kbPlain ik fill).length (afterDraw m0 32)
  if q.isEmpty then pure (okWith m1 res) else pure (.journal m1 q stOk res false)

/-! ### MACs (09 R261) -/

/-- The MAC limits of a key (08 Table 8.3, R220). -/
def macLimits (attr : Bytes) (n pad : Nat) : Except Act Unit := do
  let m6 := aUsage attr == ascii "M6"
  ensure (if m6 then pad == 0 else pad == 1 || pad == 2) stBadFormat
  ensure (decide (4 ≤ n ∧ n ≤ if m6 ∧ aAlg attr = chr 'A' then 16 else 8)) stBadLength

/-- The body of the MAC commands (09 R261). A MAC_LEN outside every row of Table 8.3 is refused here with the status
the table gives its limit, ST_BAD_LENGTH (08 R220). -/
def macBody (c : Cmd) (routed verify : Bool) : Except Act Unit := do
  bodyMin c 0x30
  bodyLen c (0x30 + f16 c 0x0A)
  ensure (decide (4 ≤ f8 c 8 ∧ f8 c 8 ≤ 16)) stBadLength
  range (decide (f8 c 9 ≤ 2))
  range (decide (1 ≤ f16 c 0x0A ∧ f16 c 0x0A ≤ 4000))
  range (decide (f8 c 0x0D ≤ if routed || verify then 0 else 1))
  reserved c 0x0E 2
  reserved c 0x2A 6
  range (if routed then f64 c 0 == 0 else f8 c 0x0C == 0 && allZero (fBytes c 0x20 10))
  range (verify || allZero (fBytes c 0x10 16))

/-- The MAC of a body's data under a key's line. -/
def macBodyUnder (tag : Nat) (c : Cmd) (h : W64) (a k : Bytes) (m : Mod) : Except Act Mod :=
  macUnder tag (lineNo m h) (aUsage a) (aAlg a) (f8 c 9) (f16 c 0x0A)
    (macOf (aUsage a) (aAlg a) (symKey a k) (f8 c 9) (c.body.drop 0x30)) m

/-- MAC_GENERATE (09 R261). -/
def progMacGenerate : Prog := fun m tag c => do
  macBody c false false
  let (h, a, k) ← useFollowed m tag c [] (f64 c 0) (f8 c 0x0D == 1)
  keyIs a ["M1", "M3", "M6"] ['G', 'C']
  macLimits a (f8 c 8) (f8 c 9)
  needCipher m
  let mac := macOf (aUsage a) (aAlg a) (symKey a k) (f8 c 9) (c.body.drop 0x30)
  let m1 ← macBodyUnder tag c h a k m
  pure (okWith m1 (mac.take (f8 c 8) ++ (if f8 c 0x0D = 1 then aKvn a else [])))

/-- Whether a body's MAC verifies under a key. -/
def macOk (c : Cmd) (a k : Bytes) : Bool :=
  (macOf (aUsage a) (aAlg a) (symKey a k) (f8 c 9) (c.body.drop 0x30)).take (f8 c 8) == fBytes c 0x10 (f8 c 8)

/-- MAC_VERIFY (09 R261). -/
def progMacVerify : Prog := fun m tag c => do
  macBody c false true
  let (a, k) ← useKey m tag c [f64 c 0] (f64 c 0)
  keyIs a ["M1", "M3", "M6"] ['V', 'C']
  macLimits a (f8 c 8) (f8 c 9)
  needCipher m
  let m1 ← macBodyUnder tag c (f64 c 0) a k m
  .error (.finish m1 (if macOk c a k then stOk else stVerifyFail) [])

/-- MAC_VERIFY_ROUTED, with one more try under the active successor (09 R261). -/
def progMacVerifyRouted : Prog := fun m tag c => do
  macBody c true true
  let pan ← panOf c 0x0C 0x20
  if c.stage == 0 then
    let (m1, x) ← routeKeyOf m c pan recMacKey
    pure (.stage m1 [x])
  else
    let x := c.mem.headD []
    let h := recMacKey x
    let (a, k) ← useKey m tag c [h] h
    keyIs a ["M1", "M3", "M6"] ['V', 'C']
    macLimits a (f8 c 8) (f8 c 9)
    needCipher m
    let m1 ← macBodyUnder tag c h a k m
    if macOk c a k then pure (okWith m1 (recIssuer x))
    else match successorOf m h c.stamp with
      | none => .error (.finish m1 stVerifyFail [])
      | some s =>
        let (a2, k2) ← keyHeld m tag c [h, s] s
        if (keyUse m s a2 c.stamp).isSome then .error (.finish m1 stVerifyFail [])
        else
          let m2 ← macBodyUnder tag c s a2 k2 m1
          if macOk c a2 k2 then pure (okWith m2 (recIssuer x)) else .error (.finish m2 stVerifyFail [])

/-! ### EMV (09 R262, R263) -/

/-- What the EMV commands take from their body and key: whether AES, the session key and the line it stands in, the
data. The master key and the session key pass through the command's DERIVED line, each ECB step under the line before
(09 R243, R262). -/
def emvCommon (m : Mod) (tag : Nat) (c : Cmd) (usage : String) (use : LineUse) : Except Act (Mod × Nat × Bool × Bytes × Bytes) := do
  bodyMin c 0x38
  bodyLen c (0x38 + f16 c 0x30)
  range (decide (12 ≤ f8 c 8 ∧ f8 c 8 ≤ 16))
  let pan ← panOf c 8 0x10
  let psn ← orStop (bcdOf (fBytes c 9 1) 2) stBadFormat
  let op := c.opcode % 256
  range (decide (f8 c 0x0C ≤ 2))
  range (if op = 1 then decide (f8 c 0x0D ≤ 2) else f8 c 0x0D == 0)
  range (if f8 c 0x0D = 2 then decide (f8 c 0x0E ≤ 8) else f8 c 0x0E == 0)
  range (if op = 2 then decide (4 ≤ f8 c 0x0F ∧ f8 c 0x0F ≤ 8) else f8 c 0x0F == 0)
  reserved c 0x1A 2
  range (op == 1 || allZero (fBytes c 0x1C 8))
  range (f8 c 0x0D != 1 || allZero (fBytes c 0x26 2))
  range (decide (1 ≤ f16 c 0x30 ∧ f16 c 0x30 ≤ 256))
  reserved c 0x32 6
  let (a, k) ← useKey m tag c [f64 c 0] (f64 c 0)
  keyIs a [usage] ['X']
  let aes := aAlg a == chr 'A'
  range (if aes then f8 c 0x0C == 0 else f8 c 0x0C == 1 || f8 c 0x0C == 2)
  range (!(aes && f8 c 0x0D == 1))
  range (op != 3 || f16 c 0x30 % (if aes then 16 else 8) == 0)
  needCipher m
  let mk := emvMk aes (symKey a k) (emvY pan psn)
  let sk := emvSk aes mk (fBytes c 0x0A 2)
  let (m1, n) ← deriveChain tag (aAlg a) (cipherOf a) (if aes then 1 else 2) m (lineNo m (f64 c 0)) [(.ecb, mk), (use, sk)]
  pure (m1, n, aes, sk, c.body.drop 0x38)

/-- A cryptogram under a session key's line: algorithm 3 or CMAC (09 R262). -/
def emvMacUnder (tag n : Nat) (aes : Bool) (sk : Bytes) (pad : Nat) (d : Bytes) (m : Mod) : Except Act Mod :=
  macUnder tag n (ascii (if aes then "M6" else "M3")) (chr (if aes then 'A' else 'T')) pad d.length (emvMac aes sk pad d) m

/-- EMV_ARQC_VERIFY; for ARPC method 1 the session key's line carries the ARPC mark (09 Table 9.2). -/
def progEmvArqc : Prog := fun m tag c => do
  let (m1, n, aes, sk, d) ← emvCommon m tag c "E0" (if f8 c 0x0D = 1 then .macArpc else .mac)
  let arqc := fBytes c 0x1C 8
  let m2 ← emvMacUnder tag n aes sk (f8 c 0x0C) d m1
  if (emvMac aes sk (f8 c 0x0C) d).take 8 ≠ arqc then .error (.finish m2 stVerifyFail [])
  else if f8 c 0x0D = 1 then
    let arpc := tdesEnc sk (xorBytes arqc (fBytes c 0x24 2 ++ zeroBytes 6))
    let m3 ← under tag n .ecbEnc .tdes 1 .data arpc m2
    pure (okWith m3 arpc)
  else if f8 c 0x0D = 2 then
    let d2 := arqc ++ fBytes c 0x24 4 ++ fBytes c 0x28 (f8 c 0x0E)
    let m3 ← emvMacUnder tag n aes sk 2 d2 m2
    pure (okWith m3 ((emvMac aes sk 2 d2).take 4))
  else pure (okWith m2 [])

/-- EMV_SCRIPT_MAC. -/
def progEmvMac : Prog := fun m tag c => do
  let (m1, n, aes, sk, d) ← emvCommon m tag c "E2" .mac
  let m2 ← emvMacUnder tag n aes sk (f8 c 0x0C) d m1
  pure (okWith m2 ((emvMac aes sk (f8 c 0x0C) d).take (f8 c 0x0F)))

/-- EMV_SCRIPT_ENCRYPT. -/
def progEmvEncrypt : Prog := fun m tag c => do
  let (m1, n, aes, sk, d) ← emvCommon m tag c "E1" .conf
  let k : Cipher := if aes then .aes else .tdes
  let out := cbcEnc k sk (zeroBytes k.blockLen) d
  let m2 ← under tag n .cbcEnc k (d.length / k.blockLen) .data out m1
  pure (okWith m2 out)

/-! ### Card security codes and tokens (09 R264, R265) -/

/-- CSC_GENERATE and CSC_VERIFY. -/
def progCsc (verify : Bool) : Prog := fun m tag c => do
  bodyLen c 32
  let pan ← panOf c 8 0x10
  let n := f8 c 9
  range (decide (3 ≤ n ∧ n ≤ 5))
  let exp ← orStop (bcdOf (fBytes c 0x0A 2) 4) stBadFormat
  let svc ← orStop (bcdOf (fBytes c 0x0C 2) 3) stBadFormat
  reserved c 0x0E 2
  reserved c 0x1D 3
  let want ← if verify then orStop (bcdOf (fBytes c 0x1A 3) n) stBadFormat else do
    reserved c 0x1A 3
    pure []
  let (a, k) ← useKey m tag c [f64 c 0] (f64 c 0)
  keyIs a ["C0"] (if verify then ['V', 'C'] else ['G', 'C'])
  needCipher m
  let code := cscOf (symKey a k) (pan ++ exp ++ svc) n
  let (m1, l) := copied m tag (chr 'T') .mac (symKey a k)
  let m2 ← under tag l .alg3 .tdes 2 .data [] m1
  if verify then .error (.finish m2 (if code = want then stOk else stVerifyFail) [])
  else pure (okWith m2 (bcdField 3 code))

/-- TOKENISE, and DETOKENISE, whose digits go to scratch and leave by SEAL_OUT (09 R265). -/
def progToken (detok : Bool) : Prog := fun m tag c => do
  bodyLen c 48
  let d ← panOf c 8 0x10
  range (decide (f8 c 9 ≤ 8 ∧ f8 c 0x0A ≤ 4 ∧ f8 c 0x0B ≤ 16))
  reserved c 0x0C 4
  reserved c 0x1A 6
  range (decide (f8 c 9 + f8 c 0x0A + 6 ≤ d.length))
  ensure (!detok || c.sealKey.isSome) stNotAuthorised
  let (a, k) ← useKey m tag c [f64 c 0] (f64 c 0)
  keyIs a ["90"] (if detok then ['D', 'B'] else ['E', 'B'])
  needCipher m
  let mid := (d.drop (f8 c 9)).take (d.length - f8 c 9 - f8 c 0x0A)
  let tweak := fBytes c 0x20 (f8 c 0x0B)
  let out := if detok then ff1Dec (symKey a k) tweak mid else ff1Enc (symKey a k) tweak mid
  let all := d.take (f8 c 9) ++ out ++ d.drop (d.length - f8 c 0x0A)
  let m1 ← under tag (lineNo m (f64 c 0)) (if detok then .ff1Dec else .ff1Enc) .aes (ff1Blocks tweak.length mid.length)
    (if detok then .scratch 0 else .data) (bcdField 10 out) m
  pure (okWith m1 (bcdField 10 all))

end Sys2Proof.Machine
end

