-- ==== Sys2Proof/Machine/KeyMgmt.lean ====
section
/-! DEFINITION. The key management programs 0x0101 to 0x010A (09 R266 to R269, 05 R143 to R158). -/

namespace Sys2Proof.Machine

/-! ### Attributes -/

/-- Whether an activation instant is well formed. -/
def beforeOk (t : W64) : Bool := t64Ok t

/-- Whether a retirement instant is well formed; all ones is none. -/
def afterOk (t : W64) : Bool := t == t64Never || t64Ok t

/-- An instant of a body as it is kept (00 R14). -/
def keepTime (t : W64) : W64 := if t = t64Never then t else t64Trunc t

/-- The checks every ATTR of a body meets: reserved fields, flags the module sets itself, exportability, instants
(09 R266). -/
def attrShape (a : Bytes) (flags : Nat) : Except Act Unit := do
  range (allZero (sliceOf a 11 5))
  range (aFlags a &&& (255 - flags) == 0)
  range ([chr 'E', chr 'N', chr 'S'].contains (aExport a))
  range (beforeOk (aNotBefore a) && afterOk (aNotAfter a))

/-- ATTR as it is kept: instants truncated, flags added. -/
def attrKept (a : Bytes) (flags : Nat) : Bytes :=
  mkAttr (aAlg a) (aFlags a ||| flags) (aLen a) (aUsage a) (aMode a) (aExport a) (aKvn a) (aParam a)
    (keepTime (aNotBefore a)) (keepTime (aNotAfter a))

/-- The lengths and parameters of symmetric keys (05 Table 5.7). -/
def symShape (alg len param : Nat) : Bool :=
  if alg = chr 'A' then (len == 128 || len == 192 || len == 256) && param == 0
  else if alg = chr 'T' then (len == 128 || len == 192) && param == 0
  else if alg = chr 'H' then decide (128 ≤ len ∧ len ≤ 512 ∧ len % 8 = 0 ∧ 1 ≤ param ∧ param ≤ 4)
  else false

/-- The usages a symmetric key of an algorithm and length can serve (05 Tables 5.7, 5.9; DEDUCED, log 32). -/
def usageAlg (u : Bytes) (alg len : Nat) : Bool :=
  let is := fun (s : String) => u == ascii s
  let aes := alg == chr 'A'
  let two := alg == chr 'T' && len == 128
  if alg = chr 'H' then is "M7"
  else if is "M7" || is "S0" || is "91" then false
  else if is "K1" then aes && len == 256
  else if is "90" then aes
  else if is "V1" || is "C0" || is "M3" then two
  else if is "B0" || is "B1" then two || (aes && (len == 128 || len == 256))
  else if is "E0" || is "E1" || is "E2" then two || (aes && len == 128)
  else true

/-- Whether a usage and mode stand in Table 5.9. -/
def usageMode (a : Bytes) : Bool := (usageModes (aUsage a)).elim false (fun l => l.contains (aMode a))

/-- The checks of a symmetric key's usage. -/
def symUsage (a : Bytes) : Except Act Unit := ensure (usageMode a && usageAlg (aUsage a) (aAlg a) (aLen a)) stKeyUsage

/-- Key-bound decimalisation table of a body: present and valid for DEC_LOCK, zero otherwise (09 R249). -/
def decParams (a params : Bytes) : Except Act Unit :=
  if aDecLock a then do
    range (aUsage a == ascii "V1")
    range (decTableOk params)
  else range (allZero params)

/-- A key field: the value, and parameters at byte 32 (05 Table 5.4, R147). -/
def keyField (key params : Bytes) : Bytes := if params = [] then key else fitRight 32 key ++ params

/-- The kind of a key (05 Table 5.6). -/
def kindFor (a : Bytes) (isPrivate : Bool) : Nat :=
  if aAlg a = chr 'R' then (if isPrivate then 8 else 9)
  else if aAlg a = chr 'E' then (if aParam a = 3 then 10 else if isPrivate then 2 else 3)
  else 1

/-- The classes a creation names (09 R266, 11 R302). -/
def createClasses (t : Nat) (trusted : Bool) : List (Nat × Nat) :=
  (t, clsKeyCreate) :: (if trusted then [(t, clsKeyTrust)] else [])

/-- A creation's result (09 Table 9.17). -/
def createRes (h : W64) (kcv : Bytes) : Bytes := le64 h ++ kcv ++ [0]

/-- The last step of a creation: the record with the quorum's effects and the key's. -/
def finishCreate (m : Mod) (c : Cmd) (q more : List Effect) (kind : Nat) (attr field : Bytes) : Except Act Act := do
  let (effs, h) ← createKey m (projDur m) c.tenant kind attr field
  pure (.journal m (q ++ effs ++ more) stOk (createRes h (kcvAny kind attr field)) false)

/-! ### Generation and import -/

/-- KEY_GENERATE (09 R266). -/
def progKeyGenerate : Prog := fun m tag c => do
  bodyLen c 40
  let a := fBytes c 0 32
  attrShape a 9
  range (symShape (aAlg a) (aLen a) (aParam a))
  symUsage a
  ensure (aUsage a != ascii "B1") stKeyUsage
  decParams a (fBytes c 32 8)
  let q ← quorums m tag c (cmdDigest c) (createClasses c.tenant (aTrusted a)) (projDur m)
  needRng m
  let n := aLen a / 8
  finishCreate (afterDraw m n) c q [] 1 (attrKept a 0)
    (keyField (drawn m n) (if aDecLock a then fBytes c 32 8 else []))

/-- The attributes a key block gives with a validity window and flags; PARAM comes from HM, or the curve from the length
(05 R148). -/
def kbAttr (k : KeyBlock) (len flags : Nat) (nb na : W64) : Except Act Bytes := do
  let param ← if k.alg = chr 'H' then orStop ((optOf k.opts "HM").bind hmParam) stBadFormat
    else pure (if k.alg = chr 'E' then (if len = 256 then 1 else if len = 384 then 2 else if len = 521 then 3
      else if k.usage = ascii "91" then 5 else 4) else 0)
  pure (mkAttr k.alg flags len k.usage k.mode k.export_ k.kvn param nb na)

/-- The parameters a key block binds to its key: IK or KS for usage B1 (05 R148). -/
def kbParams (k : KeyBlock) : Except Act Bytes :=
  if k.usage = ascii "B1" then
    if k.alg = chr 'A' then do
      let b ← orStop ((optOf k.opts "IK").bind asciiHex) stBadFormat
      range (b.length == 8)
      pure b
    else do
      let b ← orStop ((optOf k.opts "KS").bind asciiHex) stBadFormat
      range (b.length == 10)
      pure b
  else pure []

/-- A key block opened under a held protection key of usage K1; the payload and the MAC are looked at only in a block whose
header stands (05 R148). -/
def openBlock (m : Mod) (tag : Nat) (c : Cmd) (hs : List W64) (h : W64) (blk : Bytes) : Except Act (Mod × KeyBlock) := do
  let (ap, kp) ← useKey m tag c hs h
  keyIs ap ["K1"] ['D', 'B']
  needCipher m
  match kbOpen (symKey ap kp) blk with
  | .error st =>
    if st = stVerifyFail then do
      let m1 ← blockUops tag h false blk (kbPayload blk) m
      .error (.finish m1 st [])
    else .error (.stop st)
  | .ok k => do
    let m1 ← blockUops tag h false blk (kbPayload blk) m
    ensure ((optOf k.opts "TS").elim true tsValid) stBadFormat
    pure (m1, k)

/-- Whether a block's KC, when there is one, agrees with a check value (09 R266; log 26). -/
def kcAgrees (k : KeyBlock) (kcv : Bytes) : Bool :=
  (optOf k.opts "KC").elim true (fun b => (b.drop 2).take 6 == (hexAscii kcv).take (b.length - 2))

/-- The attributes and key field of an imported block: symmetric, or asymmetric in a form of its own (log 28). -/
def blockKey (k : KeyBlock) (flags : Nat) (nb na : W64) (params : Bytes) : Except Act (Nat × Bytes × Bytes) := do
  if k.alg = chr 'R' ∨ k.alg = chr 'E' then
    let field := Config.asymIn k.key
    let len := if k.alg = chr 'R' then (takeField field).elim 0 (fun x => (beNat x.1).log2 + 1)
      else if k.key.length = 66 then 521 else 8 * k.key.length
    let a ← kbAttr k len flags nb na
    ensure (usageMode a && (aUsage a == ascii "S0" || aUsage a == ascii "91" || (aUsage a == ascii "D0" && k.alg == chr 'R')))
      stKeyUsage
    pure (kindFor a (k.mode == chr 'S' || k.mode == chr 'D' || k.mode == chr 'N'), a, field)
  else
    let a ← kbAttr k (8 * k.key.length) flags nb na
    range (symShape (aAlg a) (aLen a) (aParam a))
    symUsage a
    decParams a (if aDecLock a then params else zeroBytes 8)
    let bound ← kbParams k
    pure (1, a, keyField k.key (if aDecLock a then params else bound))

/-- KEY_IMPORT_BLOCK (05 R148, R155). -/
def progKeyImportBlock : Prog := fun m tag c => do
  bodyMin c 40
  bodyLen c (40 + f16 c 0x20)
  range (decide (48 ≤ f16 c 0x20 ∧ f16 c 0x20 ≤ 4000))
  range (beforeOk (f64 c 8) && afterOk (f64 c 0x10))
  let flags := f8 c 0x22
  range (decide (flags ≤ 3))
  reserved c 0x23 5
  range (flags % 2 == 1 || allZero (fBytes c 0x18 8))
  let trusted := flags / 2 == 1
  let q ← quorums m tag c (cmdDigest c) (createClasses c.tenant trusted) (projDur m)
  let (m1, k) ← openBlock m tag c [f64 c 0] (f64 c 0) (c.body.drop 40)
  let fl := (if trusted then 1 else 0) + (if flags % 2 = 1 then 8 else 0)
  let (kind, a, field) ← blockKey k fl (keepTime (f64 c 8)) (keepTime (f64 c 0x10)) (fBytes c 0x18 8)
  ensure (kcAgrees k (kcvAny kind a field)) stVerifyFail
  finishCreate m1 c q [] kind a field

/-- The optional blocks an exported key carries (05 R148). -/
def exportOpts (a key : Bytes) : List (Bytes × Bytes) :=
  if aAlg a = chr 'H' then [(ascii "HM", hmCode (aParam a))]
  else if aUsage a = ascii "B1" then
    (if aAlg a = chr 'A' then [(ascii "IK", hexAscii (sliceOf key 32 8))]
    else [(ascii "KS", hexAscii (sliceOf key 32 10))])
  else []

/-- A command's stamp where time was trusted at it. -/
def trustedStamp (m : Mod) (c : Cmd) : Option W64 := if trustedAt m c.stamp then some c.stamp else none

/-- KEY_EXPORT_BLOCK (05 R156, R157). -/
def progKeyExport : Prog := fun m tag c => do
  bodyLen c 24
  range (decide (f8 c 0x10 ≤ 1))
  reserved c 0x11 7
  let q ← quorum m tag c clsKeyExport
  let hs := [f64 c 0, f64 c 8]
  let (a, k) ← useKey m tag c hs (f64 c 0)
  let (ap, kp) ← useKey m tag c hs (f64 c 8)
  keyIs ap ["K1"] ['E', 'B']
  ensure (aExport a == chr 'S' || (aExport a == chr 'E' && aTrusted ap)) stKeyUsage
  needCipher m
  let fill := drawn m 32
  let asym := aAlg a == chr 'R' || aAlg a == chr 'E'
  let kb : KeyBlock :=
    { usage := aUsage a, alg := aAlg a, mode := aMode a, kvn := aKvn a,
      export_ := if f8 c 0x10 = 1 then aExport a else chr 'N'
      opts := withPad (exportOpts a k ++ kbStamps a (symKey a k) ap (symKey ap kp) (trustedStamp m c)) (fill.drop 16)
      key := if asym then Config.asymOut k else symKey a k }
  let blk := kbBuild (symKey ap kp) kb fill
  let res := natLe 2 blk.length ++ blk
  let m1 ← blockUops tag (f64 c 8) true blk (kbPlain kb.key fill).length (afterDraw m 32)
  if q.isEmpty then pure (okWith m1 res) else pure (.journal m1 q stOk res false)

/-- The usages of a public key by algorithm and parameter (10 R292, 05 Table 5.9). -/
def pubUsage (a : Bytes) : Bool :=
  let u := aUsage a
  let p := aParam a
  if aAlg a = chr 'R' then (u == ascii "S0" && aMode a == chr 'V') || (u == ascii "D0" && aMode a == chr 'E')
  else (u == ascii "S0" && aMode a == chr 'V' && decide (1 ≤ p ∧ p ≤ 4)) ||
    (u == ascii "91" && aMode a == chr 'N' && (p == 1 || p == 2 || p == 3 || p == 5))

/-- The lengths and parameters of asymmetric keys (05 Table 5.7). -/
def asymShape (a : Bytes) : Bool :=
  if aAlg a = chr 'R' then decide (2048 ≤ aLen a ∧ aLen a ≤ 4096 ∧ aLen a % 64 = 0) && aParam a == 0
  else aAlg a == chr 'E' && decide (1 ≤ aParam a ∧ aParam a ≤ 5) && aLen a == paramBits (aParam a)

/-- KEY_IMPORT_PUBLIC (05 R155). -/
def progKeyImportPublic : Prog := fun m tag c => do
  bodyMin c 40
  bodyLen c (40 + f16 c 0x20)
  let a := fBytes c 0 32
  attrShape a 0
  reserved c 0x22 6
  range (asymShape a)
  ensure (pubUsage a) stKeyUsage
  let q ← quorum m tag c clsKeyCreate
  let b := c.body.drop 40
  match (if aAlg a = chr 'R' then rsaPubOf (aLen a) b else ecPubOf (aParam a) b) with
  | .error st => .error (.stop st)
  | .ok k => finishCreate m c q [] (kindFor a false) (attrKept a 0) k.field

/-! ### Derivation and rotation -/

/-- KEY_DERIVE (09 R267). -/
def progKeyDerive : Prog := fun m tag c => do
  bodyLen c 80
  let func := f8 c 8
  range (func == 1 || func == 2)
  reserved c 0x0B 5
  reserved c 0x1C 4
  reserved c 0x2A 6
  let a := fBytes c 0x30 32
  attrShape a 3
  range (symShape (aAlg a) (aLen a) (aParam a))
  range (if func = 1 then f8 c 9 == 0 && f8 c 0x0A == 0 && allZero (fBytes c 0x20 10)
    else allZero (fBytes c 0x10 12) && decide (12 ≤ f8 c 9 ∧ f8 c 9 ≤ 16))
  let pan ← if func = 2 then panOf c 9 0x20 else pure []
  let psn ← if func = 2 then orStop (bcdOf (fBytes c 0x0A 1) 2) stBadFormat else pure []
  let q ← quorums m tag c (cmdDigest c) (createClasses c.tenant (aTrusted a)) (projDur m)
  let (ap, kp) ← useKey m tag c [f64 c 0] (f64 c 0)
  keyIs ap (if func = 1 then ["B0"] else ["E0", "E1", "E2"]) ['X']
  ensure (aMode a == chr 'X' && aAlg a == aAlg ap && aLen a == aLen ap &&
    aUsage a == (if func = 1 then ascii "B1" else aUsage ap)) stKeyUsage
  needCipher m
  let v := if aAlg ap = chr 'A' then 2 else 1
  let ksn := fBytes c 0x10 12
  range (func == 2 || v == 2 || allZero (sliceOf ksn 10 2))
  let key := if func = 1 then dukptIk v (symKey ap kp) ksn else emvMk (v == 2) (symKey ap kp) (emvY pan psn)
  let m1 ← under tag (lineNo m (f64 c 0)) .ecbEnc (cipherOf ap) (if v = 2 then aLen ap / 128 else 2) (.scratch 0) key m
  finishCreate m1 c q [] 1 (attrKept a 2) (keyField key (if func = 1 then ksnId v ksn else []))

/-- Whether a tenant's key state table takes one more entry for a handle (05 R150). -/
def kstRoom (m : Mod) (d : Durable) (t : Nat) (h : W64) : Except Act Unit :=
  ensure ((kstIn d h).isSome || (decide (d.kst.countP (fun p => ofTenant t p.1) < (tenOf m t).kstCap) &&
    decide (d.kst.length < 33554432))) stKeyStateFull

/-- The key state entry of a handle as the records before leave it; a destroyed key is refused (05 R153). -/
def kstLive (d : Durable) (h : W64) : Except Act KstEntry :=
  let e := (kstIn d h).getD KstEntry.none
  if e.destroyed.isSome then .error (.stop stKeyDestroyed) else .ok e

/-- The successor's attributes (05 R154 step 3; TRUSTED_KEK and DEC_LOCK stay, DESIGN CHOICE, log 33). -/
def successorAttr (a kvn : Bytes) (at' : W64) : Bytes :=
  mkAttr (aAlg a) (aFlags a &&& 9) (aLen a) (aUsage a) (aMode a) (aExport a) kvn (aParam a) at' t64Never

/-- The key-bound parameters of a key field. -/
def paramsOf (a key : Bytes) : Bytes :=
  if aDecLock a then sliceOf key 32 8
  else if aUsage a = ascii "B1" then sliceOf key 32 (if aAlg a = chr 'A' then 8 else 10)
  else []

/-- The budget a rotation gives the successor (09 R268). -/
def budgetCopy (d : Durable) (old new s : W64) : Except Act (List Effect) :=
  match tblFind d.bud old.toNat with
  | none => .ok []
  | some b => do
    ensure (decide (d.bud.length < budgetLimit)) stBudgetFull
    pure [.budget new (some { b with current := windowOf b s, count := 0, spent := none })]

/-- The body of KEY_ROTATE. -/
def rotateBody (c : Cmd) : Except Act Unit := do
  bodyMin c 48
  bodyLen c (48 + f16 c 0x28)
  range (decide (f8 c 0x1A ≤ 1))
  reserved c 0x1B 5
  reserved c 0x2A 6
  range (if f8 c 0x1A = 0 then f64 c 0x20 == 0 && f16 c 0x28 == 0
    else decide (48 ≤ f16 c 0x28 ∧ f16 c 0x28 ≤ 4000))
  range (beforeOk (f64 c 8) && afterOk (f64 c 0x10))

/-- KEY_ROTATE (05 R154, 09 R268). -/
def progKeyRotate : Prog := fun m tag c => do
  rotateBody c
  let h := f64 c 0
  let at' := keepTime (f64 c 8)
  let r := keepTime (f64 c 0x10)
  let q ← quorum m tag c clsKeyCreate
  let hs := h :: (if f8 c 0x1A = 1 then [f64 c 0x20] else [])
  let (a, key) ← keyHeld m tag c hs h
  let d := projDur m
  let e ← kstLive d h
  ensure e.successor.isNone stKeyHasSuccessor
  ensure (keyStateAt a (some e) c.stamp != .retired) stKeyRetired
  ensure (decide (at'.toNat ≤ r.toNat ∧ r.toNat ≤ (retirement a (some e)).toNat)) stOutsideWindow
  let a1 := successorAttr a (fBytes c 0x18 2) at'
  let (m1, field) ←
    if f8 c 0x1A = 1 then do
      let (m1, k) ← openBlock m tag c hs (f64 c 0x20) (c.body.drop 48)
      let (_, b, f) ← blockKey k 0 at' t64Never (zeroBytes 8)
      range (aParam b == aParam a)
      ensure (aAlg b == aAlg a && aLen b == aLen a && aUsage b == aUsage a) stKeyUsage
      pure (m1, if hKind h = 1 then keyField k.key (paramsOf a key) else f)
    else if hKind h = 1 then do
      needRng m
      pure (afterDraw m (aLen a / 8), keyField (drawn m (aLen a / 8)) (paramsOf a key))
    else do
      needRng m
      ensure (aMode a == chr 'S' || aMode a == chr 'D' || (aMode a == chr 'N' && hKind h != 3)) stKeyUsage
      pure (afterFreshDraw m 640, (privDraw a m.free).field)
  kstRoom m d c.tenant h
  let (effs, new) ← createKey m1 d c.tenant (hKind h) a1 field
  let bud ← budgetCopy d h new c.stamp
  let e1 := { e with successor := some new, retire := if r = t64Never then e.retire else some r }
  let timer := if r = t64Never then [] else [Effect.schedule h r]
  pure (.journal m1 (q ++ effs ++ [.kst h e1] ++ timer ++ bud) stOk
    (createRes new (kcvAny (hKind h) a1 field)) false)

/-! ### Key states -/

/-- KEY_RETIRE (05 R151). -/
def progKeyRetire : Prog := fun m tag c => do
  bodyLen c 16
  range (beforeOk (f64 c 8))
  let h := f64 c 0
  let t := t64Trunc (f64 c 8)
  let q ← quorum m tag c clsKeyRetire
  let (a, _) ← keyHeld m tag c [h] h
  let d := projDur m
  let e ← kstLive d h
  let eff := retirement a (some e)
  ensure (decide (t.toNat ≤ c.stamp.toNat ∨ t.toNat ≤ eff.toNat)) stOutsideWindow
  kstRoom m d c.tenant h
  let at' := if t.toNat ≤ c.stamp.toNat then c.stamp else t
  let keep := if eff.toNat < at'.toNat then e.retire else some at'
  let timer := if c.stamp.toNat < t.toNat then [Effect.schedule h t] else []
  pure (.journal m (q ++ [.kst h { e with retire := keep }] ++ timer) stOk [] false)

/-- KEY_DESTROY (05 R152): the DESTROYED mark takes the commit's stamp, the line goes, and the budget with it. -/
def progKeyDestroy : Prog := fun m tag c => do
  bodyLen c 8
  let h := f64 c 0
  let q ← quorum m tag c clsKeyDestroy
  let _ ← keyHeld m tag c [h] h
  let d := projDur m
  let e ← kstLive d h
  kstRoom m d c.tenant h
  pure (.journal m (q ++ [.kst h { e with destroyed := some 0 }, .zeroKey h, .budget h none]) stOk [] false)

/-- STATE of KEY_INFO (09 Table 9.17). -/
def KeyState.code : KeyState → Nat
  | .pending => 0
  | .active => 1
  | .retired => 2
  | .destroyed => 3

/-- KEY_INFO (09 R268). -/
def progKeyInfo : Prog := fun m tag c => do
  bodyLen c 8
  let h := f64 c 0
  let (a, k) ← keyHeld m tag c [h] h
  let e ← kstLive m.dur h
  pure (okWith m (a ++ [byteOf (keyStateAt a (some e) c.stamp).code] ++ kcvAny (hKind h) a k ++ zeroBytes 4 ++
    le64 (e.successor.getD 0) ++ le64 (retirement a (some e))))

/-- WRAP_ADVANCE (05 R144). -/
def progWrapAdvance : Prog := fun m tag c => do
  bodyLen c 0
  let q ← quorum m tag c clsTenantRoot
  let x := tenantIn (projDur m) c.tenant
  ensure x.trk.isSome stTenantNoRoot
  ensure (x.twkGen != 0xFFFF) stBlobSpace
  pure (.journal m (q ++ [.tenant c.tenant { x with twkGen := x.twkGen + 1, sealedCnt := 0 }]) stOk
    (natLe 2 (x.twkGen + 1)) false)

end Sys2Proof.Machine
end

