-- ==== Sys2Proof/Machine/Pke.lean ====
section
/-! DEFINITION. The public-key engine and its commands (chapter 10). -/

namespace Sys2Proof.Machine

/-! ### Operations (10 Tables 10.1, 10.2) -/

/-- What selects a program: algorithm, bits, PARAM of the key an operation works with. -/
structure PkShape where
  rsa : Bool
  bits : Nat
  param : Nat
  deriving DecidableEq, Repr

/-- The shape of a key by its attributes. -/
def shapeOf (a : Bytes) : PkShape := { rsa := aAlg a == chr 'R', bits := aLen a, param := aParam a }

/-- The shape of the key a body gives by itself: inline, to be generated or to be checked. -/
def bodyShape (c : Cmd) : PkShape :=
  if c.opcode = 0x0905 then shapeOf (fBytes c 0 32)
  else if c.opcode = 0x0907 then { rsa := false, bits := 0, param := f8 c 0 }
  else
    let pub := sliceOf c.body 24 (f16 c 0x0E)
    { rsa := f8 c 8 == 1 || f8 c 8 == 2, bits := (takeField pub).elim 0 (fun x => 8 * x.1.length), param := f8 c 0x10 }

/-- Nanoseconds by RSA length: the next longer listed length (10 R273). -/
def byBits (bits a b d : Nat) : Nat := if bits ≤ 2048 then a else if bits ≤ 3072 then b else d

/-- Nanoseconds by curve. -/
def byCurve (p a b d e x : Nat) : Nat := if p = 1 then a else if p = 2 then b else if p = 3 then d else if p = 4 then e else x

/-- The program slot and nominal time of a command's operation, in ns (10 Tables 10.1, 10.2). -/
def pkOp (op : Nat) (s : PkShape) : Nat × Nat :=
  let i := s.param - 1
  match op with
  | 0x0901 =>
    if s.rsa then (1, byBits s.bits 550000 1750000 3900000)
    else if s.param = 4 then (0x0A, 30000) else (4 + i, byCurve s.param 45000 110000 260000 30000 28000)
  | 0x0902 =>
    if s.rsa then (2, byBits s.bits 15000 30000 50000)
    else if s.param = 4 then (0x0B, 65000) else (7 + i, byCurve s.param 90000 220000 520000 65000 65000)
  | 0x0903 => (2, byBits s.bits 15000 30000 50000)
  | 0x0904 => (1, byBits s.bits 550000 1750000 3900000)
  | 0x0905 =>
    if s.rsa then (3, byBits s.bits 400000000 1600000000 5000000000)
    else if s.param = 4 then (0x13, 30000) else if s.param = 5 then (0x14, 28000)
    else (0x10 + i, byCurve s.param 45000 110000 260000 30000 28000)
  | 0x0906 => if s.param = 5 then (0x0F, 28000) else (0x0C + i, byCurve s.param 45000 110000 260000 28000 28000)
  | _ => (0x15, 5000)

/-- Whether a program slot uses a private key and checks its result (10 R278). -/
def slotPrivate (s : Nat) : Bool := s == 1 || (decide (3 ≤ s ∧ s ≤ 6)) || s == 0x0A || decide (0x0C ≤ s ∧ s ≤ 0x14)

/-- The handle a public-key command takes its key from. -/
def pkHandle (c : Cmd) : Option W64 :=
  match c.opcode with
  | 0x0901 | 0x0903 | 0x0904 | 0x0906 => some (f64 c 0)
  | 0x0902 => if f64 c 0 = 0 then none else some (f64 c 0)
  | _ => none

/-- A key's kind, usage and mode for a command, and the limits that follow from its length (10 R289, Tables 10.6,
10.7). -/
def pkKeyFail (c : Cmd) (h : W64) (a key : Bytes) : Option W16 :=
  let k := hKind h
  let is := fun (u : String) (x : Char) => aUsage a == ascii u && aMode a == chr x
  let scheme := f8 c 8
  let fits := if aAlg a = chr 'R' then scheme == 1 || scheme == 2
    else if aParam a = 4 then scheme == 4 else scheme == 3
  let n := aLen a / 8
  let sig := if aAlg a = chr 'R' then n else if aParam a = 4 then 64 else 2 * ((aLen a + 7) / 8)
  match c.opcode with
  | 0x0901 =>
    if !(is "S0" 'S' && fits && (k == 2 || k == 8 || k == 10)) || (privOfField a key).isNone then some stKeyUsage else none
  | 0x0902 =>
    if !(is "S0" 'V' && fits && (k == 3 || k == 9 || k == 10)) then some stKeyUsage
    else if f16 c 0x0C ≠ sig then some stBadLength
    else none
  | 0x0903 =>
    if !(is "D0" 'E' && k == 9) then some stKeyUsage
    else if f16 c 8 = 0 ∨ n < f16 c 8 + 66 then some stBadFormat
    else none
  | 0x0904 => if !(is "D0" 'D' && k == 8) then some stKeyUsage else if f16 c 8 ≠ n then some stBadFormat else none
  | 0x0906 =>
    if !(is "91" 'N' && (k == 2 || k == 10)) || (privOfField a key).isNone then some stKeyUsage else none
  | _ => none

/-! ### Bodies (10 Table 10.7) -/

/-- The digest length a HASH code names. -/
def hashLen (h : Nat) : Nat := if h = 1 then 32 else if h = 2 then 48 else if h = 3 then 64 else 0

/-- The hash a code names. -/
def hashOf (h : Nat) : HashAlg := if h = 1 then .sha256 else if h = 2 then .sha384 else .sha512

/-- SCHEME, HASH and message length. -/
def schemeOk (c : Cmd) (n : Nat) : Bool :=
  let s := f8 c 8
  if s = 4 then f8 c 9 == 0 && decide (n ≤ 3968)
  else decide (1 ≤ s ∧ s ≤ 3 ∧ 1 ≤ f8 c 9 ∧ f8 c 9 ≤ 3) && n == hashLen (f8 c 9)

/-- ATTR of PK_KEYGEN (10 R292). -/
def keygenAttr (a : Bytes) : Bool :=
  let u := aUsage a
  let p := aParam a
  asymShape a && aFlags a &&& 6 == 0 &&
    (if aAlg a = chr 'R' then (u == ascii "S0" && aMode a == chr 'S') || (u == ascii "D0" && aMode a == chr 'D')
    else (u == ascii "S0" && aMode a == chr 'S' && decide (p ≤ 4)) || (u == ascii "91" && aMode a == chr 'N' && p != 4))

/-- The checks of a public-key body, on the core, before any key (10 R289). -/
def pkBody (c : Cmd) : Except Act Unit := do
  match c.opcode with
  | 0x0901 => do
    bodyMin c 16
    bodyLen c (16 + f16 c 0x0A)
    range (schemeOk c (f16 c 0x0A))
    reserved c 0x0C 4
  | 0x0902 => do
    bodyMin c 24
    bodyLen c (24 + f16 c 0x0A + f16 c 0x0C + f16 c 0x0E)
    range (schemeOk c (f16 c 0x0A))
    range (f64 c 0 == 0 || (f16 c 0x0E == 0 && f8 c 0x10 == 0))
    reserved c 0x11 7
    if f64 c 0 ≠ 0 then pure ()
    else if f8 c 8 = 1 ∨ f8 c 8 = 2 then do
      range (f8 c 0x10 == 0)
      ensure (f16 c 0x0C == (bodyShape c).bits / 8) stBadLength
    else if f8 c 8 = 3 then do
      range (decide (1 ≤ f8 c 0x10 ∧ f8 c 0x10 ≤ 3))
      ensure (f16 c 0x0C == 2 * ((paramBits (f8 c 0x10) + 7) / 8)) stBadLength
    else do
      range (f8 c 0x10 == 4)
      ensure (f16 c 0x0C == 64) stBadLength
  | 0x0903 => do
    bodyMin c 16
    bodyLen c (16 + f16 c 8)
    reserved c 0x0A 6
  | 0x0904 => do
    bodyMin c 16
    bodyLen c (16 + f16 c 8)
    reserved c 0x0A 6
    ensure c.sealKey.isSome stNotAuthorised
  | 0x0905 => do
    bodyLen c 32
    let a := fBytes c 0 32
    range (allZero (sliceOf a 11 5) && aFlags a / 16 == 0)
    range ([chr 'E', chr 'N', chr 'S'].contains (aExport a))
    range (beforeOk (aNotBefore a) && afterOk (aNotAfter a))
    ensure (keygenAttr a) stKeyUsage
  | 0x0906 => do
    bodyMin c 80
    bodyLen c (80 + f16 c 8 + f16 c 0x0A)
    range (decide (f16 c 0x0A ≤ 64))
    reserved c 0x0C 4
    let a := fBytes c 0x10 32
    attrShape a 3
    ensure ((aAlg a == chr 'A' || aAlg a == chr 'H') &&
      ["D0", "K0", "K1", "M6", "M7", "P0"].any (fun u => aUsage a == ascii u)) stKeyUsage
    range (symShape (aAlg a) (aLen a) (aParam a))
    symUsage a
  | _ => do
    bodyMin c 8
    bodyLen c (8 + f16 c 2)
    range ([1, 2, 3, 5].contains (f8 c 0))
    reserved c 1 1
    reserved c 4 4

/-! ### Operand memory (10 R271, R276)

The spec gives the memory 64 registers of 512 bytes and places the search state
of a key generation in registers 56 to 63; the other places are the model's (DESIGN CHOICE, log 47): 0 the attributes
and 1 to 7 the key field or other operands, 8 and 9 the blinding of exponents or scalars and the coordinate Z, 10 the
base's or the inversion's blinding, 11 the value drawn for the result, 12 the operand of a run whose input failed its
check; of a key generation 56 and 57 the primes, 58 the attributes. -/

/-- A string in operand registers from one on, 512 bytes each. -/
def putRegs (mem : Tbl Bytes) (r : Nat) (b : Bytes) : Tbl Bytes :=
  (List.range ((b.length + 511) / 512)).foldl (fun t i => tblSet t (r + i) (sliceOf b (512 * i) 512)) mem

/-- An operand register. -/
def engReg (x : Eng) (r : Nat) : Bytes := tblGet [] x.mem r

/-- A number in an operand register. -/
def engNat (x : Eng) (r : Nat) : Nat := beNat (engReg x r)

/-- The key in operand memory: attributes and key field; none where the body gave the key or there is none. -/
def engKey (x : Eng) : Option (Bytes × Bytes) :=
  (tblFind x.mem 0).map (fun a => (a, ((List.range 7).map (fun i => engReg x (1 + i))).flatten))

/-- What loading brings of a key: from its blob, or inline from the tag's capsule buffer (10 R275). -/
def keyOperands (c : Cmd) : Option (Bytes × Bytes) → Tbl Bytes
  | some (a, f) => putRegs [(0, a)] 1 f
  | none =>
    if c.opcode = 0x0902 then putRegs [] 1 (sliceOf c.body 24 (f16 c 0x0E))
    else if c.opcode = 0x0907 then putRegs [] 1 (c.body.drop 8)
    else if c.opcode = 0x0905 then [(58, fBytes c 0 32)]
    else []

/-- The registers a program's loading fills from D0, with the bytes of each: blinding and random operands (10 R276, R280),
ECDSA's k (R279), salt and seed (R290), a generated private value (R292). `len` is the operand length; `seed` says that a
public operation encrypts. An RSA search starts at registers 56 and 57. -/
def pkDraws (slot len : Nat) (seed : Bool) : List (Nat × Nat) :=
  let scalar := [(8, 8), (9, len)]
  if slot = 1 then [(8, 8), (9, 8), (10, len), (11, 64), (12, len)]
  else if slot = 2 then (if seed then [(11, 32)] else [])
  else if slot = 3 then [(56, len / 2), (57, len / 2)]
  else if (4 ≤ slot ∧ slot ≤ 6) ∨ slot = 0x16 then scalar ++ [(10, len), (11, len + 8)]
  else if slot = 0x0A then scalar
  else if 0x0C ≤ slot ∧ slot ≤ 0x0E then scalar ++ [(12, len)]
  else if slot = 0x0F then [(9, len), (12, len)]
  else if (0x10 ≤ slot ∧ slot ≤ 0x12) ∨ slot = 0x17 then scalar ++ [(11, len + 8)]
  else if slot = 0x13 then scalar ++ [(11, len)]
  else if slot = 0x14 then [(9, len), (11, len)]
  else []

/-- One register filled from D0; the primes that a search ends on stand for the place it starts from (log 5). -/
def drawReg (slot : Nat) (x : Mod × Tbl Bytes) (d : Nat × Nat) : Mod × Tbl Bytes :=
  let b := if slot = 3 then natBe d.2 (primeAt (16 * d.2) x.1.free 0) else drawn x.1 d.2
  (afterDraw x.1 d.2, tblSet x.2 d.1 b)

/-- Loading's draws: a generated private value is drawn with prediction resistance (05 R161). -/
def loadDraws (m : Mod) (slot : Nat) (draws : List (Nat × Nat)) (mem : Tbl Bytes) : Mod × Tbl Bytes :=
  draws.foldl (drawReg slot) (if slot = 3 ∨ (0x10 ≤ slot ∧ slot ≤ 0x14) then reseedD0 m else m, mem)

/-! ### What an engine computes -/

/-- A value, or the status of its absence. -/
def orStatus {α : Type} (x : Option α) (st : W16) : Except W16 α := x.elim (.error st) .ok

/-- The randomised representation of an operation's scalar multiplications over a field. -/
def engBlind (x : Eng) (p : Nat) : Blind := { m := engNat x 8, z := inRange (engReg x 9) p }

/-- A point that leaves an engine: on its curve, or the result check fails (10 R278). -/
def pointOut (cv : NistCurve) : Option (Nat × Nat) → Except W16 (Nat × Nat)
  | some q => if cv.onCurve q.1 q.2 then .ok q else .error stInternalFault
  | none => .error stInternalFault

/-- A scalar multiplication on randomised representations, its point checked (10 R276, R278). -/
def engMul (x : Eng) (cv : NistCurve) (s : Nat) (q : Nat × Nat) : Except W16 (Nat × Nat) :=
  pointOut cv (cv.blindMul (engBlind x cv.params.p) s q)

/-- The RSA private operation, its result raised to e and held against the input (10 R276, R278). -/
def engRsa (x : Eng) (k : RsaKey) (v : Nat) : Except W16 Nat :=
  let y := k.crt (engNat x 8) (engNat x 9) (inRange (engReg x 10) k.n) v
  if powMod y k.e k.n = v then .ok y else .error stInternalFault

/-- An ECDSA signature, r then s (10 R276, R279). -/
def engEcdsa (x : Eng) (cv : NistCurve) (d : Nat) (digest : Bytes) : Except W16 Bytes := do
  let k := inRange (engReg x 11) cv.params.n
  let q ← engMul x cv k cv.basePoint
  match ecdsaFrom cv d k (inRange (engReg x 10) cv.params.n) digest q.1 with
  | some (r, s) => .ok (natBe cv.params.len r ++ natBe cv.params.len s)
  | none => .error stRetryLater

/-- An RSA or EC signature over a body's digest or message. -/
def pkSignature (x : Eng) (c : Cmd) (k : PrivKey) : Except W16 Bytes :=
  let h := hashOf (f8 c 9)
  let msg := c.body.drop 16
  match k with
  | .rsa r =>
    let n := modLen r.n
    let em := if f8 c 8 = 1 then emsaPss h (r.n.log2 + 1) msg ((engReg x 11).take h.outLen) else emsaPkcs1 h n msg
    (engRsa x r (beNat em)).map (natBe n)
  | .ec cv d => engEcdsa x cv d msg
  | .ed s => orStatus (edSign (engBlind x p25519) s msg) stInternalFault
  | .x _ => .error stKeyUsage

/-- A verification's outcome (10 R281, Table 10.4). -/
def pkVerifyStatus (c : Cmd) (k : PubKey) : W16 :=
  let h := hashOf (f8 c 9)
  let base := 24 + f16 c 0x0E
  let sig := sliceOf c.body base (f16 c 0x0C)
  let msg := c.body.drop (base + f16 c 0x0C)
  match k with
  | .rsa n e =>
    let s := beNat sig
    if s = 0 ∨ n ≤ s then stPkInputRange
    else
      let v := powMod s e n
      let bits := n.log2 + 1
      let ok := if f8 c 8 = 1 then emsaPssVerify h bits msg (natBe ((bits + 6) / 8) v) && v / 256 ^ ((bits + 6) / 8) == 0
        else natBe (modLen n) v == emsaPkcs1 h (modLen n) msg
      if ok then stOk else stVerifyFail
  | .ec cv q =>
    let r := beNat (sig.take cv.params.len)
    let s := beNat (sig.drop cv.params.len)
    if r = 0 ∨ cv.params.n ≤ r ∨ s = 0 ∨ cv.params.n ≤ s then stPkInputRange
    else if ecdsaVerify cv q msg r s then stOk
    else stVerifyFail
  | .ed pk =>
    if ordEd ≤ leNat (sig.drop 32) then stPkInputRange
    else if (edDecode (sig.take 32)).isNone ∨ (edDecode pk).isNone then stPkPointInvalid
    else if edVerify pk msg sig then stOk
    else stVerifyFail
  | .x _ => stKeyUsage

/-- The shared value of a key agreement (10 R280). Scalar blinding is not applied to X25519, whose points need not lie
in the subgroup of order n; its output is a u-coordinate and no point to check (DEDUCED, log 47). -/
def pkShared (x : Eng) (k : PrivKey) (peer : Bytes) : Except W16 Bytes :=
  match k with
  | .ec cv d =>
    match sec1Of cv peer with
    | none => .error stPkPointInvalid
    | some q => (engMul x cv d q).map (fun z => natBe cv.params.len z.1)
  | .x s =>
    let z := x25519At (inRange (engReg x 9) p25519) s peer
    if peer.length ≠ 32 ∨ allZero z then .error stPkPointInvalid else .ok z
  | _ => .error stPkPointInvalid

/-- RSA-OAEP decryption (10 Table 10.3). Where the input fails its check the program goes on with the operand drawn at
loading, and nothing of that run leaves the engine (R280). -/
def pkDecrypt (x : Eng) (c : Cmd) (k : RsaKey) : Except W16 Bytes := do
  let v := beNat (c.body.drop 16)
  let bad := decide (v = 0 ∨ k.n ≤ v)
  match engRsa x k (if bad then engNat x 12 % k.n else v) with
  | .error st => .error (if bad then stPkInputRange else st)
  | .ok y =>
    if bad then .error stPkInputRange
    else match oaepDecode .sha256 (natBe (modLen k.n) y) with
      | none => .error stPkDecodeFail
      | some msg => .ok msg

/-- RSA-OAEP encryption. -/
def pkEncrypt (x : Eng) (c : Cmd) : PubKey → Except W16 Bytes
  | .rsa n e =>
    match oaepEncode .sha256 (modLen n) (engReg x 11) (c.body.drop 16) with
    | some em => .ok (natBe (modLen n) (powMod (beNat em) e n))
    | none => .error stBadFormat
  | _ => .error stPkInputRange

/-- The key pair a generation leaves: the private key field, the public one, the check value and the key shown. -/
def pkGenerated (x : Eng) (a : Bytes) : Except W16 (List Bytes) :=
  let k := privFrom a (engReg x 11) (engNat x 56) (engNat x 57)
  let ok := match k with
    | .ec cv d => (engMul x cv d cv.basePoint).isOk
    | .ed s => edOn (edBlindMul (engBlind x p25519) (edSecret s).1)
    | _ => true
  match k.pub with
  | some p => if ok then .ok [k.field, p.field, p.kcv, p.shown] else .error stInternalFault
  | none => .error stInternalFault

/-- An outcome as status, result and what the finishing dispatch takes over. -/
def outOf : Except W16 (Bytes × List Bytes) → W16 × Bytes × List Bytes
  | .ok (r, mem) => (stOk, r, mem)
  | .error st => (st, [], [])

/-- An inline public key (10 R291). -/
def inlineKey (c : Cmd) : Except W16 PubKey :=
  let pub := sliceOf c.body 24 (f16 c 0x0E)
  if f8 c 8 = 1 ∨ f8 c 8 = 2 then rsaInlineOf pub else ecPubOf (f8 c 0x10) pub

/-- The key a verification works with: from its blob, or inline (10 R291). -/
def verifyKey (x : Eng) (c : Cmd) : Except W16 PubKey :=
  match engKey x with
  | some (a, f) => orStatus (pubOfField a f) stPkPointInvalid
  | none => inlineKey c

/-- The P-384 public key of a SEC1 uncompressed encoding, x then y, checked (10 Table 10.4). -/
def p384Of (b : Bytes) : Option Bytes :=
  if b.length = 97 ∧ getNat8 b 0 = 4 then (sec1Of .p384 b).map NistCurve.p384.pointBytes else none

/-- A P-384 signature r ‖ s over a digest, by a key x ‖ y. -/
def p384Verify (key digest sig : Bytes) : Bool :=
  match NistCurve.p384.pointOf key with
  | none => false
  | some q => sig.length == 96 && ecdsaVerify .p384 q digest (beNat (sig.take 48)) (beNat (sig.drop 48))

/-- A private value of P-384 from 56 bytes of D0. -/
def p384Secret (b : Bytes) : Nat := inRange b NistCurve.p384.params.n

/-- The operation of an internal use of the engines on its operands in registers 1 to 3: the check of a credential's
signature on slot 0x08; the agreement of slot 0x17, of a private value kept or drawn now with a peer's point, which leaves Z
and the own public point; the identity key's signature of slot 0x16 (10 R272, 12 R330). -/
def innerCompute (x : Eng) : Except W16 (List Bytes) :=
  if x.slot = 0x08 then
    (if p384Verify (engReg x 1) (engReg x 2) (engReg x 3) then .ok [] else .error stVerifyFail)
  else if x.slot = 0x17 then do
    let d := if (tblFind x.mem 1).isSome then engNat x 1 else p384Secret (engReg x 11)
    let q ← orStatus (NistCurve.p384.pointOf (engReg x 2)) stPkPointInvalid
    let z ← engMul x .p384 d q
    let p ← engMul x .p384 d NistCurve.p384.basePoint
    .ok [natBe 48 z.1, NistCurve.p384.pointBytes p]
  else (engEcdsa x .p384 (engNat x 1) (engReg x 2)).map (fun s => [s])

/-- The outcome of an operation: status, result, and what its finishing dispatch takes over (10 R280, R292, R293). -/
def pkCompute (x : Eng) (c : Cmd) : W16 × Bytes × List Bytes :=
  let (a, f) := (engKey x).getD ([], [])
  let priv := orStatus (privOfField a f) stKeyUsage
  let plain := fun (r : Except W16 Bytes) => outOf (r.map (fun b => (b, [])))
  match c.opcode with
  | 0x0901 => plain (priv.bind (pkSignature x c))
  | 0x0902 =>
    match verifyKey x c with
    | .ok k => (pkVerifyStatus c k, [], [])
    | .error st => (st, [], [])
  | 0x0903 => plain ((orStatus (pubOfField a f) stPkInputRange).bind (pkEncrypt x c))
  | 0x0904 =>
    match privOfField a f with
    | some (.rsa k) => plain (pkDecrypt x c k)
    | _ => (stPkDecodeFail, [], [])
  | 0x0905 => outOf ((pkGenerated x (engReg x 58)).map (fun l => ([], l)))
  | 0x0906 => outOf ((priv.bind (fun k => pkShared x k (sliceOf c.body 0x50 (f16 c 8)))).map (fun z => ([], [z])))
  | 0x0907 =>
    match ecPubOf (f8 c 0) (engReg x 1) with
    | .ok _ => (stOk, [], [])
    | .error st => (st, [], [])
  | _ => outOf ((innerCompute x).map (fun l => ([], l)))

/-! ### Engines and queue -/

/-- Engines. -/
def engTotal : Nat := 64

/-- An engine. -/
def engOf (m : Mod) (e : Nat) : Eng := tblGet Eng.reset m.pke.eng e

/-- An engine changed. -/
def updEng (m : Mod) (e : Nat) (f : Eng → Eng) : Mod := { m with pke := { m.pke with eng := tblUpd Eng.reset m.pke.eng e f } }

/-- The instant of an engine's first program step (10 R275). -/
def Eng.first (x : Eng) : Nat := x.since + x.loadNs

/-- The engine that holds a tag's operation. -/
def engWith (m : Mod) (tag : Nat) : Option Nat :=
  (List.range engTotal).find? (fun e => (engOf m e).state == .loading && (engOf m e).tag == tag)

/-- Whether a tag waits for an engine. -/
def pkQueued (m : Mod) (tag : Nat) : Bool := m.pke.queue.any (fun w => w.tag == tag)

/-- An operation at its place by latest start, after those of the same instant (10 R283). -/
def pkInsert (w : PkWait) : List PkWait → List PkWait
  | [] => [w]
  | x :: r => if w.late < x.late then w :: x :: r else x :: pkInsert w r

/-- The latest start of an operation on the unit's own clock (10 R282). -/
def latestStart (c : Cmd) (n : Nat) : Nat := c.since + 3 * n + 4500000

/-- An operation waits for an engine. -/
def joinQueue (m : Mod) (w : PkWait) : Mod :=
  let q := pkInsert w m.pke.queue
  { m with pke := { m.pke with queue := q, hwm := max m.pke.hwm q.length } }

/-- Bytes of an operation's operands. -/
def operandLen (s : PkShape) : Nat := if s.rsa then s.bits / 8 else (curveOf s.param).elim 32 (fun c => c.params.len)

/-- An operation of a public-key command joins the queue. -/
def pkJoin (m : Mod) (tag : Nat) (c : Cmd) (key : Option (Bytes × Bytes)) : Mod :=
  let s := key.elim (bodyShape c) (fun k => shapeOf k.1)
  let (slot, n) := pkOp c.opcode s
  joinQueue m
    { tag := tag, late := latestStart c n, slot := slot, nominal := n, mem := keyOperands c key
      draws := pkDraws slot (operandLen s) (c.opcode == 0x0903) }

/-- The nominal time of an internal use of the engines, in ns (10 Table 10.2: P-384). -/
def innerNs (slot : Nat) : Nat := if slot = 0x08 then 220000 else 110000

/-- A command hands an internal operation to PKE and frees its context; it returns to level 7 with the operation's outcome,
which is added to what it kept (10 R272, 04 R118). -/
def handInner (m : Mod) (tag : Nat) (c : Cmd) (slot : Nat) (mem : Tbl Bytes) (kept : List Bytes) : Act :=
  .hold (joinQueue (updCmd m tag (fun c => { c with phase := .pke, outcome := none, mem := kept }))
    { tag := tag, late := latestStart c (innerNs slot), slot := slot, nominal := innerNs slot, mem := mem
      draws := pkDraws slot 48 false })

/-- The identity key signs a digest on slot 0x16. -/
def handSign (m : Mod) (tag : Nat) (c : Cmd) (digest : Bytes) (kept : List Bytes) : Act :=
  match m.khs.idKey with
  | some d => handInner m tag c 0x16 [(1, natBe 48 d), (2, digest)] kept
  | none => .finish m stRetryLater []

/-- An internal operation that no command brings, on an engine at the instant that needs it (log 47): its outcome and the
draws of its loading. -/
def innerNow (m : Mod) (slot : Nat) (mem : Tbl Bytes) : Mod × Except W16 (List Bytes) :=
  let x := loadDraws m slot (pkDraws slot 48 false) mem
  (x.1, innerCompute { Eng.reset with slot := slot, mem := x.2 })

/-- A public-key blob has arrived for a command: the checks of Table 5.8 and of the key's use, then the queue. -/
def pkBlobReady (m : Mod) (tag : Nat) : Mod :=
  match cmdOf m tag with
  | none => m
  | some c =>
    match pkHandle c with
    | none => m
    | some h =>
      match (slotFor m c h).bind (fun x => x.2.blob) with
      | none => m
      | some b =>
        match checkBlob m h b with
        | .error st => endCmd m tag st []
        | .ok (a, k) =>
          match keyUse m h a c.stamp with
          | some st => endCmd m tag st []
          | none =>
            match pkKeyFail c h a k with
            | some st => endCmd m tag st []
            | none => pkJoin m tag c (some (a, k))

/-- A command handed to PKE asks for its key, or joins the queue without one. -/
def pkStart (m : Mod) (tag : Nat) : Mod :=
  match cmdOf m tag with
  | none => m
  | some c =>
    match pkHandle c with
    | none => pkJoin m tag c none
    | some h =>
      match askPk m tag c h with
      | (m1, .refused st) => endCmd m1 tag st []
      | (m1, .have) => pkBlobReady m1 tag
      | (m1, .waiting) => m1

/-- Commands of PKE that wait for a fetch slot ask again. -/
def resumePk (m : Mod) : Mod :=
  (m.cmq.cmds.filter (fun p => p.2.phase = .pke ∧ (pkHandle p.2).isSome ∧ p.2.slots = [])).foldl
    (fun m p => if pkQueued m p.1 || (engWith m p.1).isSome then m else pkStart m p.1) m

/-- An engine zeroes its operand memory (10 R285, R286). -/
def zeroEng (m : Mod) (e : Nat) : Mod := updEng m e (fun x => { x with state := .zeroing, tag := 0, since := m.clk, mem := [] })

/-- A command of PKE is taken off its queue or engine and ends (10 R286). -/
def pkAbort (m : Mod) (tag : Nat) (st : W16) : Mod :=
  let m1 := { m with pke := { m.pke with queue := m.pke.queue.filter (fun w => w.tag != tag), abort := m.pke.abort + 1 } }
  let m2 := match engWith m1 tag with
    | some e => zeroEng m1 e
    | none => m1
  endCmd (leaveReady m2 tag) tag st []

/-- Whether a command handed to PKE needs random values of D0: a private key's blinding, the seed of an encryption, a
session's keys (10 R276, R290, 12 R330). -/
def pkRandom (c : Cmd) : Bool :=
  c.opcode == 0x0901 || (decide (0x0903 ≤ c.opcode) && decide (c.opcode ≤ 0x0906)) || c.opcode / 256 != 9

/-- An operation that has drawn nothing when the generators halt: one that waits for its key or an engine (10 Table
10.5). -/
def pkHalt (m : Mod) (p : Nat × Cmd) : Mod :=
  if p.2.phase = .pke ∧ pkRandom p.2 ∧ (engWith m p.1).isNone then pkAbort m p.1 stAborted else m

/-- A command ended under R282: ST_RETRY_LATER, counted, LATE set. -/
def pkLate (m : Mod) (tag : Nat) : Mod :=
  let m1 := { m with pke := { m.pke with
    queue := m.pke.queue.filter (fun w => w.tag != tag), late := m.pke.late + 1 } }
  let m2 := match engWith m1 tag with
    | some e => zeroEng m1 e
    | none => m1
  endCmd (leaveReady (raiseInt m2 .pke 4) tag) tag stRetryLater []

/-! ### Programs (10 R289 to R294) -/

/-- The public handle's attributes beside a generated private key's (10 R292). -/
def pubAttr (a : Bytes) : Bytes :=
  let mode := if aUsage a = ascii "S0" then chr 'V' else if aUsage a = ascii "91" then chr 'N' else chr 'E'
  mkAttr (aAlg a) (aFlags a) (aLen a) (aUsage a) mode (chr 'S') (aKvn a) (aParam a) (aNotBefore a) (aNotAfter a)

/-- The finishing dispatch of PK_KEYGEN: both handles in one record. -/
def finishKeygen (m : Mod) (c : Cmd) (q : List Effect) : Except Act Act := do
  let a := attrKept (fBytes c 0 32) 0
  let d := projDur m
  ensure (decide (pendWrites m + 2 ≤ 4096)) stRetryLater
  let (e1, h1) ← createKey m d c.tenant (kindFor a true) a (c.mem.getD 0 [])
  let (e2, h2) ← createKey m (e1.foldl effDur d) c.tenant (kindFor a false) (pubAttr a) (c.mem.getD 1 [])
  let pub := c.mem.getD 3 []
  pure (.journal m (q ++ e1 ++ e2) stOk
    (le64 h1 ++ le64 h2 ++ c.mem.getD 2 [] ++ [0] ++ natLe 2 pub.length ++ [0, 0] ++ pub) false)

/-- The finishing dispatch of PK_AGREE: the two-step derivation of 10 R293. -/
def finishAgree (m : Mod) (c : Cmd) (q : List Effect) : Except Act Act :=
  let a := attrKept (fBytes c 0x10 32) 2
  let kdk := hmac .sha256 (fBytes c 0x30 32) (c.mem.getD 0 [])
  finishCreate m c q [] 1 a (kdf kdk "NKL-AGREE" (c.body.drop (0x50 + f16 c 8)) (aLen a))

/-- The classes a public-key command names. -/
def pkClasses (c : Cmd) : List (Nat × Nat) :=
  if c.opcode = 0x0905 then createClasses c.tenant (aTrusted (fBytes c 0 32))
  else if c.opcode = 0x0906 then createClasses c.tenant (aTrusted (fBytes c 0x10 32))
  else []

/-- The commands that PKE serves: body and quorum on the core, then the hand-over; at the finishing dispatch, what the
engine left (10 R289, R292, R293, 04 R118). -/
def progPk : Prog := fun m tag c => do
  match c.outcome with
  | some (st, res) =>
    if st = stOk ∧ (c.opcode = 0x0905 ∨ c.opcode = 0x0906) then do
      let q ← quorums m tag c (cmdDigest c) (pkClasses c) (projDur m)
      if c.opcode = 0x0905 then finishKeygen m c q else finishAgree m c q
    else pure (.finish m st res)
  | none => do
    pkBody c
    let _ ← quorums m tag c (cmdDigest c) (pkClasses c) (projDur m)
    needBlk m .pke
    if pkRandom c then needRng m else pure ()
    if c.opcode = 0x0905 then ensure (tenantOf m c.tenant).trk.isSome stTenantNoRoot else pure ()
    match (pkHandle c).bind (handleStatus m c.tenant) with
    | some st => .error (.stop st)
    | none => pure (.hold (pkStart (updCmd m tag (fun c => { c with phase := .pke })) tag))

/-- Whether PK_CANCEL reaches a command: of the tenant, under the request ID, not signalled and not recorded
(10 R287, R294). -/
def cancellable (tag t : Nat) (req : W64) (p : Nat × Cmd) : Bool :=
  p.1 != tag && !p.2.admin && p.2.tenant == t && p.2.opcode / 256 == 9 && p.2.opcode != 0x0910 && p.2.reqId == req &&
    p.2.outcome.isNone &&
    (match p.2.phase with
      | .ready _ _ | .running | .keys | .pke | .verify => true
      | _ => false)

/-- PK_CANCEL (10 R294). -/
def progPkCancel : Prog := fun m tag c => do
  bodyLen c 8
  range (f64 c 0 != 0)
  let l := (m.cmq.cmds.filter (cancellable tag c.tenant (f64 c 0))).map Prod.fst
  let m1 := l.foldl (fun m x => pkAbort m x stAborted) m
  pure (okWith (resumePk m1) (natLe 4 l.length ++ zeroBytes 4))

/-! ### Events -/

/-- An engine's bit in PKE_ENG_AVAIL. -/
def engAvail (m : Mod) (e : Nat) : Bool := m.pke.avail.getLsbD e

/-- A unit's number among all that are tested (17 Table 17.5). -/
def katKey (b : Blk) (n : Nat) : Nat := b.idx * 64 + n

/-- When a unit last passed its test; one not tested yet counts from the start. -/
def passedAt (m : Mod) (u : Blk × Nat) : Nat := tblGet m.hlt.began m.hlt.passed (katKey u.1 u.2)

/-- When an engine last passed slot 0x00; one not tested yet counts from the start (10 R284). -/
def engPassed (m : Mod) (e : Nat) : Nat := passedAt m (.pke, e)

/-- Whether an engine may take an operation: free, in service, and not due for its test (10 R278, R284). -/
def engFree (m : Mod) (e : Nat) : Bool :=
  let x := engOf m e
  decide (e < engTotal) && engAvail m e && x.state == .idle && !x.mustTest && decide (m.clk < engPassed m e + 90000000)

/-- The limit of loading, in ns (10 R275). -/
def loadLimit (c : Cmd) : Nat := if (pkHandle c).elim false (fun h => kindLarge (hKind h)) then 10000 else 2000

/-- A free engine takes the head of the queue; the lowest index goes first. It is LOADING for the time given, within the
limit: the key is unwrapped, which frees its fetch slot, and the random values are drawn (10 R283, R274, R275). -/
def opEngineGrant (e load : Nat) (m : Mod) : Mod :=
  match m.pke.queue with
  | [] => m
  | w :: rest =>
    if engFree m e && (List.range e).all (fun i => !engFree m i) then
      let m1 := { m with pke := { m.pke with queue := rest } }
      match cmdOf m w.tag with
      | none => m1
      | some c =>
        let (m2, mem) := loadDraws m1 w.slot w.draws w.mem
        let m3 := updEng m2 e (fun x =>
          { x with
            state := .loading, tag := w.tag, tenant := c.tenant, slot := w.slot, nominal := w.nominal, since := m.clk,
            loadNs := min load (loadLimit c), mem := mem })
        resumePk (releaseKeys m3 w.tag)
    else m

/-- Whether a public-key tag stands on the ready lists undispatched, 4 ms or more than `n` ns after its stamp (10 R282). -/
def undispatched (m : Mod) (n : Nat) (c : Cmd) : Bool :=
  match c.phase with
  | .ready _ _ =>
    c.opcode / 256 == 9 && c.opcode != 0x0910 && c.runs == 0 && c.outcome.isNone && decide (c.since + 4000000 + n ≤ m.clk)
  | _ => false

/-- A public-key tag not dispatched in time leaves the ready lists (10 R282). -/
def opDispatchDeadline (tag : Nat) (m : Mod) : Mod :=
  match cmdOf m tag with
  | none => m
  | some c => if undispatched m 0 c then pkLate m tag else m

/-- The latest start of a command handed to PKE: of its operation once its key is known, before that no earlier than with
a nominal time of 0 (10 R282; DEDUCED, log 47). -/
def lateFor (m : Mod) (tag : Nat) (c : Cmd) : Nat :=
  match engWith m tag, m.pke.queue.find? (fun w => w.tag == tag) with
  | some e, _ => latestStart c (engOf m e).nominal
  | none, some w => w.late
  | none, none => latestStart c 0

/-- Whether a command handed to PKE has its latest start `n` ns or more behind it, and its operation has not taken its first
step by then (10 R282). -/
def startedLate (m : Mod) (n tag : Nat) (c : Cmd) : Bool :=
  c.phase == .pke && decide (lateFor m tag c + n ≤ m.clk) &&
    (engWith m tag).all (fun e => decide (lateFor m tag c < (engOf m e).first))

/-- An operation that has not started by its latest start ends (10 R282). -/
def opLatestStart (tag : Nat) (m : Mod) : Mod :=
  match cmdOf m tag with
  | none => m
  | some c => if startedLate m 0 tag c then resumePk (pkLate m tag) else m

/-- What the deadlines of R282 have ended before an instant, whether or not their own commands of the table came. -/
def expirePk (m : Mod) : Mod :=
  let m1 := (m.cmq.cmds.filter (fun p => undispatched m 1 p.2)).foldl (fun m p => pkLate m p.1) m
  (m1.cmq.cmds.filter (fun p => startedLate m1 1 p.1 p.2)).foldl (fun m p => resumePk (pkLate m p.1)) m1

/-- The status and result an engine signals, counted (10 Table 10.13). -/
def pkCount (m : Mod) (e : Nat) (st : W16) (faulty : Bool) : Mod :=
  let p := m.pke
  let p1 :=
    { p with
      ops := p.ops + 1, errRange := if st = stPkInputRange then p.errRange + 1 else p.errRange,
      errPoint := if st = stPkPointInvalid then p.errPoint + 1 else p.errPoint,
      faultCheck := if faulty then p.faultCheck + 1 else p.faultCheck }
  let m1 := updEng { m with pke := p1 } e (fun x => { x with ops := x.ops + 1, mustTest := x.mustTest || faulty })
  if faulty then raiseErr m1 .pke 1 2 (BitVec.ofNat 64 (e + (engOf m e).slot * 2 ^ 8)) else m1

/-- Whether an engine may signal an outcome now: a private-key program exactly at its nominal time, a public one within it
and an input error of it within 5 µs, a search no later than its limit, each counted from the first step (10 R273, R280,
R281). -/
def signals (m : Mod) (x : Eng) (st : W16) : Bool :=
  let inputError := st == stPkInputRange || st == stPkPointInvalid
  if slotPrivate x.slot && x.slot != 3 then m.clk == x.first + x.nominal
  else decide (x.first ≤ m.clk ∧ m.clk ≤ x.first + if inputError && x.slot != 3 then min x.nominal 5000 else x.nominal)

/-- The outcome of an engine's operation: a failed result check lets nothing out (10 R278), a search at its limit has found
no pair (R273). -/
def engOutcome (m : Mod) (x : Eng) (c : Cmd) (fault : Bool) : W16 × Bytes × List Bytes :=
  if fault && slotPrivate x.slot then (stInternalFault, [], [])
  else if x.slot = 3 ∧ m.clk = x.first + x.nominal then (stRetryLater, [], [])
  else pkCompute x c

/-- An engine signals the end of its operation: the tag returns to level 7, the engine is zeroed (10 R278, R285). -/
def opOperationComplete (e : Nat) (fault : Bool) (m : Mod) : Mod :=
  let x := engOf m e
  match x.state, cmdOf m x.tag with
  | .loading, some c =>
    let (st, res, mem) := engOutcome m x c fault
    if signals m x st then
      let m1 := zeroEng (pkCount m e st (st == stInternalFault)) e
      let m2 := updEng m1 e (fun y => { y with recent := (x.tag, c.stamp) :: y.recent })
      makeReady (updCmd m2 x.tag (fun c => { c with outcome := some (st, res), mem := c.mem ++ mem, stage := c.stage + 1 }))
        x.tag 7
    else m
  | .loading, none => zeroEng m e
  | _, _ => m

/-- An engine has zeroed its operand memory, in 1.28 µs: back to the pool, or withdrawn (10 R285, R288). -/
def opZeroingDone (e : Nat) (m : Mod) : Mod :=
  let x := engOf m e
  if x.state = .zeroing ∧ x.since + 1280 ≤ m.clk then
    updEng m e (fun x => { x with state := if x.fail then .withdrawn else .idle, slot := 0, tenant := 0 })
  else m

/-- A command whose operation an engine signalled since its last passing test, and which has not completed, is aborted
(10 Table 10.5): the outcome it waits to give is replaced, or it ends where it goes on; a record on its way commits, and its
command completes as aborted (log 45). -/
def revoke (m : Mod) (t : Nat × W64) : Mod :=
  match cmdOf m t.1 with
  | none => m
  | some c =>
    let counted := { m with pke := { m.pke with abort := m.pke.abort + 1 } }
    if c.stamp ≠ t.2 then m
    else match c.phase with
      | .ready _ _ => if c.outcome.isSome then updCmd counted t.1 (fun c => { c with outcome := some (stAborted, []) }) else m
      | .pke => pkAbort m t.1 stAborted
      | .job => endCmd counted t.1 stAborted []
      | .commit _ | .space => updCmd counted t.1 (fun c => { c with outcome := some (stAborted, []) })
      | _ => m

/-- An engine withdrawn by a failed test (10 R288). -/
def withdrawEngine (m : Mod) (e : Nat) : Mod :=
  let x := engOf m e
  let m1 := { m with pke := { m.pke with avail := m.pke.avail &&& ~~~(BitVec.ofNat 64 (2 ^ e)) } }
  let m2 := raiseErr (healthAtLeast m1 .pke (if m1.pke.avail = 0 then 3 else 2)) .pke 0 1 (BitVec.ofNat 64 e)
  let m3 := if x.state = .loading then pkAbort m2 x.tag stAborted else zeroEng m2 e
  x.recent.foldl revoke (updEng m3 e (fun x => { x with fail := true, recent := [] }))

/-- Whether an engine may run slot 0x00: between operations, or at a round of a key generation 50 ms or more after its last
passing test (10 R284). -/
def testable (m : Mod) (e : Nat) : Bool :=
  let x := engOf m e
  x.state == .idle || (x.state == .loading && x.slot == 3 && decide (x.first ≤ m.clk ∧ engPassed m e + 50000000 ≤ m.clk))

/-- Slot 0x00 runs: on an engine with a key generation, registers 0 to 55 are zeroed and the search goes on in the others
(10 R284). -/
def testEngine (m : Mod) (e : Nat) : Mod := updEng m e (fun x => { x with mem := x.mem.filter (fun p => decide (56 ≤ p.1)) })

/-- A passing test of an engine clears what it was due for. -/
def engineTested (m : Mod) (e : Nat) : Mod := updEng m e (fun x => { x with mustTest := false, recent := [] })

end Sys2Proof.Machine
end

