-- ==== Sys2Proof/Machine/Bulk.lean ====
section
/-! DEFINITION. Bulk jobs, stream contexts, digests and random bytes (08 R222 to R236, 05 R161). -/

namespace Sys2Proof.Machine

/-! ### Job slots (08 R223) -/

/-- Whether a command's job runs on DGE. -/
def onDge (c : Cmd) : Bool := c.opcode / 256 == 0x0A

/-- Jobs on a pipeline of a list of jobs. -/
def jobsOn (l : List Job) (p : Nat) : Nat := l.countP (fun j => j.pipe == p)

/-- The pipeline a job is placed on: the one with the fewest jobs, the lowest of equals; none when every slot of the
pipelines in service is taken. -/
def leastPipe (avail : Nat) (total per : Nat) (l : List Job) : Option Nat :=
  ((List.range total).filter (fun p => avail.testBit p && decide (jobsOn l p < per))).foldl
    (fun (b : Option Nat) p =>
      match b with
      | none => some p
      | some x => if jobsOn l p < jobsOn l x then some p else some x) none

/-- The pipeline for a command's job. -/
def pipeFor (m : Mod) (c : Cmd) : Option Nat :=
  if onDge c then leastPipe m.dge.pipes.toNat 8 8 m.dge.jobs else leastPipe (m.sce.pipes.toNat % 256) 8 32 m.sce.jobs

/-- The lists a command's body names: input, output, AAD. -/
def sglOf (c : Cmd) : W64 × W64 × W64 :=
  match c.opcode with
  | 0x0801 | 0x0802 | 0x0803 | 0x0804 => (f64 c 0x28, f64 c 0x30, f64 c 0x38)
  | 0x0810 => (0, 0, f64 c 0x28)
  | 0x0811 => (f64 c 0x18, f64 c 0x20, 0)
  | 0x0A01 => (f64 c 8, 0, 0)
  | 0x0A02 | 0x0A03 => (f64 c 0x10, 0, 0)
  | _ => (0, 0, 0)

/-- The stated lengths of a job's lists: input, output, AAD. -/
def jobLens (c : Cmd) : Nat × Nat × Nat :=
  match c.opcode with
  | 0x0801 | 0x0802 | 0x0803 | 0x0804 => (f32 c 0x0C, f32 c 0x0C, f32 c 0x10)
  | 0x0810 => (0, 0, f32 c 0x20)
  | 0x0811 => (f32 c 0x10, f32 c 0x10, 0)
  | 0x0A01 => (if f64 c 8 = 0 then 0 else f32 c 4, 0, 0)
  | 0x0A02 | 0x0A03 => (if f64 c 0x10 = 0 then 0 else f32 c 0x0C, 0, 0)
  | _ => (0, 0, 0)

/-- The port through which a command's host data moves: that of its path; for NCT the attached port, A first
(DESIGN CHOICE, log 36). -/
def portFor (m : Mod) (c : Cmd) : Port :=
  match c.path with
  | .qp q => (qpOf m c.tenant q).owner
  | .fifo => (tenOf m c.tenant).fifoPort
  | .nct _ _ => if (tenOf m c.tenant).attA then .a else .b
  | .admin p => p

/-- The key of a command's job, or of the stream it carries on. -/
def jobHandle (m : Mod) (c : Cmd) : Option W64 :=
  match c.opcode with
  | 0x0801 | 0x0802 | 0x0803 | 0x0804 | 0x0A02 | 0x0A03 => some (f64 c 0)
  | 0x0810 => some (f64 c 8)
  | 0x0811 | 0x0812 => some (strOf m c.tenant (f8 c 0)).key
  | _ => none

/-- The key value a command's line holds while it is pinned. -/
def heldKey (m : Mod) (h : W64) : Bytes × Bytes :=
  match lineFor m h with
  | some (_, l) => (l.attr, symKey l.attr (lineKey l))
  | none => ([], [])

/-- The key of a job delivered over KBUS: to the key schedule store of its pipeline, or to the key register its digest
pipeline holds for it (08 R216, R234). -/
def deliverKey (m : Mod) (tag pipe : Nat) (c : Cmd) : Mod :=
  match jobHandle m c with
  | none => m
  | some h =>
    if onDge c then
      let m1 := sendShares m (lineNo m h)
      { m1 with dge := { m1.dge with keys := tblSet m1.dge.keys tag (heldKey m h).2 } }
    else loadSched m pipe (lineNo m h)

/-- A pipeline's number among all that Cmd.pipes names: those of DGE stand from 16 on. -/
def pipeNo (c : Cmd) (pipe : Nat) : Nat := if onDge c then 16 + pipe else pipe

/-- A list is read: one with a length, or one that a digest names (08 R225, R235). -/
def sglNamed (a : W64) (n : Nat) : Bool := n != 0 || a != 0

/-- Whether a command's job reads host memory. -/
def jobReads (c : Cmd) : Bool :=
  let (i, o, a) := sglOf c
  let (ni, no, na) := jobLens c
  sglNamed i ni || sglNamed o no || sglNamed a na

/-- A job placed on a pipeline: its key is delivered, the host reads it makes are asked for. -/
def placeJob (m : Mod) (tag pipe : Nat) : Mod :=
  match cmdOf m tag with
  | none => m
  | some c =>
    let j : Job := { tag := tag, pipe := pipe, start := m.clk }
    let m1 := if onDge c then { m with dge := { m.dge with jobs := m.dge.jobs ++ [j] } }
      else { m with sce := { m.sce with jobs := m.sce.jobs ++ [j] } }
    let m2 := updCmd (deliverKey m1 tag pipe c) tag
      (fun x => { x with phase := .job, readAt := m.clk, pipes := pipeNo c pipe :: x.pipes })
    let (i, o, a) := sglOf c
    if jobReads c then emit m2 (.sglRead (portFor m c) i o a) else m2

/-- A program that has its key takes a job slot, or waits for one; a job that reads host memory needs HIF (02 R36).
`hold` is what the command does to its context as it takes or waits for the slot. -/
def takeSlot (m : Mod) (tag : Nat) (c : Cmd) (hold : Mod → Mod) : Act :=
  if jobReads c && !blkServes m .hif then .stop stRetryLater
  else match pipeFor m c with
    | some p => .hold (placeJob (hold m) tag p)
    | none => .hold (updCmd (hold m) tag (fun c => { c with phase := .slot m.clk }))

/-- A job's slot returned; the key register of its digest pipeline is zeroed (08 R234). -/
def freeJob (m : Mod) (tag : Nat) : Mod :=
  let drop := fun (l : List Job) => l.filter (fun j => j.tag != tag)
  { m with
    sce := { m.sce with jobs := drop m.sce.jobs }
    dge := { m.dge with jobs := drop m.dge.jobs, keys := tblErase m.dge.keys tag } }

/-- A job ends with a status: its slot is free, the tag returns to level 7 to finish (08 R222). -/
def jobDone (m : Mod) (tag : Nat) (st : W16) (res : Bytes) : Mod :=
  makeReady (updCmd (freeJob m tag) tag (fun c => { c with outcome := some (st, res) })) tag 7

/-! ### Scatter-gather lists (08 R225, R226) -/

/-- The entries of a list as read, 16 bytes each (08 Table 8.5). -/
def sglEntries (b : Bytes) : List SglEntry :=
  (chunks 16 b).map (fun e => { addr := getLe64 e 0, len := (getLe32 e 8).toNat, ctl := (getLe32 e 12).toNat })

/-- Whether entries keep Table 8.5: reserved bits 0, lengths in range, the last entry at the end of the list; a CHAIN
names an aligned page, which holds the entries that follow. `room` is what a chained page has left; the first page
states no size. -/
def sglShape : Option Nat → List SglEntry → Bool
  | _, [] => true
  | room, e :: r =>
    room != some 0 && decide (e.ctl < 4) &&
      if e.chain then
        !e.last && decide (e.addr.toNat % 16 = 0 ∧ e.len % 16 = 0 ∧ 16 ≤ e.len ∧ e.len ≤ 4096) && sglShape (some (e.len / 16)) r
      else
        decide (1 ≤ e.len ∧ e.len ≤ 1048576) && (!e.last || r.isEmpty) && sglShape (room.map (fun n => n - 1)) r

/-- Whether a list at an address makes up a stated length in at most 4,096 entries with a LAST one. A list page that
is not aligned, and entries that break Table 8.5, are refused as such a list is (DESIGN CHOICE, log 36: the spec names
no status). -/
def sglOk (a : W64) (l : List SglEntry) (n : Nat) : Bool :=
  if sglNamed a n then
    decide (a.toNat % 16 = 0) && decide (l.length ≤ 4096) && sglShape none l && l.any (fun e => e.last) &&
      ((l.filter (fun e => !e.chain)).foldl (fun s e => s + e.len) 0 == n)
  else l.isEmpty

/-- Data written through the entries of an output list. -/
def writeSgl (p : Port) : Mod → List SglEntry → Bytes → Mod
  | m, [], _ => m
  | m, e :: r, d =>
    if d = [] then m
    else if e.chain then writeSgl p m r d
    else writeSgl p (emit m (.hostWrite p e.addr (d.take e.len))) r (d.drop e.len)

/-- Whether an output range meets an input range without being that range (08 R226). -/
def overlapBad (ins outs : List SglEntry) : Bool :=
  let one := fun (o i : SglEntry) =>
    decide (o.addr.toNat < i.addr.toNat + i.len ∧ i.addr.toNat < o.addr.toNat + o.len) &&
      !(o.addr == i.addr && o.len == i.len)
  (outs.filter (fun o => !o.chain)).any (fun o => (ins.filter (fun i => !i.chain)).any (one o))

/-- The output of a job written; where ranges overlap its content is free (log 5). -/
def jobOutput (m : Mod) (p : Port) (ins outs : List SglEntry) (d : Bytes) : Mod :=
  if overlapBad ins outs then writeSgl p { m with free := m.free + d.length } outs (freeBytesAt m.free d.length)
  else writeSgl p m outs d

/-! ### Bodies -/

/-- A key of usage D0 for one direction; TDES serves no job (08 R219, Table 8.7). -/
def bulkKey (a : Bytes) (decrypt : Bool) : Except Act Unit := do
  keyIs a ["D0"] (if decrypt then ['B', 'D'] else ['B', 'E'])
  ensure (aAlg a == chr 'A') stKeyUsage

/-- The option limits of a mode (08 Table 8.3): a length outside them is ST_BAD_LENGTH. -/
def modeLimits (mode ivLen tagLen dataLen : Nat) : Except Act Unit :=
  match mode with
  | 1 => ensure (ivLen == 16 && dataLen % 16 == 0) stBadLength
  | 2 => ensure (ivLen == 16) stBadLength
  | 3 => ensure (ivLen == 12 && decide (12 ≤ tagLen ∧ tagLen ≤ 16)) stBadLength
  | _ => ensure (decide (7 ≤ ivLen ∧ ivLen ≤ 13 ∧ 4 ≤ tagLen ∧ tagLen ≤ 16 ∧ tagLen % 2 = 0 ∧
      dataLen < 2 ^ (8 * (15 - ivLen)))) stBadLength

/-- The body of a bulk job (08 Table 8.7). -/
def jobBody (c : Cmd) : Except Act Unit := do
  bodyLen c 80
  let aead := c.opcode == 0x0801 || c.opcode == 0x0802
  let mode := f8 c 8
  range (if aead then mode == 3 || mode == 4 else mode == 1 || mode == 2)
  range (decide (f8 c 0x0B ≤ if c.opcode = 0x0801 ∧ mode = 3 then 1 else 0))
  ensure (decide (f32 c 0x0C ≤ 1048576 ∧ f32 c 0x10 ≤ 65279)) stBadLength
  range (aead || (f32 c 0x10 == 0 && f8 c 9 == 0))
  reserved c 0x14 4
  modeLimits mode (f8 c 0x0A) (f8 c 9) (f32 c 0x0C)
  range (f8 c 0x0B == 1 || allZero (sliceOf c.body (0x18 + f8 c 0x0A) (16 - f8 c 0x0A)))
  range (f32 c 0x0C != 0 || (f64 c 0x28 == 0 && f64 c 0x30 == 0))
  range (f32 c 0x10 != 0 || f64 c 0x38 == 0)
  range (c.opcode == 0x0802 || allZero (fBytes c 0x40 16))

/-- The hash an ALG code names (08 Table 8.9); none for SHAKE and undefined codes. -/
def digestAlg (n : Nat) : Option HashAlg :=
  match n with
  | 1 => some .sha256
  | 2 => some .sha384
  | 3 => some .sha512
  | 4 => some .sha3_256
  | 5 => some .sha224
  | 6 => some .sha512_256
  | 7 => some .sha3_224
  | 8 => some .sha3_384
  | 9 => some .sha3_512
  | _ => none

/-- The digest of an ALG code. -/
def digestOf (alg outLen : Nat) (d : Bytes) : Bytes :=
  match digestAlg alg with
  | some h => hash h d
  | none => if alg = 10 then shake128 outLen d else shake256 outLen d

/-- Offset of the fixed fields' end, and of DATA_LEN, in a digest body (08 R235). -/
def digestFields (op : Nat) : Nat × Nat := if op = 0x0A01 then (0x10, 4) else if op = 0x0A02 then (0x18, 0x0C) else (0x58, 0x0C)

/-- The body of a digest command. -/
def digestBody (c : Cmd) : Except Act Unit := do
  let (fixed, lenAt) := digestFields c.opcode
  bodyMin c fixed
  let n := f32 c lenAt
  let (i, _, _) := sglOf c
  bodyLen c (if i = 0 then fixed + n else fixed)
  ensure (decide (n ≤ 1048576)) stBadLength
  if c.opcode = 0x0A01 then do
    range (decide (1 ≤ f8 c 0 ∧ f8 c 0 ≤ 11))
    range (if f8 c 0 ≤ 9 then f8 c 1 == 0 else decide (1 ≤ f8 c 1 ∧ f8 c 1 ≤ 64))
    reserved c 2 2
  else do
    reserved c 9 3
    range (decide (16 ≤ f8 c 8 ∧ f8 c 8 ≤ 64))

/-- The data of a job: inline where a digest names no list. -/
def jobData (c : Cmd) (b : Bytes) : Bytes :=
  let (fixed, lenAt) := digestFields c.opcode
  let (i, _, _) := sglOf c
  if onDge c && i == 0 then c.body.drop fixed else fitRight (f32 c lenAt) b

/-! ### Streams -/

/-- An event of a context: vector 6 follows when the tenant's first one shows (08 Table 8.13). -/
def streamEvent (m : Mod) (t c : Nat) (bits : BitVec 2) : Mod :=
  let quiet := (List.range 8).all (fun i => (strOf m t i).event &&& (strOf m t i).eventEn == 0)
  let m1 := updStr m t c (fun x => { x with event := x.event ||| bits })
  if quiet && !((strOf m1 t c).event &&& (strOf m1 t c).eventEn == 0) then signalBoth m1 t 6 else m1

/-- The state a command not accepted by a context finds: a lost stream, or the wrong state (08 R229, R233). -/
def streamRefusal (x : Stream) : W16 := if x.lost && x.state == 0 then stAborted else stStreamState

/-- What a context becomes when the command that holds it finishes: what its job left, or as it was; FAILED where the
pipeline it used was withdrawn (08 Table 8.8, R236; log 34). -/
def streamDone (op : Nat) (st : W16) (x : Stream) : Stream :=
  if x.state ≠ 2 then x
  else if st = stOk then (if op = 0x0812 then x.idle else { x with state := 1 })
  else if op = 0x0810 then { x with state := 0 }
  else if st = stAborted then { x with state := 3 }
  else { x with state := 1, lastStamp := x.prior }

/-- The finishing dispatch of a stream command: the context leaves BUSY with the completion. -/
def finishStream (m : Mod) (c : Cmd) (st : W16) (res : Bytes) : Act :=
  .finish (updStr m c.tenant (f8 c 0) (streamDone c.opcode st)) st res

/-- STREAM_OPEN (08 R229). While its job runs the context is BUSY (DESIGN CHOICE, log 34). -/
def progStreamOpen : Prog := fun m tag c => do
  match c.outcome with
  | some (st, res) => pure (finishStream m c st res)
  | none => do
    bodyLen c 48
    let t := c.tenant
    let x := f8 c 0
    let mode := f8 c 1
    range (decide (x ≤ 7 ∧ 1 ≤ mode ∧ mode ≤ 3 ∧ f8 c 2 ≤ 1))
    range (decide (f8 c 5 ≤ if mode = 3 then 1 else 0))
    range (!(mode == 3 && f8 c 2 == 1))
    reserved c 6 2
    reserved c 0x24 4
    modeLimits mode (f8 c 3) (f8 c 4) 0
    range (mode == 3 || (f32 c 0x20 == 0 && f8 c 4 == 0))
    ensure (decide (f32 c 0x20 ≤ 65279)) stBadLength
    range (f32 c 0x20 != 0 || f64 c 0x28 == 0)
    range (f8 c 5 == 1 || allZero (sliceOf c.body (0x10 + f8 c 3) (16 - f8 c 3)))
    ensure ((strOf m t x).state == 0) stStreamState
    let (a, _) ← useKey m tag c [f64 c 8] (f64 c 8)
    bulkKey a (f8 c 2 == 1)
    needCipher m
    pure (takeSlot m tag c (fun m => updStr m t x (fun y => { y with state := 2 })))

/-- STREAM_UPDATE and STREAM_FINAL up to their job (08 R230, R231). -/
def streamData (m : Mod) (tag : Nat) (c : Cmd) (n : Nat) : Except Act Act := do
  let t := c.tenant
  let x := f8 c 0
  let s := strOf m t x
  ensure (s.state == 1) (streamRefusal s)
  ensure (f64 c 8 == BitVec.ofNat 64 s.bytes) stStreamOrder
  ensure (s.mode != 3 || decide (s.bytes + n ≤ 2 ^ 36 - 32)) stBadLength
  let (a, _) ← useKey m tag c [s.key] s.key
  bulkKey a (s.dir == 1)
  needCipher m
  pure (takeSlot m tag c
    (fun m => updStr m t x (fun y => { y with state := 2, prior := y.lastStamp, lastStamp := c.stamp })))

/-- STREAM_UPDATE. -/
def progStreamUpdate : Prog := fun m tag c => do
  match c.outcome with
  | some (st, res) => pure (finishStream m c st res)
  | none => do
    bodyLen c 40
    range (decide (f8 c 0 ≤ 7))
    reserved c 1 7
    ensure (decide (16 ≤ f32 c 0x10 ∧ f32 c 0x10 ≤ 1048576 ∧ f32 c 0x10 % 16 = 0)) stBadLength
    reserved c 0x14 4
    streamData m tag c (f32 c 0x10)

/-- STREAM_FINAL. -/
def progStreamFinal : Prog := fun m tag c => do
  match c.outcome with
  | some (st, res) => pure (finishStream m c st res)
  | none => do
    bodyLen c 32
    range (decide (f8 c 0 ≤ 7 ∧ f8 c 1 ≤ 15))
    reserved c 2 6
    let s := strOf m c.tenant (f8 c 0)
    ensure (s.mode != 1 || f8 c 1 == 0) stBadLength
    streamData m tag c (f8 c 1)

/-- The command whose job holds a context. -/
def streamHolder (m : Mod) (t x tag : Nat) : Option Nat :=
  (m.cmq.cmds.find? (fun p => p.1 != tag && !p.2.admin && p.2.tenant == t && decide (0x0810 ≤ p.2.opcode ∧ p.2.opcode ≤ 0x0812) &&
    f8 p.2 0 == x && (match p.2.phase with | .job | .slot _ => true | .ready _ _ => p.2.outcome.isSome | _ => false))).map Prod.fst

/-- STREAM_ABORT (08 R229): a job that holds the context stops, its command ending with ST_ABORTED. -/
def progStreamAbort : Prog := fun m tag c => do
  bodyLen c 8
  range (decide (f8 c 0 ≤ 7))
  reserved c 1 7
  let t := c.tenant
  let x := f8 c 0
  let s := strOf m t x
  ensure (s.state != 0) stStreamState
  let m1 := match streamHolder m t x tag with
    | some h => endCmd (leaveReady (freeJob m h) h) h stAborted []
    | none => m
  pure (okWith (updStr m1 t x Stream.idle) [])

/-- The counter block of a GCM stream at its opening, and the hash subkey. -/
def gcmStart (key iv : Bytes) : Nat × Bytes := (beNat (aesEnc key (zeroBytes 16)), iv ++ [0, 0, 0, 1])

/-- A stream as STREAM_OPEN's job leaves it: OPEN, its AAD absorbed. -/
def streamOpened (s : Stream) (c : Cmd) (key iv aad : Bytes) : Stream :=
  let (h, j0) := gcmStart key iv
  { s with
    state := 1, mode := f8 c 1, dir := f8 c 2, key := f64 c 8, bytes := 0, openStamp := c.stamp, lastStamp := c.stamp,
    iv := iv, tagLen := f8 c 4, chain := if f8 c 1 = 3 then incCtr 4 1 j0 else iv,
    acc := if f8 c 1 = 3 then ghash h (padTo 16 aad) else 0, aadLen := aad.length, lost := false }

/-- GHASH carried on from an accumulator. -/
def ghashFrom (h acc : Nat) (d : Bytes) : Nat := (chunks 16 d).foldl (fun y b => gcmMul (y ^^^ beNat b) h) acc

/-- A stream's next data: the output and the stream after it (08 R230). -/
def streamStep (s : Stream) (key d : Bytes) : Bytes × Stream :=
  let n := (d.length + 15) / 16
  let e := aesEnc key
  if s.mode = 1 then
    let out := if s.dir = 0 then cbcEnc .aes key s.chain d else cbcDec .aes key s.chain d
    let ct := if s.dir = 0 then out else d
    (out, { s with chain := if d = [] then s.chain else ct.drop (ct.length - 16), bytes := s.bytes + d.length })
  else if s.mode = 2 then
    (ctrCrypt .aes key s.chain d, { s with chain := incCtr 16 n s.chain, bytes := s.bytes + d.length })
  else
    let out := (ctrBlocks e 4 0 s.chain (chunks 16 d)).flatten
    let h := beNat (e (zeroBytes 16))
    (out, { s with
      chain := incCtr 4 n s.chain, acc := ghashFrom h s.acc (padTo 16 out), bytes := s.bytes + d.length })

/-- The tag of a GCM stream at its end. -/
def streamTag (s : Stream) (key : Bytes) : Bytes :=
  let (h, j0) := gcmStart key s.iv
  let y := ghashFrom h s.acc (natBe 8 (8 * s.aadLen) ++ natBe 8 (8 * s.bytes))
  (xorBytes (natBe 16 y) (aesEnc key j0)).take s.tagLen

/-! ### Programs of jobs -/

/-- AEAD_ENCRYPT, AEAD_DECRYPT, CIPHER_ENCRYPT, CIPHER_DECRYPT up to their job, and their finishing dispatch. -/
def progJob (decrypt : Bool) : Prog := fun m tag c => do
  match c.outcome with
  | some (st, res) => pure (.finish m st res)
  | none => do
    jobBody c
    let (a, _) ← useKey m tag c [f64 c 0] (f64 c 0)
    bulkKey a decrypt
    needCipher m
    pure (takeSlot m tag c id)

/-- DIGEST (08 R235). -/
def progDigest : Prog := fun m tag c => do
  match c.outcome with
  | some (st, res) => pure (.finish m st res)
  | none => do
    digestBody c
    needBlk m .dge
    pure (takeSlot m tag c id)

/-- HMAC_GENERATE and HMAC_VERIFY. -/
def progHmac (verify : Bool) : Prog := fun m tag c => do
  match c.outcome with
  | some (st, res) => pure (.finish m st res)
  | none => do
    digestBody c
    let (a, _) ← useKey m tag c [f64 c 0] (f64 c 0)
    keyIs a ["M7"] (if verify then ['V', 'C'] else ['G', 'C'])
    range (decide (f8 c 8 ≤ (hmacAlg a).outLen))
    needBlk m .dge
    pure (takeSlot m tag c id)

/-- RANDOM_GET: bytes of D1 (05 R161). -/
def progRandom : Prog := fun m _ c => do
  bodyLen c 8
  range (decide (1 ≤ f16 c 0 ∧ f16 c 0 ≤ 4048))
  reserved c 2 6
  needRng m
  pure (okWith (afterD1 m (f16 c 0)) (drawn m (f16 c 0)))

/-! ### What a job computes -/

/-- A job's outcome: status, result bytes, output data (08 R222, R227, R235). `again` is the ciphertext as the second
pass of a decryption reads it. -/
def jobCompute (c : Cmd) (attr key iv aad d again : Bytes) : W16 × Bytes × Bytes :=
  let tl := f8 c 9
  match c.opcode with
  | 0x0801 =>
    let (ct, tag) := if f8 c 8 = 3 then gcmEnc key iv aad d else ccmEnc key iv aad d tl
    (stOk, tag.take tl ++ (if f8 c 0x0B = 1 then iv else []), ct)
  | 0x0802 =>
    let want := fBytes c 0x40 tl
    match (if f8 c 8 = 3 then gcmDec key iv aad d want else ccmDec key iv aad d want) with
    | some _ => (stOk, [], if f8 c 8 = 3 then gcmCrypt key iv again else ccmCrypt key iv again)
    | none => (stAuthTagFail, [], [])
  | 0x0803 => (stOk, [], if f8 c 8 = 1 then cbcEnc .aes key iv d else ctrCrypt .aes key iv d)
  | 0x0804 => (stOk, [], if f8 c 8 = 1 then cbcDec .aes key iv d else ctrCrypt .aes key iv d)
  | 0x0A01 => (stOk, digestOf (f8 c 0) (f8 c 1) d, [])
  | 0x0A02 => (stOk, (hmac (hmacAlg attr) key d).take (f8 c 8), [])
  | 0x0A03 =>
    if (hmac (hmacAlg attr) key d).take (f8 c 8) = fBytes c 0x18 (f8 c 8) then (stOk, [], []) else (stVerifyFail, [], [])
  | _ => (stOk, [], [])

/-- AES blocks of a job: of its data, in CCM also of the B0 block and the AAD, in GCM of the hash subkey, and of the
tag's mask; a second pass only where the tag matched (08 R227, Table 8.14). -/
def jobBlocks (m : Mod) (c : Cmd) (st : W16) (na n : Nat) : Nat :=
  let k := (n + 15) / 16
  let ccm := 2 + (if na = 0 then 0 else (na + 17) / 16) + 2 * k
  let second := if st = stOk then k else 0
  match c.opcode with
  | 0x0801 => if f8 c 8 = 3 then 2 + k else ccm
  | 0x0802 => (if f8 c 8 = 3 then 2 else ccm) + second
  | 0x0810 => if f8 c 1 = 3 then 1 else 0
  | 0x0812 => k + (if (strOf m c.tenant (f8 c 0)).mode = 3 then 1 else 0)
  | _ => k

/-- The counters of a job that has run on a pipeline, with `na` bytes of AAD and `n` of data; each AES block enters it
with its own randomness (08 R213). -/
def countJob (m : Mod) (c : Cmd) (pipe : Nat) (st : W16) (na n : Nat) : Mod :=
  if onDge c then
    { m with dge := { m.dge with
      bytes := m.dge.bytes + BitVec.ofNat 64 n,
      verifyFail := if st = stVerifyFail then m.dge.verifyFail + 1 else m.dge.verifyFail } }
  else
    let blocks := jobBlocks m c st na n
    let m1 := countPipe (countBlocks m blocks 0) pipe blocks
    { m1 with sce := { m1.sce with
      jobBytes := m1.sce.jobBytes + BitVec.ofNat 64 n,
      tagFail := if st = stAuthTagFail then m1.sce.tagFail + 1 else m1.sce.tagFail } }

/-- A job that ends without running to its end: a stream context it holds is FAILED (08 Table 8.8). -/
def jobFailed (m : Mod) (tag : Nat) (c : Cmd) (st : W16) : Mod :=
  let m1 :=
    if c.opcode = 0x0811 ∨ c.opcode = 0x0812 then
      streamEvent (updStr m c.tenant (f8 c 0) (fun x => { x with state := 3 })) c.tenant (f8 c 0) 1
    else if c.opcode = 0x0810 then updStr m c.tenant (f8 c 0) (fun x => { x with state := 0 })
    else m
  jobDone m1 tag st []

/-- A stream context as it was before the command that holds it. -/
def jobBack (m : Mod) (c : Cmd) : Mod :=
  if 0x0810 ≤ c.opcode ∧ c.opcode ≤ 0x0812 then updStr m c.tenant (f8 c 0) (streamDone c.opcode stRetryLater) else m

/-- A list that does not add up ends the job unrun; the context is as it was when the command finishes. -/
def jobBadList (m : Mod) (tag : Nat) : Mod := jobDone m tag stBadLength []

/-- A job of SCE that runs or waits for its slot when the generators halt ends without effect (05 R164). -/
def jobHalt (m : Mod) (p : Nat × Cmd) : Mod :=
  let masked := p.2.opcode / 256 == 8 && !p.2.admin && p.2.outcome.isNone
  match masked, p.2.phase with
  | true, .job | true, .slot _ =>
    endCmd (freeJob (jobBack m p.2) p.1) p.1 stAborted []
  | _, _ => m

/-- What a stream job computes: output, result, the context after it, still BUSY; and whether an IV was drawn. -/
def streamCompute (m : Mod) (c : Cmd) (aad d : Bytes) : Bytes × Bytes × Stream :=
  let s := strOf m c.tenant (f8 c 0)
  let key := (heldKey m ((jobHandle m c).getD 0)).2
  match c.opcode with
  | 0x0810 =>
    let iv := if f8 c 5 = 1 then drawn m 12 else fBytes c 0x10 (f8 c 3)
    ([], if f8 c 5 = 1 then iv else [], { streamOpened s c key iv aad with state := 2 })
  | 0x0811 =>
    let (out, s1) := streamStep s key d
    (out, natLe 8 s1.bytes, s1)
  | _ =>
    let (out, s1) := streamStep s key (fBytes c 0x10 (f8 c 1))
    ([], out ++ (if s.mode = 3 then streamTag s1 key else []), s1)

/-- Whether a command's job carries a stream on. -/
def onStream (c : Cmd) : Bool := decide (0x0810 ≤ c.opcode) && decide (c.opcode ≤ 0x0812)

/-- What a job comes to on the data it has read: status, result, output, and the block with its context, its draw and its
counters moved on. -/
def jobRun (m : Mod) (j : Job) (c : Cmd) (b again : Bytes) : W16 × Bytes × Bytes × Mod :=
  let (ni, _, na) := jobLens c
  let m0 := if onDge c then m else deliverKey m j.tag j.pipe c
  let all := fitRight (na + ni) b
  let aad := all.take na
  let d := all.drop na
  if onStream c then
    let (out, res, s1) := streamCompute m0 c aad d
    let m1 := if c.opcode = 0x0810 ∧ f8 c 5 = 1 then afterDraw m0 12 else m0
    let n := if c.opcode = 0x0812 then f8 c 1 else d.length
    (stOk, res, out, updStr (countJob m1 c j.pipe stOk na n) c.tenant (f8 c 0) (fun _ => s1))
  else
    let d := if onDge c then jobData c d else d
    let key := if onDge c then tblGet [] m.dge.keys j.tag else (heldKey m0 (f64 c 0)).2
    let gen := c.opcode == 0x0801 && f8 c 0x0B == 1
    let iv := if gen then drawn m0 12 else fBytes c 0x18 (f8 c 0x0A)
    let m1 := if gen then afterDraw m0 12 else m0
    let (st, res, out) := jobCompute c (heldKey m (f64 c 0)).1 key iv aad d (fitRight ni again)
    (st, res, out, countJob m1 c j.pipe st na d.length)

/-- The job of a command. -/
def jobOf (m : Mod) (tag : Nat) : Option Job := (m.sce.jobs ++ m.dge.jobs).find? (fun j => j.tag == tag)

/-- Whether the line a job needs holds its key: one whose line is fetched again waits (06 R179). -/
def jobKeyed (m : Mod) (c : Cmd) : Bool :=
  (jobHandle m c).elim true (fun h => (lineFor m h).elim false (fun x => x.2.state == .valid))

/-- A job ended by a failed read of a host address (08 R225, R238). -/
def jobReadFailed (m : Mod) (tag : Nat) (c : Cmd) (a : W64) : Mod :=
  jobFailed (updBlk m (if onDge c then .dge else .sce) (fun h => captureErr h 0 2 a)) tag c stBadPointer

/-- A job runs on what its reads brought: a list that fails ends it unrun; the second pass of a decryption reads the
ciphertext again once the tag matches (08 R222, R225, R227). -/
def jobEndData (m : Mod) (tag : Nat) (c : Cmd) (io : JobIo) : Mod :=
  match jobOf m tag, io with
  | none, _ | _, .twinReport _ => m
  | some j, .readFailed x | some j, .linkLost x =>
    if m.clk < j.start + 8000000 then jobReadFailed m tag c x else m
  | some j, .data ins outs aads b again _ =>
    let (i, o, a) := sglOf c
    let (ni, no, na) := jobLens c
    if j.start + 8000000 ≤ m.clk ∨ !jobKeyed m c then m
    else if !(sglOk i (sglEntries ins) ni && sglOk o (sglEntries outs) no && sglOk a (sglEntries aads) na) then jobBadList m tag
    else
      let p := portFor m c
      let (st, res, out, m1) := jobRun m j c b again
      let m2 := if c.opcode = 0x0802 ∧ st = stOk ∧ ni ≠ 0 then emit m1 (.sglRead p i 0 0) else m1
      jobDone (if out = [] then m2 else jobOutput m2 p (sglEntries ins) (sglEntries outs) out) tag st res

/-! ### Events -/

/-- A waiting command receives a job slot (08 R223). -/
def opJobSlotGrant (tag : Nat) (m : Mod) : Mod :=
  match cmdOf m tag with
  | none => m
  | some c =>
    match c.phase, pipeFor m c with
    | .slot s, some p => if m.clk < s + 2000000 then placeJob m tag p else m
    | _, _ => m

/-- A command without a job slot ends (08 R223). -/
def opJobSlotTimeout (tag : Nat) (m : Mod) : Mod :=
  match cmdOf m tag with
  | none => m
  | some c =>
    match c.phase with
    | .slot s =>
      if m.clk < s + 2000000 then m
      else
      let m1 := if onDge c then raiseInt { m with dge := { m.dge with slotRefuse := m.dge.slotRefuse + 1 } } .dge 4
        else raiseInt { m with sce := { m.sce with slotRefuse := m.sce.slotRefuse + 1 } } .sce 4
      endCmd (jobBack m1 c) tag stRetryLater []
    | _ => m

/-- A job that has not ended in time stops; the segments of output written by then stand in host memory (08 R224). -/
def opJobTimeout (tag : Nat) (io : JobIo) (segs : Nat) (m : Mod) : Mod :=
  match cmdOf m tag, jobOf m tag with
  | some c, some j =>
    if m.clk < j.start + 8000000 then m
    else
      let m1 := match io with
        | .data ins outs _ b again _ =>
          let (_, _, out, m1) := jobRun m j c b again
          let part := out.take (4096 * segs)
          let m2 := countPipe (countBlocks { m with free := m1.free } (256 * segs) 0) j.pipe (256 * segs)
          if part = [] then m else jobOutput m2 (portFor m c) (sglEntries ins) (sglEntries outs) part
        | _ => m
      let m2 := if onDge c then m1 else raiseInt { m1 with sce := { m1.sce with dataTimeout := m1.sce.dataTimeout + 1 } } .sce 2
      jobFailed m2 tag c stDataTimeout
  | _, _ => m

/-- A context that stayed OPEN or FAILED too long becomes IDLE (08 R232). -/
def opStreamIdleExpiry (t c : Nat) (m : Mod) : Mod :=
  let x := strOf m t c
  if (x.state = 1 ∨ x.state = 3) ∧ (t64Add x.lastStamp (m.sce.streamIdle * nsPerS)).toNat ≤ (nowT m).toNat then
    streamEvent (updStr m t c Stream.idle) t c 2
  else m

/-- A mask generator's next seed comes, or takes over (05 R163). -/
def opMaskSeedRenew (pipe : Nat) (m : Mod) : Mod :=
  if m.rng.halted ∨ 10 ≤ pipe then m
  else
    let (m1, g) := maskRenew m (pipeMask m pipe)
    { m1 with sce := { m1.sce with mask := tblSet m1.sce.mask pipe g } }

end Sys2Proof.Machine
end

