-- ==== Sys2Proof/Machine/Handshake.lean ====
section
/-! DEFINITION. The identity-authenticated key exchange that opens a client session and a custodian session (12 R329,
R330, 11 R310), and what a tenant's records share. -/

namespace Sys2Proof.Machine

/-- A P-384 signature of the identity key over a digest, at the instant that needs it (log 47). -/
def identityNow (m : Mod) (digest : Bytes) : Mod × Option Bytes :=
  match m.khs.idKey with
  | none => (m, none)
  | some d =>
    let (m1, r) := innerNow m 0x16 [(1, natBe 48 d), (2, digest)]
    (m1, r.toOption.bind List.head?)

/-- Whether the reserved bytes of a hello are 0. -/
def helloShape (body : Bytes) : Bool := allZero (sliceOf body 1 7) && allZero (sliceOf body 0x89 7)

/-- The keys of one exchange: towards the module and from it. -/
structure HelloKeys where
  kc : Bytes
  km : Bytes
  deriving DecidableEq, Repr

/-- Bytes 0x00 to 0x9F of an answer (12 Table 12.3). -/
def helloHead (sid : Nat) (expiry : W64) (nonce pub : Bytes) : Bytes :=
  natLe 2 sid ++ zeroBytes 6 ++ uidBytes ++ le64 expiry ++ nonce ++ [4] ++ pub ++ zeroBytes 7

/-- T: the digest of the hello and its answer; `who` the two bytes of the tenant or domain (12 R330). -/
def helloT (who body head : Bytes) : Bytes := sha384 (who ++ body.take 0x90 ++ head)

/-- The keys of an exchange from Z (12 R330 step 4). -/
def helloKeys (body nonce z t : Bytes) : HelloKeys :=
  let key := kdf (hmac .sha256 (sliceOf body 8 32 ++ nonce) z) "NKL-SESS" t 512
  { kc := key.take 32, km := key.drop 32 }

/-- The operands of step 1: the credential, what it signed and the signature. -/
def helloCheck (who cred body : Bytes) : Tbl Bytes :=
  [(1, cred), (2, sha384 (who ++ body.take 0x90)), (3, sliceOf body 0x90 96)]

/-- CLIENT_EPH, x then y, checked (step 2). -/
def helloEph (body : Bytes) : Option Bytes := p384Of (sliceOf body 0x28 97)

/-- Steps 1 to 5 of 12 R330 at one instant, for an exchange that no command brings (log 47): the answer of Table 12.3 and
the keys, or the status that refuses. -/
def helloAnswer (m : Mod) (who : Bytes) (cred : Option Bytes) (body : Bytes) (sid : Nat) (expiry : W64) :
    Mod × Except W16 (Bytes × HelloKeys) :=
  match cred with
  | none => (m, .error stVerifyFail)
  | some k =>
    match innerCompute { Eng.reset with slot := 0x08, mem := helloCheck who k body }, helloEph body with
    | .error st, _ => (m, .error st)
    | .ok _, none => (m, .error stPkPointInvalid)
    | .ok _, some q =>
      let (m1, r) := innerNow m 0x17 [(2, q)]
      match r with
      | .ok [z, p] =>
        let nonce := drawn m1 32
        let head := helloHead sid expiry nonce p
        let t := helloT who body head
        let (m2, sig) := identityNow (afterDraw m1 32) t
        (m2, sig.elim (.error stRetryLater) (fun s => .ok (head ++ s, helloKeys body nonce z t)))
      | .error st => (m1, .error st)
      | .ok _ => (m1, .error stInternalFault)

/-- A session's lifetime, in ns (12 Table 12.3). -/
def sessionLife : Nat := 86400 * nsPerS

/-! ### Tenants -/

/-- Bits programmed in a tenant's epoch counter, as the records before leave it (05 R137). -/
def epochBits (d : Durable) (t : Nat) : Nat := max (tblGet 0 d.otp t) (tenantIn d t).epoch

/-- A domain whose open challenges are closed (11 R308). -/
def closeChals (x : Domain) : Domain :=
  { x with chal := tblMap x.chal (fun _ ch => if ch.state = 0 then { ch with state := 2 } else ch) }

/-- A tenant's root replaced and its epoch advanced (05 R141, 12 R323). -/
def rerootEffs (d : Durable) (t : Nat) (trk : Bytes) : List Effect :=
  let x := tenantIn d t
  let n := epochBits d t + 1
  let x' := { x with trk := some trk, epoch := n, twkGen := 0, sealedCnt := 0, cursor := 0, rerootArmed := none }
  [.tenant t x', .epoch t n, .dropKeys t, .domain t (closeChals (domainIn d t))]

/-- Whether a re-root is armed at a stamp (12 R323: for 24 h). -/
def armedAt (x : Tenant) (s : W64) : Bool :=
  x.rerootArmed.elim false (fun a => decide (s.toNat < (t64Add a (86400 * nsPerS)).toNat))

/-- A tenant's root made by a ceremony: installed at the current epoch, or an armed re-root performed (12 R322, R323). -/
def trkEffs (d : Durable) (t : Nat) (trk : Bytes) (s : W64) : Except W16 (List Effect) :=
  let x := tenantIn d t
  if rolledBackIn d t then .error stTenantState
  else match x.trk with
  | none => .ok [.tenant t { x with trk := some trk, twkGen := 0, sealedCnt := 0 }]
  | some _ =>
    if !armedAt x s then .error stTenantState
    else if 127 ≤ epochBits d t then .error stTenantEpochSpent
    else .ok (rerootEffs d t trk)

end Sys2Proof.Machine
end

