-- ==== Sys2Proof/Machine/Custodians.lean ====
section
/-! DEFINITION. Custodians and dual control: domains, challenges, approvals, ceremonies, maintenance windows and the
custodian ports (chapter 11). -/

namespace Sys2Proof.Machine

/-! ### Domains -/

/-- The domain a command acts in: the device's on the admin queue, otherwise its tenant's (R317). -/
def pathDom (c : Cmd) : Nat := if c.admin then deviceDomain else c.tenant

/-- DOMAIN of an approval record (Table 11.3). -/
def domWord (dom : Nat) : Nat := if dom = deviceDomain then 0x8000 else dom

/-- The class of a domain's enrolments and policies (Table 11.1). -/
def custClass (c : Cmd) : Nat := if c.admin then clsDevCustodian else clsCustodian

/-- Classes of a domain in code order (R317). -/
def domClasses (dom : Nat) : List Nat :=
  if dom = deviceDomain then (List.range 9).map (fun i => 0x11 + i) else (List.range 8).map (fun i => i + 1)

/-- Open challenges of a domain at a stamp (R304). -/
def openChals (x : Domain) (s : W64) : Nat := x.chal.countP (fun p => p.2.state == 0 && decide (s.toNat < p.2.ends.toNat))

/-- Open challenges of the device at a stamp. -/
def openAll (d : Durable) (s : W64) : Nat := d.dom.foldl (fun a p => a + openChals p.2 s) 0

/-- A challenge placed in a domain. -/
def withChal (x : Domain) (id : Nat) (ch : Challenge) : Domain := { x with chal := tblSet x.chal id ch }

/-! ### Approvals (R305, R306) -/

/-- Step 1 of R305. -/
def approvalShape (r : Bytes) : Bool :=
  let dw := (getLe16 r 2).toNat
  r.length == 192 && getNat8 r 0 == 1 && (getNat8 r 1 == 1 || getNat8 r 1 == 2) && dw / 4096 % 8 == 0 &&
    (decide (dw < 32768) || dw == 32768) && allZero (sliceOf r 6 2)

/-- CUST of a record. -/
def apCust (r : Bytes) : Nat := getNat8 r 4

/-- CHAL_ID of a record. -/
def apChal (r : Bytes) : Nat := (getLe64 r 8).toNat

/-- Steps 1 to 4 of R305 on a record that reaches a domain; a unit that does not serve takes approvals of its own
TWIN_PAIR challenges alone (14 R361). `proof` admits a custodian that is not enrolled (R299). -/
def approvalCheck (m : Mod) (r : Bytes) (s : W64) (dom : Nat) (proof : Bool) : Except W16 Challenge :=
  let x := domainIn (projDur m) dom
  if !approvalShape r then .error stBadFormat
  else
    let found := tblFind x.chal (apChal r)
    if !serving m && !(found.elim false (fun ch => ch.localOnly)) then .error stStandby
    else match found with
      | none => .error stNotAuthorised
      | some ch =>
        if (getLe16 r 2).toNat ≠ domWord dom ∨ !chalLive ch ∨ 15 < apCust r ∨ (tblFind x.cust (apCust r)).isSome = proof then
          .error stNotAuthorised
        else if getNat8 r 5 ≠ ch.cls ∨ sliceOf r 0x10 32 ≠ ch.bytes ∨ sliceOf r 0x30 48 ≠ ch.opDigest then
          .error stNotAuthorised
        else if !inWindow ch.opened ch.ends s then .error stOutsideWindow
        else if !trustedAt m s then .error stTimeUntrusted
        else .ok ch

/-- Step 5 of R305 and of R299: the signature of a record by a key. -/
def approvalSigned (key r : Bytes) : Bool := p384Verify key (sha384 (r.take 0x60)) (r.drop 0x60)

/-- A signature that failed is counted (Table 11.9). -/
def countSigFail (m : Mod) : Mod := { m with dcu := { m.dcu with sigFail := m.dcu.sigFail + 1 } }

/-- A record's verification starts. -/
def startVerify (m : Mod) (r : Bytes) (dom : Nat) (s : W64) (tag port : Option Nat) : Mod :=
  let v : Verifying :=
    { record := r, dom := dom, chal := apChal r, cust := apCust r, stamp := s, tag := tag, port := port }
  { m with dcu := { m.dcu with
    verify := tblSet m.dcu.verify m.dcu.nextVerify v, nextVerify := m.dcu.nextVerify + 1 } }

/-- Approvals of a challenge after a verified record: an approval counts once, at its earliest stamp; a withdrawal takes
it away. -/
def approveIn (x : Domain) (ch : Challenge) (r : Bytes) (s : W64) : Challenge :=
  let slot := apCust r
  if getNat8 r 1 = 2 then { ch with approvals := tblErase ch.approvals slot }
  else
    let counts := (tblFind ch.approvals slot).elim false (fun a =>
      (tblFind x.cust slot).elim false (fun k => decide (k.stamp.toNat ≤ a.toNat ∧ a.toNat ≤ s.toNat)))
    if counts then ch else { ch with approvals := tblSet ch.approvals slot s }

/-- Counted approvals and M of a challenge, as QUORUM_APPROVE returns them. -/
def approveRes (d : Durable) (dom : Nat) (x : Domain) (ch : Challenge) : Bytes :=
  [byteOf (counted x ch t64Never), byteOf (policyM d dom ch.cls)] ++ zeroBytes 6

/-- What a verified record comes to: the effects of its journal record, its result, and whether it is of this unit
alone; or the status that refuses it. -/
def approvalOutcome (m : Mod) (v : Verifying) : Except W16 (List Effect × Bytes × Bool) :=
  let d := projDur m
  let x := domainIn d v.dom
  if (blkOf m .dcu).locked then .error stLocked
  else match tblFind x.cust v.cust, tblFind x.chal v.chal with
    | some k, some ch =>
      if !chalLive ch then .error stNotAuthorised
      else if !approvalSigned k.key v.record then .error stVerifyFail
      else
        let ch' := approveIn x ch v.record v.stamp
        let x' := withChal x v.chal ch'
        let effs := if ch' = ch then [] else [.domain v.dom x']
        .ok (effs, approveRes d v.dom x' ch', ch.localOnly)
    | _, _ => .error stNotAuthorised

/-- The outcome goes where the record came from: its command completes, or its port gets a RESULT, once the record has
committed (R305). -/
def approvalAnswer (m : Mod) (v : Verifying) : Mod :=
  match approvalOutcome m v with
  | .error st =>
    let m1 := if st = stVerifyFail then countSigFail m else m
    let m2 := v.tag.elim m1 (fun tag => endCmd m1 tag st [])
    v.port.elim m2 (fun p => sendResult m2 p st v.chal)
  | .ok (effs, res, own) =>
    match v.tag, v.port with
    | some tag, _ => (cmdOf m tag).elim m (fun c => issueFor (releaseKeys m tag) tag effs stOk res own (takesEntry c))
    | none, some p => issueRecord m none (effs ++ [.portResult p v.chal]) none own
    | none, none => m

/-- Whether a command waits for approvals before it decides (R307). -/
def decides (c : Cmd) : Bool := c.phase == .verify && c.opcode != 0x0E02

/-- An approval's verification ends (R305). When a command then decides and its two evaluations disagree, DCU locks
(R307, 15 R403). -/
def opApprovalVerifyDone (id : Nat) (agree : Bool) (m : Mod) : Mod :=
  match tblFind m.dcu.verify id with
  | none => m
  | some v =>
    let m1 := approvalAnswer { m with dcu := { m.dcu with verify := tblErase m.dcu.verify id } } v
    if !agree && m1.cmq.cmds.any (fun p => decides p.2) then
      raiseErr (disagree m1 .dcu) .dcu 0 1 (BitVec.ofNat 64 (domWord v.dom))
    else m1

/-! ### Challenges -/

/-- The next ID of a challenge local to a unit that does not serve; local IDs lie apart from those the pair gives
(DESIGN CHOICE, log 38). -/
def localChal (x : Domain) : Nat := x.chal.foldl (fun a p => if p.2.localOnly then max a (p.1 + 1) else a) (2 ^ 63)

/-- QUORUM_OPEN (R304). -/
def progQuorumOpen : Prog := fun m _ c => do
  bodyLen c 56
  let k := f8 c 0
  let w := f32 c 4
  range (classDefined k && classDevice k == c.admin)
  reserved c 1 3
  range (decide (1 ≤ w ∧ w ≤ 86400))
  needBlk m .dcu
  ensure (serving m || k == clsTwinPair) stStandby
  ensure (trustedAt m c.stamp) stTimeUntrusted
  let d := projDur m
  let dom := pathDom c
  let x := domainIn d dom
  ensure (decide (openChals x c.stamp < (if c.admin then 32 else 8) ∧ openAll d c.stamp < 4096)) stChallengeFull
  needRng m
  let ends := t64Add c.stamp (w * nsPerS)
  let ch : Challenge :=
    { cls := k, opDigest := fBytes c 8 48, bytes := drawn m 32, opened := c.stamp, ends := ends, approvals := [],
      state := 0, localOnly := !serving m }
  let id := if serving m then d.nextChal else localChal x
  pure (.journal (afterDraw m 32) [.domain dom (withChal x id ch)] stOk
    (natLe 8 id ++ ch.bytes ++ le64 ends) (!serving m))

/-- QUORUM_APPROVE: the checks before the signature; its verification then decides (R305). -/
def progQuorumApprove : Prog := fun m tag c => do
  bodyLen c 192
  needBlk m .dcu
  let wait := fun (m : Mod) => updCmd m tag (fun c => { c with phase := .verify, stage := 1 })
  if c.stage ≠ 0 then pure (.hold (wait m))
  else match approvalCheck m c.body c.stamp (pathDom c) false with
    | .error st => .error (.stop st)
    | .ok _ => pure (.hold (wait (startVerify m c.body (pathDom c) c.stamp (some tag) none)))

/-- A challenge a command names by its ID (R317, 14 R361). -/
def namedChal (m : Mod) (c : Cmd) (d : Durable) : Except Act (Nat × Challenge) := do
  let id := (f64 c 0).toNat
  let found := tblFind (domainIn d (pathDom c)).chal id
  ensure (serving m || found.elim false (fun ch => ch.localOnly)) stStandby
  let ch ← orStop found stNotAuthorised
  pure (id, ch)

/-- QUORUM_STATUS. -/
def progQuorumStatus : Prog := fun m _ c => do
  bodyLen c 8
  needBlk m .dcu
  let (_, ch) ← namedChal m c m.dur
  let x := domainIn m.dur (pathDom c)
  let st := if ch.state = 3 then 2 else ch.state
  let bits := ch.approvals.foldl (fun a p => a + (if approvalCounts x t64Never p then 2 ^ p.1 else 0)) 0
  pure (okWith m ([byteOf st, byteOf (counted x ch t64Never)] ++ natLe 2 bits ++ le64 ch.ends))

/-- QUORUM_CLOSE (R308). -/
def progQuorumClose : Prog := fun m _ c => do
  bodyLen c 8
  needBlk m .dcu
  let d := projDur m
  let (id, ch) ← namedChal m c d
  ensure (ch.state == 0) stNotAuthorised
  let x := domainIn d (pathDom c)
  pure (.journal m [.domain (pathDom c) (withChal x id { ch with state := 2 })] stOk [] ch.localOnly)

/-- A challenge's window ends (R308). -/
def opChallengeWindowEnd (dom id : Nat) (m : Mod) : Mod :=
  let x := domainIn m.dur dom
  match tblFind x.chal id with
  | none => m
  | some ch =>
    if ch.state = 0 ∧ ch.ends.toNat ≤ (nowT m).toNat then
      { m with dur := { m.dur with dom := tblSet m.dur.dom dom (withChal x id { ch with state := 3 }) } }
    else m

/-! ### Enrolment and policy -/

/-- The quorum of an enrolment, on the challenge its proof names (R299). -/
def enrolQuorum (m : Mod) (d : Durable) (tag : Nat) (c : Cmd) (dom id : Nat) (ch : Challenge) : Except Act Effect := do
  let x := domainIn d dom
  ensure (inWindow ch.opened ch.ends c.stamp) stOutsideWindow
  if verifyingFor m dom id c.stamp then .error (.hold (updCmd m tag (fun c => { c with phase := .verify })))
  else do
    ensure (decide (min (policyM d dom (custClass c)) x.cust.length ≤ counted x ch c.stamp)) stQuorumMissing
    pure (consumeIn d dom id)

/-- CUST_ENROL (R298, R299, R303). The digest its challenge names is taken with the proof as zeros (log 20). -/
def progCustEnrol : Prog := fun m tag c => do
  bodyLen c 304
  let slot := f8 c 0
  range (decide (slot ≤ 15))
  reserved c 1 7
  reserved c 0x69 7
  needBlk m .dcu
  let d := projDur m
  let dom := pathDom c
  let x := domainIn d dom
  range (tblFind x.cust slot).isNone
  let key ← orStop (p384Of (fBytes c 8 97)) stPkPointInvalid
  range (!x.cust.any (fun p => p.2.key == key))
  let proof := c.body.drop 0x70
  let s ← if dom = deviceDomain ∧ x.cust = [] then
      orStop ((m.dcu.proofs.find? (fun p => p.1 == proof)).map Prod.snd) stNotAuthorised
    else pure c.stamp
  match approvalCheck m proof s dom true with
  | .error st => .error (.stop st)
  | .ok ch => do
    let digest := opDigest c.opcode (if c.admin then 0 else c.tenant) (c.body.take 0x70 ++ zeroBytes 192)
    ensure (getNat8 proof 1 == 1 && apCust proof == slot && ch.cls == custClass c && ch.opDigest == digest) stNotAuthorised
    if !approvalSigned key proof then .error (.finish (countSigFail m) stVerifyFail []) else pure ()
    let e ← enrolQuorum m d tag c dom (apChal proof) ch
    let x' := domainIn (effDur d e) dom
    let x'' := { x' with cust := tblSet x'.cust slot { key := key, stamp := c.stamp } }
    pure (.journal { m with dcu := { m.dcu with proofs := [] } } [e, .consumed dom (apChal proof), .domain dom x''] stOk
      [] false)

/-- CUST_REMOVE (R303). -/
def progCustRemove : Prog := fun m tag c => do
  bodyLen c 8
  reserved c 1 7
  needBlk m .dcu
  let dom := pathDom c
  range (tblFind (domainIn (projDur m) dom).cust (f8 c 0)).isSome
  let q ← quorum m tag c (custClass c)
  let d := q.foldl effDur (projDur m)
  let x := domainIn d dom
  ensure ((domClasses dom).all (fun k => decide (policyM d dom k < x.cust.length))) stPolicyConflict
  pure (.journal m (q ++ [.domain dom { x with cust := tblErase x.cust (f8 c 0) }]) stOk [] false)

/-- POLICY_SET (R301, R303). -/
def progPolicySet : Prog := fun m tag c => do
  bodyLen c 16
  let dom := pathDom c
  let ks := domClasses dom
  let vs := c.body.map (fun b => b.toNat)
  range (vs.all (fun v => decide (v ≤ 16)) && (vs.drop ks.length).all (· == 0))
  needBlk m .dcu
  let q ← quorum m tag c (custClass c)
  let x := domainIn (q.foldl effDur (projDur m)) dom
  let set := vs.take ks.length
  ensure (set.all (fun v => decide (v ≤ x.cust.length ∧ (dom = deviceDomain → 2 ≤ v)))) stPolicyConflict
  pure (.journal m (q ++ [.domain dom { x with m := ks.zip set }]) stOk [] false)

/-- CUST_LIST: every slot has its place, an empty one zero (log 38). -/
def progCustList : Prog := fun m _ c => do
  bodyLen c 0
  needBlk m .dcu
  let dom := pathDom c
  let x := domainIn m.dur dom
  let bits := x.cust.foldl (fun a p => a + 2 ^ p.1) 0
  let ms := (domClasses dom).map (fun k => byteOf (policyM m.dur dom k))
  let one := fun (i : Nat) => match tblFind x.cust i with
    | none => zeroBytes 57
    | some k => ((NistCurve.p384.pointOf k.key).elim (zeroBytes 49) (compress .p384)) ++ le64 k.stamp
  pure (okWith m (natLe 2 bits ++ fitRight 16 ms ++ ((List.range 16).map one).flatten))

/-! ### Ceremonies (R311 to R313) -/

/-- Bytes of the key a ceremony makes. -/
def cerLen (x : Ceremony) : Nat := if x.trk then 32 else aLen x.attr / 8

/-- A ceremony zeroed and closed. -/
def dropCer (m : Mod) (id : Nat) : Mod := { m with dcu := { m.dcu with cer := tblErase m.dcu.cer id } }

/-- A ceremony closes without performing the re-root it was opened for: the arming lapses (12 R323). -/
def closeCer (m : Mod) (id : Nat) : Mod :=
  match tblFind m.dcu.cer id with
  | none => m
  | some x => if x.armed then issueOwn (dropCer m id) [.lapse x.tenant] else dropCer m id

/-- The checks of a target: the attributes of a key, or whether a tenant's root may be made (R311, 12 R323). -/
def cerTarget (m : Mod) (c : Cmd) (d : Durable) : Except Act Unit := do
  let x := tenantIn d c.tenant
  if f8 c 0 = 1 then do
    let a := fBytes c 16 32
    attrShape a 1
    range (symShape (aAlg a) (aLen a) (aParam a))
    symUsage a
    ensure (aUsage a != ascii "B1") stKeyUsage
    ensure x.trk.isSome stTenantNoRoot
  else
    ensure (x.trk.isNone || (armedAt x c.stamp &&
      !m.dcu.cer.any (fun p => p.2.trk && p.2.tenant == c.tenant && decide (c.stamp.toNat < p.2.ends.toNat)))) stTenantState

/-- CEREMONY_OPEN (R311). -/
def progCeremonyOpen : Prog := fun m tag c => do
  bodyLen c 48
  let trk := f8 c 0 == 2
  range (f8 c 0 == 1 || trk)
  range (decide (2 ≤ f8 c 1 ∧ f8 c 1 ≤ 16))
  reserved c 2 2
  range (decide (1 ≤ f32 c 4 ∧ f32 c 4 ≤ 86400))
  reserved c 11 5
  needBlk m .dcu
  let d := projDur m
  cerTarget m c d
  let a := fBytes c 16 32
  let classes := if trk then [(c.tenant, clsTenantRoot)] else createClasses c.tenant (aTrusted a)
  let q ← quorums m tag c (cmdDigest c) classes d
  ensure (decide (m.dcu.cer.length < 64)) stChallengeFull
  let ends := t64Add c.stamp (f32 c 4 * nsPerS)
  let id := m.dcu.nextCer
  let x : Ceremony :=
    { tenant := c.tenant, trk := trk, attr := if trk then [] else attrKept a 4, parts := f8 c 1, kcv := fBytes c 8 3,
      opened := c.stamp, ends := ends, acc := [], given := [], armed := trk && (tenantIn d c.tenant).trk.isSome }
  let x := { x with acc := zeroBytes (cerLen x) }
  let m1 := { m with dcu := { m.dcu with cer := tblSet m.dcu.cer id x, nextCer := id + 1 } }
  let res := natLe 8 id ++ le64 ends
  pure (if q = [] then okWith m1 res else .journal m1 q stOk res false)

/-- What a component comes to: the block after it, components accepted and wanted, and on the last one the effects of
its record, the handle and the check value. -/
structure Taken where
  mod : Mod
  cer : Nat
  got : Nat
  parts : Nat
  made : Option (List Effect × W64 × Bytes)
  deriving DecidableEq, Repr

/-- A component refused: the block as it is then, the status, and the ceremony named. -/
abbrev Refused := Mod × W16 × Nat

/-- A check on a component. -/
def needComp (b : Bool) (m : Mod) (st : W16) (id : Nat) : Except Refused Unit := if b then .ok () else .error (m, st, id)

/-- A value a component needs. -/
def haveComp {α : Type} (o : Option α) (m : Mod) (st : W16) (id : Nat) : Except Refused α :=
  match o with
  | some a => .ok a
  | none => .error (m, st, id)

/-- The value of a ceremony whose components are all in: odd parity for TDES (R312). -/
def cerValue (x : Ceremony) (acc : Bytes) : Bytes := if aAlg x.attr = chr 'T' then oddParity acc else acc

/-- The last component: the ceremony closes, and the key or root is made when the check value is the expected one
(R312, 05 R140). -/
def finishCer (m : Mod) (id : Nat) (x : Ceremony) (acc : Bytes) (s : W64) : Except Refused Taken := do
  let v := cerValue x acc
  let kcv := kcvOf x.attr v
  needComp (kcv == x.kcv) (countSigFail (closeCer m id)) stVerifyFail id
  let d := projDur m
  let ok := fun (e : List Effect) (h : W64) =>
    { mod := dropCer m id, cer := id, got := x.parts, parts := x.parts, made := some (e, h, kcv) : Taken }
  if x.trk then
    match trkEffs d x.tenant v s with
    | .ok e => .ok (ok e 0)
    | .error st => .error (closeCer m id, st, id)
  else match createKey m d x.tenant 1 x.attr v with
    | .ok (e, h) => .ok (ok e h)
    | .error (.stop st) => .error (closeCer m id, st, id)
    | .error _ => .error (closeCer m id, stRetryLater, id)

/-- A sealed component capsule opened in its custodian session (R310): the session and the plaintext. -/
def openComponent (m : Mod) (cap : Bytes) (s : W64) : Except Refused (Mod × CustSession × Bytes) := do
  needComp (decide (32 ≤ cap.length) && capVersion cap == 1 && capReservedZero false cap && capSealed cap) m stBadFormat 0
  needComp (cap.length == 32 + capBodyLen cap && decide (16 ≤ capBodyLen cap)) m stBadLength 0
  let sid := capSession cap
  let x ← haveComp (tblFind m.dcu.sess sid) m stNotAuthorised 0
  needComp (decide (s.toNat < x.expiry.toNat)) m stNotAuthorised 0
  let body := cap.drop 32
  let pt ← haveComp (gcmDec x.key ([1, 0] ++ natLe 2 sid ++ le64 (capSeq cap)) (cap.take 32)
    (body.take (body.length - 16)) (body.drop (body.length - 16))) m stCapsuleAuthFail 0
  needComp (winFresh x.h x.bitmap (capSeq cap).toNat) m stReplay 0
  let w := winAccept x.h x.bitmap (capSeq cap).toNat
  let m1 := { m with dcu := { m.dcu with sess := tblSet m.dcu.sess sid { x with h := w.1, bitmap := w.2 } } }
  pure (m1, x, pt)

/-- A component (R312): CER_ID (8), slot (1), LEN (2), the component, its KCV (3) (log 37). `outer` is the CER_ID of a
relaying command, `dom` the domain of the path or port it came by. -/
def takeComponent (m : Mod) (cap : Bytes) (s : W64) (outer : Option Nat) (dom : Nat) : Except Refused Taken := do
  let (m1, x, pt) ← openComponent m cap s
  let id := (getLe64 pt 0).toNat
  needComp (outer.elim true (· == id)) m1 stBadFormat id
  let k := tblFind (domainIn (projDur m1) x.dom).cust x.slot
  needComp (x.dom == dom && getNat8 pt 8 == x.slot && k.elim false (fun k => k.stamp == x.enrolled)) m1 stNotAuthorised id
  let y ← haveComp (tblFind m1.dcu.cer id) m1 stOutsideWindow id
  needComp (y.tenant == x.dom) m1 stNotAuthorised id
  needComp (inWindow y.opened y.ends s) m1 stOutsideWindow id
  needComp (!y.given.contains x.slot) m1 stReplay id
  let n := cerLen y
  needComp ((getLe16 pt 9).toNat == n && pt.length == 14 + n) m1 stBadLength id
  let part := sliceOf pt 11 n
  needComp (kcvOf y.attr part == pt.drop (11 + n)) (countSigFail m1) stVerifyFail id
  let acc := xorBytes y.acc part
  let got := y.given.length + 1
  if got < y.parts then
    let m2 := { m1 with dcu := { m1.dcu with
      cer := tblSet m1.dcu.cer id { y with acc := acc, given := y.given ++ [x.slot] } } }
    pure { mod := m2, cer := id, got := got, parts := y.parts, made := none }
  else finishCer m1 id y acc s

/-- CEREMONY_COMPONENT (R312). -/
def progCeremonyComponent : Prog := fun m _ c => do
  bodyMin c 16
  bodyLen c (16 + f16 c 8)
  reserved c 10 6
  needBlk m .dcu
  match takeComponent m (c.body.drop 16) c.stamp (some (f64 c 0).toNat) c.tenant with
  | .error (m1, st, _) => pure (.finish m1 st [])
  | .ok t =>
    let head := [byteOf t.got, byteOf t.parts] ++ zeroBytes 6
    match t.made with
    | none => pure (.finish t.mod stOk head)
    | some (e, h, kcv) => pure (.journal t.mod e stOk (head ++ le64 h ++ kcv) false)

/-- CEREMONY_CLOSE (R313). -/
def progCeremonyClose : Prog := fun m _ c => do
  bodyLen c 8
  needBlk m .dcu
  let id := (f64 c 0).toNat
  let x ← orStop (tblFind m.dcu.cer id) stOutsideWindow
  ensure (x.tenant == c.tenant) stOutsideWindow
  pure (okWith (closeCer m id) [])

/-- A ceremony's window ends (R313). -/
def opCeremonyWindowEnd (id : Nat) (m : Mod) : Mod :=
  match tblFind m.dcu.cer id with
  | none => m
  | some x => if x.ends.toNat ≤ (nowT m).toNat then closeCer m id else m

/-! ### Maintenance windows (R314) -/

/-- Whether a maintenance window is open, or opening in a record that has not committed. -/
def maintOpen (m : Mod) (s : W64) : Bool :=
  m.dcu.maint.elim false (fun w => inWindow w.1 w.2 s) ||
    (m.jnl.issued ++ m.jnl.waiting).any (fun i =>
      i.rcd.effects.any (fun e => match e with | .maint (some _) => true | _ => false))

/-- MAINT_OPEN: the window opens at the commit stamp, which is that of the issue where no earlier record waits (log 39). -/
def progMaintOpen : Prog := fun m tag c => do
  bodyLen c 8
  let n := f32 c 0
  range (decide (60 ≤ n ∧ n ≤ 28800))
  reserved c 4 4
  needBlk m .dcu
  ensure (!maintOpen m c.stamp) stRetryLater
  let q ← quorum m tag c clsMaintenance
  let s := nowT m
  let e := t64Add s (n * nsPerS)
  pure (.journal m (q ++ [.maint (some (s, e))]) stOk (le64 s ++ le64 e) true)

/-- MAINT_CLOSE. -/
def progMaintClose : Prog := fun m _ c => do
  bodyLen c 0
  needBlk m .dcu
  pure (.journal m [.maint none] stOk [] true)

/-- The maintenance window ends. -/
def opMaintWindowEnd (m : Mod) : Mod :=
  match m.dcu.maint with
  | none => m
  | some w => if w.2.toNat ≤ (nowT m).toNat then setMaint m none else m

/-! ### Custodian ports (R315, R316) -/

/-- The domain a port serves, while it is enabled (Table 11.9). -/
def portDom (m : Mod) (p : Nat) : Option Nat :=
  let c := (custPortOf m p).ctl
  if 8 ≤ p ∨ !c.getLsbD 0 then none
  else if c.getLsbD 1 then some deviceDomain
  else some (c.extractLsb' 16 12).toNat

/-- A frame received: dropped and counted when it is bad, otherwise acknowledged and acted on for its port's domain. -/
def frameIn (f : CustFrame) (act : Nat → Mod → Mod) (m : Mod) : Mod :=
  match portDom m f.port with
  | none => m
  | some dom =>
    if !f.crcOk || decide (1024 < f.payload.length) || !admits m || !m.devReady then
      updCust m f.port (fun x => { x with dropped := min 255 (x.dropped + 1) })
    else act dom (sendCust m f.port 1 [byteOf f.seq])

/-- Why a port's domain gets no service now (12 Table 12.4, 15 Table 15.5, R307). -/
def portStop (m : Mod) (dom : Nat) : Option W16 :=
  let st := (tenantOf m dom).state
  if isErased m && !(m.ssv.tamper == .readmitted && dom == deviceDomain) then some stDeviceErased
  else if dom != deviceDomain && (st == .frozen || st == .restoring || (tenOf m dom).draining) then some stRetryLater
  else if (blkOf m .dcu).locked then some stLocked
  else none

/-- A proof of possession for the first device custodian is kept until its enrolment (R299). -/
def keepProof (m : Mod) (p : Nat) (r : Bytes) (s : W64) : Mod :=
  match approvalCheck m r s deviceDomain true with
  | .error st => sendResult m p st (apChal r)
  | .ok ch =>
    if ch.cls = clsDevCustodian ∧ getNat8 r 1 = 1 then
      let rest := m.dcu.proofs.filter (fun x => !(apChal x.1 == apChal r && apCust x.1 == apCust r))
      sendResult { m with dcu := { m.dcu with proofs := rest ++ [(r, s)] } } p stOk (apChal r)
    else sendResult m p stNotAuthorised (apChal r)

/-- An APPROVAL frame (R305). -/
def opCustApproval (f : CustFrame) : Mod → Mod :=
  frameIn f (fun dom m =>
    let r := f.payload
    let s := nowT m
    match portStop m dom with
    | some st => sendResult m f.port st (apChal r)
    | none =>
      if dom = deviceDomain ∧ (domainIn (projDur m) dom).cust = [] then keepProof m f.port r s
      else match approvalCheck m r s dom false with
        | .error st => sendResult m f.port st (apChal r)
        | .ok _ => startVerify m r dom s none (some f.port))

/-- A COMPONENT frame (R312). -/
def opCustComponent (f : CustFrame) : Mod → Mod :=
  frameIn f (fun dom m =>
    match portStop m dom with
    | some st => sendResult m f.port st 0
    | none =>
      if !serving m then sendResult m f.port stStandby 0
      else match takeComponent m f.payload (nowT m) none dom with
        | .error (m1, st, id) => sendResult m1 f.port st id
        | .ok t =>
          match t.made with
          | none => sendResult t.mod f.port stOk t.cer
          | some (e, _, _) => issueRecord t.mod none (e ++ [.portResult f.port t.cer]) none false)

/-- The lowest session number free among 64 (R310). -/
def freeCustSess (m : Mod) : Option Nat := ((List.range 64).map (· + 1)).find? (fun i => (tblFind m.dcu.sess i).isNone)

/-- A HANDSHAKE frame: the hello of 12 Table 12.2 with the custodian's slot and enrolled key, answered as there (R310). -/
def opCustHandshake (f : CustFrame) : Mod → Mod :=
  frameIn f (fun dom m0 =>
    let now := nowT m0
    let live := m0.dcu.sess.filter (fun p => decide (now.toNat < p.2.expiry.toNat))
    let m := { m0 with dcu := { m0.dcu with sess := live } }
    let b := f.payload
    let k := tblFind (domainIn m.dur dom).cust (getNat8 b 0)
    match portStop m dom with
    | some st => sendResult m f.port st 0
    | none =>
      if !serving m then sendResult m f.port stStandby 0
      else if b.length ≠ 240 ∨ !helloShape b ∨ 15 < getNat8 b 0 then sendResult m f.port stBadFormat 0
      else match freeCustSess m with
        | none => sendResult m f.port stSessionFull 0
        | some sid =>
          let expiry := t64Add now sessionLife
          match helloAnswer m (natLe 2 (domWord dom)) (k.map (fun k => k.key)) b sid expiry with
          | (m, .error st) => sendResult m f.port st 0
          | (m, .ok (res, keys)) =>
            let s : CustSession :=
              { dom := dom, slot := getNat8 b 0, enrolled := k.elim 0 (fun k => k.stamp), key := keys.kc,
                expiry := expiry, h := 0, bitmap := 0 }
            let m1 := { m with dcu := { m.dcu with sess := tblSet m.dcu.sess sid s } }
            let m2 := updCust m1 f.port (fun x => { x with session := some sid })
            sendCust m2 f.port 2 res)

/-- An entry of a LIST frame (Table 11.5). -/
def listEntry (p : Nat × Challenge) : Bytes :=
  natLe 8 p.1 ++ [byteOf p.2.cls] ++ zeroBytes 7 ++ le64 p.2.ends ++ fitRight 48 p.2.opDigest

/-- A LIST frame: the open challenges of the port's domain, fourteen to a frame (R315; log 37). -/
def opCustList (f : CustFrame) : Mod → Mod :=
  frameIn f (fun dom m =>
    match portStop m dom with
    | some st => sendResult m f.port st 0
    | none =>
      let now := nowT m
      let l := (domainIn m.dur dom).chal.filter (fun p => p.2.state == 0 && decide (now.toNat < p.2.ends.toNat))
      let frames := if l = [] then [[]] else chunks 14 l
      frames.foldl (fun m g => sendCust m f.port 6 (g.map listEntry).flatten) m)

/-- An ACK frame: the frame it names is no longer kept (R316). -/
def opCustAck (f : CustFrame) (m : Mod) : Mod :=
  if (portDom m f.port).isNone ∨ !f.crcOk ∨ f.payload.length ≠ 1 then m
  else updCust m f.port (fun x => { x with sent := x.sent.filter (fun e => !(e.1 == getNat8 f.payload 0)) })

/-- A frame without ACK for 2 ms is sent again, up to 4 times (R316). -/
def opCustRetransmit (p seq : Nat) (m : Mod) : Mod :=
  match (custPortOf m p).sent.find? (fun e => e.1 == seq && decide (e.2.2.2.1 + 2000000 ≤ m.clk)) with
  | none => m
  | some (s, type, payload, _, tries) =>
    let rest := (custPortOf m p).sent.filter (fun e => !(e.1 == seq))
    if 4 ≤ tries then updCust m p (fun x => { x with sent := rest })
    else
      let m1 := updCust m p (fun x => { x with sent := rest ++ [(s, type, payload, m.clk, tries + 1)] })
      emit m1 (.custFrame p type s payload)

/-- A custodian port's link comes or goes (Table 11.9). -/
def opCustLink (p : Nat) (up : Bool) (m : Mod) : Mod :=
  if (custPortOf m p).link = up ∨ 8 ≤ p then m
  else raiseInt (updCust m p (fun x => { x with link := up })) .dcu 4

end Sys2Proof.Machine
end

