-- ==== Sys2Proof/Machine/Cache.lean ====
section
/-! DEFINITION. Events of the blob store, the key cache and random generation: fetches and their outcomes, re-masking,
ageing, line errors, the rehash, windows, entropy failures and reseeds (05 R160 to R167, 06 R168 to R187). -/

namespace Sys2Proof.Machine

/-! ### Blob fetches (06 R174, Table 6.1) -/

/-- How long a fetch may run, in ns. -/
def fetchLimit : Nat := 200000

/-- A fetch ends without its key: every waiter ends with the status, the line is zeroed, the slot released. -/
def failFetch (m : Mod) (n : Nat) (f : Fetch) (st : W16) : Mod :=
  let m1 := f.waiters.foldl (fun m tag => endCmd m tag st []) m
  let m2 := f.line.elim m1 (fun l => freeLine m1 l)
  dropSlot m2 n

/-- A fetch abandoned at its deadline. -/
def abandonFetch (m : Mod) (n : Nat) (f : Fetch) : Mod :=
  let m1 := raiseErr m .bsx 1 2 (fetchAddr m f.handle)
  failFetch { m1 with bsx := { m1.bsx with timeout := m1.bsx.timeout + 1 } } n f stBlobTimeout

/-- A blob read: counted, its time kept. -/
def noteFetch (m : Mod) (f : Fetch) : Mod :=
  let d := m.clk - f.first
  let m1 := { m with bsx := { m.bsx with fetch := m.bsx.fetch + 1, latMax := min 262143 (max m.bsx.latMax d) } }
  evrSample m1 0x0010 (some (hTenant f.handle)) d

/-- A blob that fails its checks. -/
def refuseBlob (m : Mod) (n : Nat) (f : Fetch) (st : W16) : Mod :=
  let m1 := if st = stRetryLater then m else raiseErr m .bsx 3 3 (fetchAddr m f.handle)
  failFetch m1 n f st

/-- A blob of PKE's kinds held in its slot; the operation it belongs to goes on (06 R175). -/
def holdBlob (m : Mod) (n : Nat) (f : Fetch) (b : Bytes) : Mod :=
  let m0 := match checkBlob m f.handle b with
    | .error _ => raiseErr m .bsx 3 3 (fetchAddr m f.handle)
    | .ok _ => m
  let m1 := setSlot m0 n { f with blob := some b }
  f.waiters.foldl (fun m tag =>
    match cmdOf m tag with
    | none => m
    | some c => if c.phase = .pke then pkBlobReady m tag else m) m1

/-- BLOB_READ_COMPLETE. -/
def opBlobRead (n : Nat) (r : ReadResult) (m : Mod) : Mod :=
  match tblFind m.bsx.slots n with
  | none => m
  | some f =>
    if f.blob.isSome || f.retryAt.isSome then m
    else if f.first + fetchLimit ≤ m.clk then abandonFetch m n f
    else match r with
      | .failed _ => fetchFailed m n
      | .data b =>
        let m1 := noteFetch m f
        match f.line with
        | none => holdBlob m1 n f b
        | some l =>
          if (blkOf m1 .khs).fault then refuseBlob m1 n f stRetryLater
          else match checkBlob m1 f.handle b with
            | .error st => refuseBlob m1 n f st
            | .ok (attr, key) => dropSlot (fillLine m1 l attr key) n

/-- BLOB_READ_RETRY: the timer fires and the read is issued again. -/
def opBlobRetry (n : Nat) (m : Mod) : Mod :=
  match tblFind m.bsx.slots n with
  | none => m
  | some f =>
    match firing m (.blob n) with
    | none => m
    | some t =>
      let m1 := takeTimer m t
      if f.retryAt.isNone ∨ f.first + fetchLimit ≤ m.clk then m1
      else issueFetch { m1 with bsx := { m1.bsx with readErr := m1.bsx.readErr + 1 } } n

/-- BLOB_FETCH_DEADLINE. -/
def opBlobDeadline (n : Nat) (m : Mod) : Mod :=
  match tblFind m.bsx.slots n with
  | none => m
  | some f => if f.blob.isSome || decide (m.clk < f.first + fetchLimit) then m else abandonFetch m n f

/-- A blob read has no completion 50 µs after its issue (03 R486): it failed. -/
def blobTimeout (n : Nat) (m : Mod) : Mod :=
  match tblFind m.bsx.slots n with
  | none => m
  | some f =>
    if f.blob.isSome || f.retryAt.isSome || decide (m.clk < f.issued + readLimit) then m else fetchFailed m n

/-! ### Lines (06 R178, R179, R187) -/

/-- LINE_REMASK: a line that is due; while r is not there the line waits, for a number of clocks that is free (log 47). -/
def opLineRemask (n : Nat) (m : Mod) : Mod :=
  match tblFind m.kch.lines n with
  | none => m
  | some l =>
    if !maskDue m l then m
    else if remaskReady m then remaskLine m n
    else
      let m1 := afterChoice m
      { m1 with kch := { m1.kch with remaskStall := m1.kch.remaskStall + BitVec.ofNat 64 (choice m) } }

/-- AGE_EVICT_VISIT. -/
def opAgeEvict (t : Nat) (m : Mod) : Mod :=
  let lim := (tenOf m t).tage * 1000
  let old := fun (p : Nat × Line) => p.2.tenant == t && evictable p.2 && decide (lim < lineAge m p.2)
  if lim = 0 then m
  else (m.kch.lines.filter old).foldl (fun m p =>
    let m1 := freeLine m p.1
    { m1 with kch := { m1.kch with ageEvict := m1.kch.ageEvict + 1 } }) m

/-- The lowest slot number in no use; a refetch after a line error does not wait for one (06 R179; log 47). -/
def anySlot (m : Mod) : Nat :=
  ((List.range (m.bsx.slots.length + 1)).find? (fun n => (tblFind m.bsx.slots n).isNone)).getD m.bsx.slots.length

/-- LINE_ECC_ERROR: the line is zeroed; one that is pinned is fetched again for its waiters. A DERIVED line is lost with
its zeroing. -/
def opLineEcc (n : Nat) (m : Mod) : Mod :=
  match tblFind m.kch.lines n with
  | none => m
  | some l =>
    let m1 := raiseErr m .kch 5 2 (BitVec.ofNat 64 n)
    if l.state = .fetching then m1
    else if l.pins.isEmpty ∨ l.state = .derived then freeLine m1 n
    else
      let s := anySlot m1
      let h := (tenantOf m1 l.tenant).trk.elim (bareHandle l.tenant l.kind l.index)
        (fun k => handleOf (hckOf k l.tenant (tenantOf m1 l.tenant).epoch) l.tenant l.kind l.index)
      let f : Fetch :=
        { handle := h, line := some n, first := m1.clk, issued := m1.clk, pk := false, waiters := l.pins, retryAt := none, blob := none }
      let m2 := setLine m1 n { l with state := .fetching, attr := [], shareA := [], shareB := [], slot := some s }
      issueFetch (setSlot m2 s f) s

/-! ### The rehash (06 R183, R184) -/

/-- REHASH_START's effect. -/
def rehashStart (m : Mod) : Mod :=
  if m.kch.busy then m
  else { m with kch := { m.kch with newSeed := m.kch.seedNext, busy := true, busyAt := m.clk, moved := 0, other := [] } }

/-- REHASH_DONE: the walker has visited every bucket; the stash is reinserted, the banks swap, the old one is cleared. -/
def opRehashDone (m : Mod) : Mod :=
  if !m.kch.busy ∨ m.kch.moved < bucketTotal then m
  else
    let m1 := m.kch.stash.foldl rehashEntry { m with kch := { m.kch with stash := [] } }
    raiseInt { m1 with kch := { m1.kch with bank := m1.kch.other, other := [], seed := m1.kch.newSeed, busy := false } } .kch 8

/-! ### Windows (06 R168, R169) -/

/-- Units of the valid windows of all tenants but one window. -/
def otherUnits (m : Mod) (k : Nat) : Nat :=
  m.bsx.win.foldl (fun a p => if p.2.valid && p.1 != k then a + p.2.size else a) 0

/-- The device total of R168. -/
def unitsMax : Nat := 1048576

/-- Whether a window is its tenant's highest valid one. -/
def highestWin (m : Mod) (t w : Nat) : Bool := (winOf m t w).valid && (w == 7 || !(winOf m t (w + 1)).valid)

/-- A window after a write, where the write is accepted; each write is judged whole. While VALID = 0 a size of 0 is
taken and one above the device total is refused (DESIGN CHOICE, log 63: R169 says only that such a write is accepted).
-/
def winWrite (m : Mod) (t w : Nat) (reg : WinReg) (v : W64) : Option Window :=
  let x := winOf m t w
  let k := t * 8 + w
  match reg with
  | .base => some { x with base := v &&& 0xFFFFFFFFFFE00000#64 }
  | .size =>
    let n := v.toNat % 2 ^ 21
    if unitsMax < n then none
    else if !x.valid then some { x with size := n }
    else if x.size < n ∧ highestWin m t w ∧ otherUnits m k + n ≤ unitsMax then some { x with size := n }
    else none
  | .ctl =>
    let val := v.getLsbD 0
    let port := portOfBit (v.getLsbD 8)
    if x.valid then
      (if port ≠ x.port then none else if val then some x else if highestWin m t w then some { x with valid := false } else none)
    else if !val then some { x with port := port }
    else if (w == 0 || (winOf m t (w - 1)).valid) && x.size != 0 && decide (otherUnits m k + x.size ≤ unitsMax) then
      some { x with port := port, valid := true }
    else none

/-- BSX_WIN_WRITE's effect on the window selected. -/
def bsxWinWrite (reg : WinReg) (v : W64) (m : Mod) : Mod :=
  let t := m.bsx.tsel
  let w := m.bsx.wsel
  let k := t * 8 + w
  match winWrite m t w reg v with
  | some x => { m with bsx := { m.bsx with win := tblSet m.bsx.win k { x with refused := false } } }
  | none => raiseInt { m with bsx := { m.bsx with win := tblSet m.bsx.win k { winOf m t w with refused := true } } } .bsx 1

/-! ### Random generation (05 R160 to R164, R167) -/

/-- An entropy source: 0 ES1, 1 ES2. -/
def srcEs (m : Mod) (n : Nat) : Source := if n = 0 then m.rng.es1 else m.rng.es2

/-- A source changed. -/
def setEs (m : Mod) (n : Nat) (s : Source) : Mod :=
  { m with rng := if n = 0 then { m.rng with es1 := s } else { m.rng with es2 := s } }

/-- What the failed marks come to: one source alone, or the halt (R160, R164). -/
def judgeSources (m : Mod) : Mod :=
  if m.rng.halted then m
  else if m.rng.es1.failed && m.rng.es2.failed then
    let r := { m.rng with
      halted := true, d0 := { m.rng.d0 with ready := false }, d1 := { m.rng.d1 with ready := false } }
    raiseInt (healthAtLeast { m with rng := r, devReady := false } .rng 3) .rng 4
  else if m.rng.es1.failed || m.rng.es2.failed then healthAtLeast { m with rng := { m.rng with single := true } } .rng 2
  else m

/-- The cut-offs of a source's repetition count and adaptive proportion tests (Table 5.14). -/
def rctCut (n : Nat) : Nat := if n = 0 then 81 else 51
def aptCut (n : Nat) : Nat := if n = 0 then 829 else 703

/-- The longest run of equal samples, from a run of `k` ending in `last` on (SP 800-90B 4.4.1). -/
def longestRun : Bool → Nat → List Bool → Nat
  | _, k, [] => k
  | last, k, x :: r => if x = last then longestRun last (k + 1) r else max k (longestRun x 1 r)

/-- Whether raw samples pass both tests of a source (R159): no run reaches the first cut-off, and in no window of 1,024
does the window's first value come as often as the second (SP 800-90B 4.4.2). -/
def samplesPass (n : Nat) (l : List Bool) : Bool :=
  let window := fun (i : Nat) => (l.drop (1024 * i)).take 1024
  decide (longestRun false 0 l < rctCut n) &&
    (List.range ((l.length + 1023) / 1024)).all (fun i =>
      decide ((window i).countP (fun x => x == (window i).headD false) < aptCut n))

/-- One run of a source's tests: where they pass, the source is in use; a failure is counted, what came since the last
passing window is not used (no register holds it; log 5), and the third within 1 s marks the source failed until reset
(R160). -/
def testSource (n : Nat) (m : Mod) (l : List Bool) : Mod :=
  let s := srcEs m n
  if s.failed then m
  else if samplesPass n l then setEs m n { s with ok := true }
  else
    let fails := (s.fails.filter (fun t => decide (m.clk < t + nsPerS))) ++ [m.clk]
    let dead := decide (3 ≤ fails.length)
    let m1 := setEs m n { s with fails := fails, failed := dead, ok := false }
    let m2 := raiseInt { m1 with rng := { m1.rng with htFail := m1.rng.htFail + 1 } } .rng (if dead then 3 else 1)
    judgeSources m2

/-- Tests run one after another until one passes (R160). -/
def testSources (n : Nat) (m : Mod) : List (List Bool) → Mod
  | [] => m
  | l :: r =>
    let m1 := testSource n m l
    if (srcEs m1 n).ok then m1 else testSources n m1 r

/-- RNG_HEALTH_TEST_FAIL: the raw samples of the window that fails, then those of the start-up tests repeated, over 1,024
samples each (R159, R160). -/
def opHealthTestFail (n : Nat) (runs : List (List Bool)) (m : Mod) : Mod :=
  if 2 ≤ n ∨ !m.powered then m
  else testSources n m (runs.take 1 ++ (runs.drop 1).map (fun x => x.take 1024))

/-- DRBG_RESEED: 2^20 requests or 1 s after the last (R161). -/
def opDrbgReseed (n : Nat) (m : Mod) : Mod :=
  let d := if n = 0 then m.rng.d0 else m.rng.d1
  if 2 ≤ n ∨ !d.ready ∨ m.rng.halted ∨ !reseedDue m d then m else if n = 0 then reseedD0 m else reseedD1 m

/-- A read of RNG_RAW: 64 raw samples of the source selected, which are free (log 5). -/
def rawSamples (m : Mod) : W64 × Mod := (Config.rawSample m.rng.rawSel m.free, { m with free := m.free + 8 })

end Sys2Proof.Machine
end

