-- ==== Sys2Proof/Machine/Puf.lean ====
section
/-! DEFINITION. The fuzzy extractor of the unit secret: repetition code, code offsets, regeneration and enrolment
(05 R127, R128). -/

namespace Sys2Proof.Machine

/-- Message bits and code bits of BCH(511, 259), and array bits of a block. -/
def msgBits : Nat := 259
def codeBits : Nat := 511
def blockBits : Nat := 2555

/-- Bits of the array in use: four blocks. -/
def arrayBits : Nat := 4 * blockBits

/-- The first `n` bits of a byte string, the least significant of each byte first; 0 past its end. -/
def bitsOf (n : Nat) (b : Bytes) : List Bool := (List.range n).map (fun i => (b.getD (i / 8) 0).getLsbD (i % 8))

/-- Bits packed into bytes the same way. -/
def bitBytes (l : List Bool) : Bytes :=
  (List.range ((l.length + 7) / 8)).map (fun i =>
    BitVec.ofNat 8 (((l.drop (8 * i)).take 8).zipIdx.foldl (fun a p => a + if p.1 then 2 ^ p.2 else 0) 0))

/-- A list of exactly `n` bits. -/
def fitBits (n : Nat) (l : List Bool) : List Bool := (List.range n).map (fun i => l.getD i false)

/-- Bitwise exclusive OR. -/
def xorBits (a b : List Bool) : List Bool := (a.zip b).map (fun p => p.1 != p.2)

/-- Bits that are set. -/
def ones (l : List Bool) : Nat := l.countP id

/-- The outer code: a message's code word, and the message a word decodes to (log 9). -/
def bchEncode (msg : List Bool) : List Bool := fitBits codeBits (Config.bchEncode msg)
def bchDecode (word : List Bool) : List Bool := fitBits msgBits (Config.bchDecode word)

/-- The inner code: each bit five times, and the majority of each five. -/
def repeat5 (l : List Bool) : List Bool := (l.map (fun b => List.replicate 5 b)).flatten
def majority5 (l : List Bool) : List Bool :=
  (List.range codeBits).map (fun i => decide (3 ≤ ones ((l.drop (5 * i)).take 5)))

/-- The array bits that a block's message stands for. -/
def codeOf (msg : List Bool) : List Bool := repeat5 (bchEncode msg)

/-- The message a block of bits decodes to. -/
def messageOf (block : List Bool) : List Bool := bchDecode (majority5 block)

/-- The four parts of a list, each of `n`. -/
def quarters (n : Nat) (l : List Bool) : List (List Bool) := (List.range 4).map (fun i => (l.drop (n * i)).take n)

/-- The unit secret: SHA3-256 of the 4 × 259 message bits, whose last four bits share a byte with the hash's own padding
(FIPS 202: suffix 01, then 1). -/
def dusOf (msgs : List (List Bool)) : Bytes :=
  let b := bitBytes (msgs.flatten)
  keccak 136 ((b.getD 129 0 &&& 0x0F) ||| 0x60) 32 (b.take 129)

/-- The check value of a unit secret. -/
def checkOfDus (dus : Bytes) : Bytes := hash .sha3_256 (dus ++ ascii "NKL-DUS-CHK")

/-- One read of the array: the messages decoded from it, and how many of its bits were in error against them. -/
structure PufRead where
  msgs : List (List Bool)
  errors : Nat
  deriving DecidableEq, Repr

/-- A read decoded with the helper offsets. -/
def pufRead (offsets raw : Bytes) : PufRead :=
  let x := xorBits (bitsOf arrayBits raw) (bitsOf arrayBits offsets)
  let msgs := (quarters blockBits x).map messageOf
  { msgs := msgs, errors := ones (xorBits x (msgs.map codeOf).flatten) }

/-- What regeneration comes to: the secret where some read passes the check, the reads used, the errors corrected in the
last, and whether any read showed more than 6 % of its bits in error. -/
structure PufResult where
  dus : Option Bytes
  reads : Nat
  errors : Nat
  high : Bool
  deriving DecidableEq, Repr

/-- Reads taken one after another until the check passes, four at most; `n` are still allowed. A read that the list does
not hold gives zeros. -/
def pufReads (h : PufHelper) : Nat → Nat → Bool → List Bytes → PufResult
  | 0, k, high, _ => { dus := none, reads := k, errors := 0, high := high }
  | n + 1, k, high, raws =>
    let r := pufRead h.offsets (raws.headD [])
    let high' := high || decide (arrayBits * 6 < r.errors * 100)
    if checkOfDus (dusOf r.msgs) = h.check then
      { dus := some (dusOf r.msgs), reads := k + 1, errors := r.errors, high := high' }
    else pufReads h n (k + 1) high' raws.tail

/-- Regeneration of the unit secret (05 R128). -/
def regenerate (h : PufHelper) (raws : List Bytes) : PufResult := pufReads h 4 0 false raws

/-- Enrolment (05 R127): messages drawn at random, the offsets of the array's bits from their code words, the check
value. How the messages come about is the model's (log 9). -/
def enrol (raw random : Bytes) : PufHelper :=
  let msgs := quarters msgBits (bitsOf (4 * msgBits) random)
  { offsets := bitBytes (xorBits (bitsOf arrayBits raw) (msgs.map codeOf).flatten), check := checkOfDus (dusOf msgs) }

end Sys2Proof.Machine
end

