-- ==== Sys2Proof/Machine/Tenants.lean ====
section
/-! DEFINITION. Tenants, sessions and migration (chapter 12). -/

namespace Sys2Proof.Machine

/-! ### Sessions (12 R329 to R336) -/

/-- Sessions of a tenant, half-open included. -/
def sessOfTenant (d : Durable) (t : Nat) : Tbl Session := d.sess.filter (fun p => p.1 / 65536 == t)

/-- The session ID a tenant is given next: rising from the last one, skipping IDs in use and those given already, wrapping
after 65,535. -/
def nextSid (d : Durable) (t last : Nat) (given : List Nat) : Nat :=
  let l := (List.range 65535).map (fun i => (last + i) % 65535 + 1)
  (l.find? (fun i => (tblFind d.sess (sessKey t i)).isNone && !given.contains i)).getD 1

/-- Session IDs that hellos of a tenant on their way were given: T holds them before their sessions commit (log 41). -/
def sidsTaken (m : Mod) (t : Nat) : List Nat :=
  (m.cmq.cmds.filter (fun p => p.2.tenant == t && p.2.opcode == 0x0D01 && decide (3 ≤ p.2.mem.length))).map
    (fun p => (getLe16 (p.2.mem.getD 0 []) 0).toNat)

/-- Where a hello's answer may go on to: room for its session (12 R335). -/
def helloRoom (m : Mod) (d : Durable) (t : Nat) : Except Act Unit := do
  ensure (decide ((sessOfTenant d t).length < (tenOf m t).sessCap)) stSessionFull
  if 65536 ≤ d.sess.length then .error (.finish (raiseInt m .cmq 4) stSessionFull []) else pure ()

/-- SESSION_HELLO (12 R329, R330, R336): the credential's signature on slot 0x08, Z on slot 0x17, T signed on slot
0x16, then the session's record. What the command keeps is, from stage to stage, nothing; Z and the device's
ephemeral; the answer's head and both keys; and with them the signature. -/
def progSessionHello : Prog := fun m tag c => do
  let d := projDur m
  let t := c.tenant
  let x := tenantIn d t
  let next := fun (m : Mod) (slot : Nat) (mem : Tbl Bytes) (kept : List Bytes) => handInner m tag c slot mem kept
  match c.outcome, c.mem with
  | none, _ => do
    range (!c.wasSealed && c.session == 0 && c.seq == 0 && c.reqId == 0)
    bodyLen c 240
    range (decide (f8 c 0 ≤ 31) && helloShape c.body)
    needBlk m .pke
    needRng m
    helloRoom m d t
    let k ← orStop (tblFind x.creds (f8 c 0)) stVerifyFail
    pure (next m 0x08 (helloCheck (tenBytes t) k c.body) [])
  | some (st, _), [] => do
    if st ≠ stOk then .error (.stop st) else pure ()
    let q ← orStop (helloEph c.body) stPkPointInvalid
    needRng m
    pure (next m 0x17 [(2, q)] [])
  | some (st, _), [z, p] => do
    if st ≠ stOk then .error (.stop st) else pure ()
    needRng m
    helloRoom m d t
    let nonce := drawn m 32
    let head := helloHead (nextSid d t x.lastSess (sidsTaken m t)) (t64Add c.stamp sessionLife) nonce p
    let dig := helloT (tenBytes t) c.body head
    let k := helloKeys c.body nonce z dig
    pure (handSign (afterDraw m 32) tag c dig [head, k.kc, k.km])
  | some (st, _), l => do
    if st ≠ stOk then .error (.stop st) else pure ()
    helloRoom m d t
    let _ ← orStop (tblFind x.creds (f8 c 0)) stVerifyFail
    let head := l.getD 0 []
    let sid := (getLe16 head 0).toNat
    let s : Session :=
      { kc := l.getD 1 [], km := l.getD 2 [], h := 0, bitmap := 0, count := 0, opened := c.stamp,
        expiry := t64Add c.stamp sessionLife, cred := f8 c 0, halfOpen := true, limitFrom := c.stamp, mark := 0, acked := 0 }
    pure (.journal m [.tenant t { x with lastSess := sid }, .session (sessKey t sid) s] stOk (head ++ l.getD 3 []) false)

/-- The session a body names. -/
def namedSess (d : Durable) (c : Cmd) : Except Act (Nat × Session) := do
  bodyLen c 8
  reserved c 2 6
  let k := sessKey c.tenant (f16 c 0)
  let s ← orStop (tblFind d.sess k) stSessionInvalid
  pure (k, s)

/-- SESSION_CLOSE (12 R332). -/
def progSessionClose : Prog := fun m _ c => do
  let (k, _) ← namedSess (projDur m) c
  pure (.journal m [.closeSession k] stOk [] false)

/-- SESSION_STATUS. -/
def progSessionStatus : Prog := fun m _ c => do
  let (_, s) ← namedSess m.dur c
  pure (okWith m (le64 s.opened ++ le64 s.expiry ++ natLe 8 s.count ++ natLe 8 s.h))

/-- A half-open session that saw no sealed capsule in 1 s closes; the serving unit judges (12 R331). -/
def opHalfOpenTimeout (t sid : Nat) (m : Mod) : Mod :=
  match sessOf m t sid with
  | none => m
  | some s =>
    if serving m ∧ s.halfOpen ∧ (t64Add s.limitFrom nsPerS).toNat ≤ (nowT m).toNat then
      issueOwn m [.closeSession (sessKey t sid)]
    else m

/-- A mark of a session is due (12 R334). -/
def opMarkSend (t sid : Nat) (m : Mod) : Mod :=
  if serving m then (sessOf m t sid).elim m (fun s => sendMark m t sid s.h) else m

/-- The twin acknowledges a mark: gated capsules of the session go on (12 R334). -/
def opMarkAck (t sid mark : Nat) (m : Mod) : Mod :=
  match sessOf m t sid with
  | none => m
  | some s =>
    if serving m ∧ mark ≤ s.mark then releaseGated (setSess m t sid { s with acked := max s.acked mark }) t sid else m

/-! ### Credentials and policy (12 R327, R328) -/

/-- The quorum of a credential's change: the lower of M and the custodians enrolled (12 R327, 11 R299). -/
def credQuorum (m : Mod) (tag : Nat) (c : Cmd) : Except Act (List Effect) :=
  let d := projDur m
  let need := min (policyM d c.tenant clsCustodian) (domainIn d c.tenant).cust.length
  quorumOf m d tag c c.tenant clsCustodian need (cmdDigest c)

/-- CRED_ENROL. -/
def progCredEnrol : Prog := fun m tag c => do
  bodyLen c 112
  range (decide (f8 c 0 ≤ 31))
  reserved c 1 7
  reserved c 0x69 7
  let x := tenantIn (projDur m) c.tenant
  range (tblFind x.creds (f8 c 0)).isNone
  let key ← orStop (p384Of (fBytes c 8 97)) stPkPointInvalid
  range (!x.creds.any (fun p => p.2 == key))
  let q ← credQuorum m tag c
  pure (.journal m (q ++ [.tenant c.tenant { x with creds := tblSet x.creds (f8 c 0) key }]) stOk [] false)

/-- CRED_REMOVE: every session opened with the credential closes. -/
def progCredRemove : Prog := fun m tag c => do
  bodyLen c 8
  range (decide (f8 c 0 ≤ 31))
  reserved c 1 7
  let d := projDur m
  let x := tenantIn d c.tenant
  range (tblFind x.creds (f8 c 0)).isSome
  let q ← credQuorum m tag c
  let gone := (sessOfTenant d c.tenant).filter (fun p => p.2.cred == f8 c 0)
  pure (.journal m (q ++ [.tenant c.tenant { x with creds := tblErase x.creds (f8 c 0) }] ++
    gone.map (fun p => .closeSession p.1)) stOk [] false)

/-- TENANT_POLICY_SET. -/
def progTenantPolicySet : Prog := fun m tag c => do
  bodyLen c 8
  range (decide (f8 c 0 ≤ 1))
  reserved c 1 7
  let q ← quorum m tag c clsCustodian
  let x := tenantIn (projDur m) c.tenant
  pure (.journal m (q ++ [.tenant c.tenant { x with openCaps := f8 c 0 == 1 }]) stOk [] false)

/-- A tenant's state as TEN_STATE reports it: FROZEN from the stamp of a freeze (12 R337). -/
def shownState (m : Mod) (t : Nat) : TenState :=
  let s := (tenantOf m t).state
  if (tenOf m t).draining && s == .active then .frozen else s

/-- The bitmap of a tenant's credential slots. -/
def credBits (x : Tenant) : Nat := x.creds.foldl (fun a p => a + 2 ^ p.1) 0

/-- TENANT_INFO. -/
def progTenantInfo : Prog := fun m _ c => do
  bodyLen c 0
  let x := tenantOf m c.tenant
  pure (okWith m (natLe 2 c.tenant ++ [byteOf x.epoch, byteOf (shownState m c.tenant).code, if x.openCaps then 1 else 0] ++
    zeroBytes 3 ++ natLe 4 (sessOfTenant m.dur c.tenant).length ++ natLe 4 (credBits x)))

/-! ### Creating, closing, re-rooting (12 R320 to R324) -/

/-- The tenant an admin command names (12 R343). -/
def namedTen (c : Cmd) : Except Act Nat := do
  range (decide (f16 c 0 ≤ 0xFFF))
  pure (f16 c 0)

/-- The tenant a creation takes. -/
def createId (d : Durable) (n : Nat) : Except Act Nat :=
  if n = 0xFFFF then
    orStop ((List.range 4096).find? (fun t => (tenantIn d t).state == .closed && decide (epochBits d t ≤ 126)))
      stTenantTableFull
  else do
    ensure ((tenantIn d n).state == .closed) stTenantInUse
    ensure (decide (epochBits d n < 127)) stTenantEpochSpent
    pure n

/-- TENANT_CREATE (12 R321, R322). -/
def progTenantCreate : Prog := fun m tag c => do
  bodyLen c 112
  range (decide (f16 c 0 ≤ 0xFFF ∨ f16 c 0 = 0xFFFF))
  range (decide (f8 c 2 ≤ 1 ∧ f8 c 3 ≤ 1))
  reserved c 4 4
  reserved c 0x69 7
  let key ← orStop (p384Of (fBytes c 8 97)) stPkPointInvalid
  let _ ← createId (projDur m) (f16 c 0)
  let q ← quorum m tag c clsTenantAdmin
  let d := projDur m
  let t ← createId d (f16 c 0)
  if f8 c 2 = 0 then needRng m else pure ()
  let n := epochBits d t + 1
  let trk := if f8 c 2 = 0 then some (drawn m 32) else none
  let x := { Tenant.none with
    state := .active, openCaps := f8 c 3 == 1, epoch := n, trk := trk, creds := [(0, key)], offer := (tenantIn d t).offer }
  pure (.journal (if f8 c 2 = 0 then afterFreshDraw m 32 else m) (q ++ [.tenant t x, .epoch t n]) stOk
    (natLe 2 t ++ [byteOf n] ++ zeroBytes 5) false)

/-- RSA key generations of a tenant cancelled (12 R337). -/
def cancelKeygens (m : Mod) (t : Nat) : Mod :=
  let busy := fun (p : Phase) => match p with | .commit _ | .space | .done | .dup _ => false | _ => true
  let l := m.cmq.cmds.filter (fun p => !p.2.admin && p.2.tenant == t && p.2.opcode == 0x0905 &&
    (bodyShape p.2).rsa && p.2.outcome.isNone && busy p.2.phase)
  l.foldl (fun m p => pkAbort m p.1 stAborted) m

/-- A freeze begins: no new work of the tenant is taken, key generations are cancelled, STATE_CHANGE is set (12 R337). -/
def startDrain (m : Mod) (t : Nat) : Mod :=
  if (tenOf m t).draining then m
  else raiseTen (cancelKeygens (updTen m t (fun h => { h with draining := true })) t) t 0x20

/-- A freeze that comes to nothing ends. -/
def stopDrain (m : Mod) (t : Nat) : Mod :=
  if (tenOf m t).draining then raiseTen (updTen m t (fun h => { h with draining := false })) t 0x20 else m

/-- The wait of a command for its tenant's drain. -/
def waitDrain (m : Mod) (tag : Nat) : Act := .hold (updCmd m tag (fun c => { c with phase := .drain, stage := 1 }))

/-- TENANT_FREEZE (12 R337). -/
def progTenantFreeze : Prog := fun m tag c => do
  bodyLen c 8
  let t ← namedTen c
  reserved c 2 6
  let x := tenantIn (projDur m) t
  if c.stage = 0 then ensure (x.state == .active && !(tenOf m t).draining) stTenantState else pure ()
  let m1 := startDrain m t
  if tagsOf m1 t = 0 then pure (.journal m1 [.tenant t { x with state := .frozen }] stOk [] false)
  else pure (waitDrain m1 tag)

/-- TENANT_CLOSE: freeze, drain, then one record (12 R324). -/
def progTenantClose : Prog := fun m tag c => do
  bodyLen c 8
  let t ← namedTen c
  reserved c 2 6
  let x := tenantIn (projDur m) t
  if c.stage = 0 then ensure (x.state != .closed && !(tenOf m t).draining) stTenantState else pure ()
  match quorum m tag c clsTenantAdmin with
  | .error (.stop st) => .error (.finish (if c.stage = 0 then m else stopDrain m t) st [])
  | .error a => .error a
  | .ok q =>
    let m1 := if x.state = .active then startDrain m t else m
    if tagsOf m1 t = 0 then
      let n := epochBits (projDur m1) t + 1
      pure (.journal m1 (q ++ [.tenant t { Tenant.none with epoch := n, offer := x.offer }, .epoch t n, .closeTenant t]) stOk [] false)
    else pure (waitDrain m1 tag)

/-- TENANT_RESUME (12 R320, R340, R341). -/
def progTenantResume : Prog := fun m _ c => do
  bodyLen c 8
  let t ← namedTen c
  reserved c 2 6
  let x := tenantIn (projDur m) t
  ensure ((x.state == .frozen || x.state == .restoring) && !x.migratedOut) stTenantState
  pure (.journal m [.tenant t { x with state := .active }, .resumed t] stOk [] false)

/-- TENANT_REROOT (12 R323). -/
def progTenantReroot : Prog := fun m tag c => do
  bodyLen c 8
  let t ← namedTen c
  range (decide (f8 c 2 ≤ 1))
  reserved c 3 5
  let d := projDur m
  let x := tenantIn d t
  ensure (x.state == .active || x.state == .frozen) stTenantState
  ensure x.trk.isSome stTenantNoRoot
  ensure (decide (epochBits d t < 127)) stTenantEpochSpent
  let q ← quorums m tag c (cmdDigest c) [(deviceDomain, clsTenantAdmin), (t, clsTenantRoot)] d
  let d1 := q.foldl effDur d
  if f8 c 2 = 0 then do
    needRng m
    pure (.journal (afterFreshDraw m 32) (q ++ rerootEffs d1 t (drawn m 32)) stOk
      ([byteOf (epochBits d1 t + 1), 0] ++ zeroBytes 6) false)
  else
    pure (.journal m (q ++ [.tenant t { tenantIn d1 t with rerootArmed := some c.stamp }]) stOk
      ([byteOf x.epoch, 1] ++ zeroBytes 6) false)

/-- The arming of a re-root lapses after 24 h (12 R323). -/
def opArmingLapse (t : Nat) (m : Mod) : Mod :=
  match (tenantOf m t).rerootArmed with
  | none => m
  | some a => if serving m ∧ (t64Add a (86400 * nsPerS)).toNat ≤ (nowT m).toNat then issueOwn m [.lapse t] else m

/-! ### Migration (12 R338 to R342) -/

/-- The offer before its signature, and its ephemeral private value, of 96 drawn bytes (12 Table 12.6). -/
def offerHead (c : Cmd) (t : Nat) (b : Bytes) : Option (Bytes × Bytes) :=
  let eph := p384Secret (sliceOf b 40 56)
  (NistCurve.p384.public eph).map (fun p =>
    (b.take 8 ++ uidBytes ++ natLe 2 t ++ zeroBytes 6 ++ le64 (t64Add c.stamp (3600 * nsPerS)) ++ sliceOf b 8 32 ++ [4] ++
      NistCurve.p384.pointBytes p ++ zeroBytes 7, natBe 48 eph))

/-- MIGRATE_PREPARE: the offer of Table 12.6, signed on slot 0x16; the command keeps the offer and its private value, then
with them the signature. -/
def progMigratePrepare : Prog := fun m tag c => do
  bodyLen c 16
  let t ← namedTen c
  reserved c 2 6
  let d := projDur m
  let x := tenantIn d t
  ensure (x.state == .closed) stTenantInUse
  ensure (decide (epochBits d t < 128)) stTenantEpochSpent
  let q ← quorum m tag c clsTenantAdmin
  match c.outcome with
  | none => do
    needBlk m .pke
    needRng m
    let (head, eph) ← orStop (offerHead c t (drawn m 96)) stRetryLater
    pure (handSign (afterDraw m 96) tag c (sha384 head) [head, eph])
  | some (st, _) => do
    if st ≠ stOk then .error (.stop st) else pure ()
    let head := c.mem.getD 0 []
    let o : Offer :=
      { prepId := getLe64 head 0, expiry := getLe64 head 0x18, nonce := sliceOf head 0x20 32
        ephPriv := beNat (c.mem.getD 1 []), sourceUid := f64 c 8, bytes := head ++ c.mem.getD 2 [] }
    let x := tenantIn (q.foldl effDur d) t
    pure (.journal m (q ++ [.tenant t { x with offer := some o }]) stOk o.bytes false)

/-- An offer's hour is over (12 R340). -/
def opOfferExpiry (t : Nat) (m : Mod) : Mod :=
  match (tenantOf m t).offer with
  | none => m
  | some o =>
    if o.expiry.toNat ≤ (nowT m).toNat then { m with dur := updTenant m.dur t (fun x => { x with offer := none }) } else m

/-- What a snapshot carries: the volatile sections, and for another unit the tenant's durable state (12 R338). -/
def snapOf (m : Mod) (t : Nat) (other : Bool) : SnapImage :=
  let h := tenOf m t
  let str := ((List.range 8).map (fun i => (i, strOf m t i))).filter (fun p => p.2.state == 1)
  { tenant := t, epoch := (tenantOf m t).epoch, qps := h.qp, sess := sessOfTenant m.dur t, streams := str,
    bud := m.dur.bud.filter (fun p => ofTenant t p.1), parked := h.parked, pops := h.fifo.cpl,
    reqids := m.dur.reqids.filter (fun e => e.key == t), rec_ := if other then some (tenantOf m t) else none,
    kst := if other then m.dur.kst.filter (fun p => ofTenant t p.1) else [],
    routes := if other then routesIn m.dur t else Routes.none,
    dom := if other then domainIn m.dur t else Domain.none }

/-- The migration key (12 R339, R340). -/
def migKey (k : Bytes) (t epoch : Nat) (ref : Bytes) : Bytes := kdf k "NKL-MIG" (tenBytes t ++ [byteOf epoch] ++ ref) 256

/-- The header of Table 12.5 up to its signature. -/
def snapHead (kind t epoch : Nat) (target : Bytes) (stamp : W64) (ref : Bytes) (len : Nat) (eph nonce : Bytes) : Bytes :=
  ascii "NKSN" ++ [1, byteOf kind] ++ natLe 2 t ++ [byteOf epoch] ++ zeroBytes 7 ++ uidBytes ++ target ++ le64 stamp ++
    ref ++ natLe 8 len ++ zeroBytes 8 ++ fitRight 97 eph ++ zeroBytes 7 ++ fitRight 32 nonce

/-- A sealed snapshot. -/
def snapSeal (mk head sig iv body : Bytes) : Bytes :=
  let h := head ++ fitRight 96 sig ++ iv ++ zeroBytes 4
  let (ct, tag) := gcmEnc mk iv h body
  h ++ ct ++ tag

/-- The kind a MIGRATE_SAVE names, and its offer and certificate. -/
def saveOffer (c : Cmd) : Bytes := sliceOf c.body 32 264
def saveCert (c : Cmd) : Bytes := c.body.drop 296

/-- Whether the offer and the target's certificate hold (12 R340). -/
def offerOk (c : Cmd) (t : Nat) : Bool :=
  let o := saveOffer c
  let key := Config.certKey (saveCert c)
  key.length == 96 && Config.certUid (saveCert c) == getLe64 o 8 && (getLe16 o 0x10).toNat == t &&
    p384Verify key (sha384 (o.take 0xA8)) (o.drop 0xA8)

/-- A snapshot for this unit: the bytes and the REF (12 R339). -/
def saveOwn (m : Mod) (c : Cmd) (t : Nat) (body : Bytes) : Option (Bytes × Bytes) :=
  let b := drawn m 20
  let n := (tenantOf m t).epoch
  m.khs.dsk.map (fun k =>
    (snapSeal (migKey k t n (b.take 8)) (snapHead 0 t n uidBytes c.stamp (b.take 8) body.length [] []) [] (b.drop 8) body,
      b.take 8))

/-- The body of a snapshot. With header and tag it is at most what one list can name: 4,096 entries of 1 MiB (12 R338,
08 R225; log 40). -/
def snapBytes (img : SnapImage) : Bytes := (Config.snapBody img).take (2 ^ 32 - 328)

/-- Bytes of a snapshot. -/
def snapLen (m : Mod) (t : Nat) (other : Bool) : Nat := 328 + (snapBytes (snapOf m t other)).length

/-- The header of a snapshot for another unit up to its signature: of the own ephemeral's public point and a nonce
(12 R340, Table 12.5). -/
def awayHead (m : Mod) (c : Cmd) (t : Nat) (p nonce : Bytes) : Bytes :=
  let o := saveOffer c
  snapHead 1 t (tenantOf m t).epoch (sliceOf o 8 8) c.stamp (o.take 8) (snapBytes (snapOf m t true)).length ([4] ++ p) nonce

/-- A snapshot for another unit: of Z, the nonce, the header and its signature, which the command kept (12 R340). -/
def saveAway (m : Mod) (c : Cmd) (t : Nat) (body : Bytes) : Bytes :=
  let o := saveOffer c
  let k := fun (i : Nat) => c.mem.getD i []
  let mk := migKey (hmac .sha256 (sliceOf o 0x20 32 ++ k 1) (k 0)) t (tenantOf m t).epoch (o.take 8)
  snapSeal mk (k 2) (k 3) (drawn m 12) body

/-- The checks of MIGRATE_SAVE: form, state, offer, quorum and room. -/
def saveChecks (m : Mod) (tag : Nat) (c : Cmd) : Except Act (Nat × List Effect) := do
  bodyMin c 32
  let t ← namedTen c
  let kind := f8 c 2
  range (decide (kind ≤ 1))
  reserved c 3 5
  reserved c 26 6
  bodyLen c (32 + f16 c 24 + (if kind = 1 then 264 else 0))
  range (kind == 1 || f16 c 24 == 0)
  range (kind == 0 || t64Ok (getLe64 (saveOffer c) 0x18))
  let x := tenantIn (projDur m) t
  ensure (x.state == .frozen && tagsOf m t == 0 && !x.migratedOut) stTenantState
  if kind = 1 then ensure (offerOk c t) stVerifyFail else pure ()
  let q ← if kind = 1 then quorum m tag c clsTenantAdmin else pure []
  needRng m
  let n := snapLen m t (kind == 1)
  if (f64 c 16).toNat < n then .error (.finish m stBadLength (natLe 8 n)) else pure (t, q)

/-- A command waits for its scatter-gather lists (12 R338, 04 R125). -/
def waitLists (m : Mod) (tag : Nat) (c : Cmd) (ins outs : W64) : Act :=
  .hold (emit (updCmd m tag (fun c => { c with phase := .job, readAt := m.clk })) (.sglRead (portFor m c) ins outs 0))

/-- MIGRATE_SAVE: checks; for another unit Z on slot 0x17 and the header's signature on slot 0x16; then the list it writes
through. The command keeps Z and its public point, then Z, the nonce and the header, and with them the signature. -/
def progMigrateSave : Prog := fun m tag c => do
  let (t, _) ← saveChecks m tag c
  let lists := waitLists m tag c 0 (f64 c 8)
  if f8 c 2 = 0 then pure lists
  else match c.outcome, c.mem with
    | none, _ => do
      needBlk m .pke
      let q ← orStop (p384Of (sliceOf (saveOffer c) 0x40 97)) stVerifyFail
      pure (handInner m tag c 0x17 [(2, q)] [])
    | some (st, _), [z, p] => do
      if st ≠ stOk then .error (.stop st) else pure ()
      let nonce := drawn m 32
      let head := awayHead m c t p nonce
      pure (handSign (afterDraw m 32) tag c (sha384 head) [z, nonce, head])
    | some (st, _), _ => if st ≠ stOk then .error (.stop st) else pure lists

/-- The list of a MIGRATE_SAVE has come: the snapshot is made, written and journaled. -/
def finishSave (m : Mod) (tag : Nat) (c : Cmd) (outs : List SglEntry) : Except Act Act := do
  let (t, q) ← saveChecks m tag c
  ensure (sglOk (f64 c 8) outs (f64 c 16).toNat) stBadLength
  let other := f8 c 2 == 1
  let img := snapOf m t other
  let body := snapBytes img
  let p := portFor m c
  if other then do
    let s := saveAway m c t body
    let x := tenantIn (q.foldl effDur (projDur m)) t
    pure (.journal (writeSgl p (afterDraw m 12) outs s) (q ++ [.tenant t { x with migratedOut := true }]) stOk
      (natLe 8 s.length) false)
  else do
    let (s, ref) ← orStop (saveOwn m c t body) stRetryLater
    pure (.journal (writeSgl p (afterDraw m 20) outs s) [.saved t (getLe64 ref 0) img] stOk (natLe 8 s.length) false)

/-- The checks of MIGRATE_RESTORE on its body. -/
def restoreChecks (c : Cmd) : Except Act Nat := do
  bodyMin c 32
  let t ← namedTen c
  reserved c 2 6
  reserved c 26 6
  bodyLen c (32 + f16 c 24)
  ensure (decide (1 ≤ (f64 c 16).toNat ∧ (f64 c 16).toNat ≤ 2 ^ 32)) stBadLength
  pure t

/-- A snapshot of this unit restored (12 R339, R341). -/
def restoreOwn (m : Mod) (t : Nat) (s : Bytes) : Except Act (List Effect) := do
  let d := projDur m
  let x := tenantIn d t
  ensure (x.state == .frozen && !x.migratedOut) stTenantState
  ensure (x.snapRef == some (getLe64 s 0x28)) stReplay
  let img ← orStop (tblFind d.snaps t) stReplay
  let k ← orStop m.khs.dsk stAuthTagFail
  let mk := migKey k t (getNat8 s 8) (sliceOf s 0x28 8)
  let ct := sliceOf s 312 (s.length - 328)
  let _ ← orStop (gcmDec mk (sliceOf s 0x128 12) (s.take 312) ct (s.drop (s.length - 16))) stAuthTagFail
  pure [.restored img, .tenant t { x with state := .restoring, snapRef := none }]

/-- A snapshot of another unit restored (12 R340, R341): Z comes of the offer's ephemeral on slot 0x17, after the snapshot
in what the command keeps. -/
def restoreOther (m : Mod) (tag : Nat) (c : Cmd) (t : Nat) (s : Bytes) : Except Act Act := do
  let d := projDur m
  let x := tenantIn d t
  ensure (x.state == .closed) stTenantState
  let cert := sliceOf c.body 32 (f16 c 24)
  let key := Config.certKey cert
  ensure (key.length == 96 && Config.certUid cert == getLe64 s 0x10 &&
    p384Verify key (sha384 (s.take 0xC8)) (sliceOf s 0xC8 96)) stVerifyFail
  let o ← orStop x.offer stOutsideWindow
  ensure (o.prepId == getLe64 s 0x28 && o.sourceUid == getLe64 s 0x10 && decide (c.stamp.toNat < o.expiry.toNat))
    stOutsideWindow
  let n := getNat8 s 8
  ensure (decide (epochBits d t < n ∧ n ≤ 128)) stBlobRollback
  let q ← quorum m tag c clsTenantAdmin
  let pt ← orStop (p384Of (sliceOf s 0x40 97)) stVerifyFail
  match c.outcome with
  | none => do
    needBlk m .pke
    needRng m
    pure (handInner m tag c 0x17 [(1, natBe 48 o.ephPriv), (2, pt)] [s])
  | some (st, _) => do
    if st ≠ stOk then .error (.stop st) else pure ()
    let z := c.mem.getD 1 []
    let mk := migKey (hmac .sha256 (o.nonce ++ sliceOf s 0xA8 32) z) t n (sliceOf s 0x28 8)
    let ct := sliceOf s 312 (s.length - 328)
    let body ← orStop (gcmDec mk (sliceOf s 0x128 12) (s.take 312) ct (s.drop (s.length - 16))) stAuthTagFail
    let img ← orStop (Config.snapDecode body) stBadFormat
    let r := (img.rec_.getD Tenant.none)
    let r := { r with state := .restoring, epoch := n, offer := none, migratedOut := false, snapRef := none }
    routeFits m d t img.routes (allNodes img.routes)
    pure (.journal m (q ++ [.restored { img with tenant := t, rec_ := some r }, .epoch t n]) stOk [] false)

/-- MIGRATE_RESTORE: the list it reads through, then the snapshot (12 R341). -/
def progMigrateRestore : Prog := fun m tag c => do
  let t ← restoreChecks c
  if c.stage = 0 then pure (waitLists m tag c (f64 c 8) 0)
  else do
    let s := c.mem.getD 0 []
    let kind := getNat8 s 5
    range (s.take 4 == ascii "NKSN" && getNat8 s 4 == 1 && decide (kind ≤ 1) && decide (328 ≤ s.length) &&
      t64Ok (getLe64 s 0x20))
    range ((getLe16 s 6).toNat == t && (getLe64 s 0x30).toNat == s.length - 328)
    if kind = 0 then do
      let e ← restoreOwn m t s
      pure (.journal m e stOk [] false)
    else restoreOther m tag c t s

/-- JOB_END of a migration command: a list that breaks 08 R225, or whose read fails, ends it. -/
def migrateEnd (m : Mod) (tag : Nat) (c : Cmd) (io : JobIo) : Mod :=
  match io with
  | .twinReport _ => m
  | .readFailed _ | .linkLost _ => endCmd m tag stBadPointer []
  | .data ins outs _ b _ _ =>
    if c.opcode = 0x0D16 then actNow m tag (finishSave m tag c (sglEntries outs))
    else
      let n := (f64 c 16).toNat
      if sglOk (f64 c 8) (sglEntries ins) n then
        runCmd progMigrateRestore (updCmd m tag (fun c => { c with stage := 1, mem := [fitRight n b] })) tag
      else endCmd m tag stBadLength []

/-! ### Request IDs -/

/-- A request-ID entry has been held its 10 s (01 R29). -/
def opReqIdExpiry (key : Nat) (id : W64) (m : Mod) : Mod :=
  let old := fun (e : ReqIdEntry) => e.key == key && e.reqId == id && !entryLive e (nowT m)
  { m with dur := { m.dur with reqids := m.dur.reqids.filter (fun e => !old e) } }

end Sys2Proof.Machine
end

