-- ==== Sys2Proof/Machine/Twin.lean ====
section
/-! DEFINITION. The twin: links, replication, heartbeats, promotion, resynchronisation, handover and pairing
(chapter 14). -/

namespace Sys2Proof.Machine

/-- The higher of two sequence numbers. -/
def laterOf (a b : W64) : W64 := if a.toNat < b.toNat then b else a

/-! ### Paths and links (14 R363, R364, R369) -/

/-- The instant a path last carried a heartbeat; one never heard counts from the start. -/
def heardAt (m : Mod) (path : Nat) : Nat := tblGet m.hlt.began m.tlk.heard path

/-- Whether all three paths are silent. -/
def allSilent (m : Mod) : Bool := pathSilent m 0 && pathSilent m 1 && pathSilent m 2

/-- The last heartbeat on any path, and the earliest of the three last ones. -/
def lastHeard (m : Mod) : Nat := max (max (heardAt m 0) (heardAt m 1)) (heardAt m 2)
def firstHeard (m : Mod) : Nat := min (min (heardAt m 0) (heardAt m 1)) (heardAt m 2)

/-- Whether the twin has been silent on all three paths for a time in ns. -/
def silentFor (m : Mod) (ns : Nat) : Bool := allSilent m && decide (lastHeard m + ns ≤ m.clk)

/-! ### What a Leeward does with the records it acknowledged (14 R365, R366, R488) -/

/-- A domain's record as applied beside the challenges local to this unit (14 R361). -/
def keepLocal (d : Durable) (k : Nat) (r : Domain) : Domain :=
  { r with chal := (domainIn d k).chal.foldl (fun a p => if p.2.localOnly then tblSet a p.1 p.2 else a) r.chal }

/-- A tenant closed at a new epoch of this unit (12 R324, 14 R382). -/
def closeEffs (d : Durable) (t : Nat) : List Effect :=
  let n := epochBits d t + 1
  [.tenant t { Tenant.none with epoch := n, offer := (tenantIn d t).offer }, .epoch t n, .closeTenant t]

/-- Every tenant that is not CLOSED closed. -/
def closeAll (d : Durable) : List Effect :=
  ((d.ten.filter (fun p => p.2.state != .closed)).map (fun p => closeEffs d p.1)).flatten

/-- The budgets of a snapshot that are ahead of those held (09 R254). -/
def newerCounts (d : Durable) (b : Tbl Budget) : List Effect :=
  (b.filter (fun p => (tblFind d.bud p.1).any (fun x =>
    decide (x.current < p.2.current ∨ (x.current = p.2.current ∧ x.count < p.2.count))))).map (fun p =>
      .budget (BitVec.ofNat 64 p.1) (some p.2))

/-- An effect as a Leeward applies it. What concerns the issuing unit alone (a frame on its port, its own time, its own
log) stays with that unit; an unpairing empties the Leeward. -/
def leewardEffs (d : Durable) : Effect → List Effect
  | .portResult _ _ | .timeSet _ _ | .evrClear | .promote _ => []
  | .domain k r => [.domain k (keepLocal d k r)]
  | .snapshot b => newerCounts d b
  | .unpaired => closeAll d ++ [.unpaired]
  | e => [e]

/-- Whether a command of this unit waits for the unpairing (14 R382). -/
def waitsUnpair (c : Cmd) : Bool := c.opcode == 0x1002 && c.phase == .twin

/-- A record applied on the Leeward, with the commit stamp it holds for it. -/
def applyRecord (m : Mod) (x : JRecord × W64) : Mod :=
  let (r, s) := x
  let m1 := (r.effects.map (stampedEff s)).foldl (fun m e => (leewardEffs m.dur e).foldl (effMod s) m) m
  let m2 := noteRing (noteReq m1 r s) r s
  let m3 := { m2 with jnl := { m2.jnl with jsnCommit := r.jsn }, tlk := { m2.tlk with jsnApplied := r.jsn } }
  if m.tlk.paired && !m3.tlk.paired then
    (m3.cmq.cmds.filter (fun p => waitsUnpair p.2)).foldl (fun m p => endCmd m p.1 stOk []) m3
  else m3

/-- Every record acknowledged and not yet applied, at the instants of their acknowledgement (14 R488). -/
def applyReceived (m : Mod) : Mod :=
  m.jnl.received.foldl applyRecord { m with jnl := { m.jnl with received := [] } }

/-- Records whose commit stamps have come, applied in order: a run from the first. -/
def applyNoticed (stamps : List (W64 × W64)) : Nat → Mod → Mod
  | 0, m => m
  | f + 1, m =>
    match m.jnl.received with
    | [] => m
    | x :: rest =>
      match stamps.find? (fun p => p.1 = x.1.jsn) with
      | none => m
      | some p => applyNoticed stamps f (applyRecord { m with jnl := { m.jnl with received := rest } } (x.1, p.2))

/-- The Leeward is STALE: it acknowledges nothing and never promotes itself (14 R367). -/
def setStale (m : Mod) : Mod := setSync { m with tlk := { m.tlk with stale := true } } false

/-- Whether this unit takes records: a Leeward whose link carries them, not promoting. -/
def takesRecords (m : Mod) (l : Nat) : Bool :=
  linkPasses m l && m.tlk.paired && m.tlk.role == .leeward && m.tlk.promoting.isNone

/-- The image slot that does not run. -/
def otherSlot (m : Mod) : ImgSlot := if m.txp.slot = .a then m.dur.imgB else m.dur.imgA

/-- The image slot that does not run, changed. -/
def setOtherSlot (m : Mod) (x : ImgSlot) : Mod :=
  { m with dur := if m.txp.slot = .a then { m.dur with imgB := x } else { m.dur with imgA := x } }

/-- Whether the staged image is the one a record names (04 R125). -/
def imageMatches (m : Mod) (r : JRecord) : Bool :=
  r.effects.all (fun e => match e with | .image dg _ _ _ => (otherSlot m).digest == dg | _ => true)

/-- A count or a mark, which travels outside the journal's numbering: applied at once and acknowledged (09 R254,
12 R334; log 29). -/
def takeMark (m : Mod) (l : Nat) (r : JRecord) : Mod :=
  let m1 := { m with dur := r.effects.foldl effDur m.dur }
  let ack := fun (m : Mod) (e : Effect) =>
    match e with
    | .budget _ _ => sendOn l m (.ack 0)
    | .session k s => sendOn l m (.markAck (k / 65536) (k % 65536) s.mark)
    | _ => m
  if m.tlk.stale then m1 else r.effects.foldl ack m1

/-- JOURNAL_RECORD_RX: the first copy of the next record is held and acknowledged; later copies are ignored; a gap makes
the Leeward STALE. While it resynchronises it holds what it is sent and acknowledges nothing. -/
def opRecordRx (l : Nat) (r : JRecord) (m : Mod) : Mod :=
  if !takesRecords m l then m
  else
    if r.jsn = 0 then takeMark m l r
    else if r.jsn.toNat ≤ m.jnl.jsnLast.toNat then m
    else if r.jsn ≠ m.jnl.jsnLast + 1 then (if m.tlk.resync then m else setStale m)
    else if m.tlk.stale && !m.tlk.resync then m
    else if !imageMatches m r then m
    else
      let m1 := { m with jnl := { m.jnl with
        received := m.jnl.received ++ [(r, nowT m)], jsnLast := r.jsn, bufUsed := bufLevel m + recSize r.jsn,
        bufAt := m.clk } }
      if m1.tlk.stale then m1
      else sendOn l { m1 with tlk := { m1.tlk with jsnAcked := r.jsn } } (.ack r.jsn)

/-- COMMIT_NOTICE_RX (14 R488). -/
def opCommitNotice (l : Nat) (stamps : List (W64 × W64)) (m : Mod) : Mod :=
  if takesRecords m l && (!m.tlk.stale || m.tlk.resync) then
    applyNoticed stamps m.jnl.received.length m
  else m

/-- DESYNC_NOTICE_RX (14 R367). -/
def opDesyncRx (l : Nat) (m : Mod) : Mod :=
  if takesRecords m l && !m.tlk.resync then setStale m else m

/-- IMAGE_STAGE_RX: the image goes to the slot not in use; the verdict is taken twice, and the outcome reported
(04 R125 step 4, 15 R403). At a resynchronisation it is the Windward's PENDING image, accepted there. -/
def opImageStage (l : Nat) (img : Bytes) (agree : Bool) (m : Mod) : Mod :=
  if !takesRecords m l then m
  else
    let m1 := { setOtherSlot m ImgSlot.none with txp := { m.txp with pending := false, otherValid := false } }
    if !agree then sendOn l (disagree m1 .txp) (.imageReport false)
    else if !Config.imageVerdict img ∨ (Config.imageSvn img).toNat < m1.txp.svnFloor.toNat ∨
        !Config.imageReads img m1.tlk.peerWrites then
      sendOn l m1 (.imageReport false)
    else
      let s : ImgSlot :=
        { usable := m1.tlk.resync, version := Config.imageVersion img, svn := Config.imageSvn img, digest := sha384 img,
          image := img }
      let m2 := if m1.tlk.resync then { m1 with txp := { m1.txp with pending := true, otherValid := true } } else m1
      sendOn l (setOtherSlot m2 s) (.imageReport true)

/-! ### Acknowledgements (14 R365, R367) -/

/-- The commands that wait for the acknowledgement of their count, each with its count's number and instant. -/
def countWaits (m : Mod) : List (Nat × Nat × Nat) :=
  m.cmq.cmds.filterMap (fun p => match p.2.phase with | .count n s => some (p.1, n, s) | _ => none)

/-- A command whose count stands completes. -/
def endCount (m : Mod) (tag : Nat) : Mod :=
  match (cmdOf m tag).bind (fun c => c.outcome) with
  | some (st, res) => endCmd m tag st res
  | none => m

/-- Every command that waits for a count completes: the pair is unsynchronised (09 R254). -/
def endCounts (m : Mod) : Mod := (countWaits m).foldl (fun m p => endCount m p.1) m

/-- The oldest count sent and not yet acknowledged. -/
def oldestCount (m : Mod) : Option (Nat × Nat × Nat) :=
  (countWaits m).foldl (fun (b : Option (Nat × Nat × Nat)) p =>
    match b with
    | none => some p
    | some x => if p.2.1 < x.2.1 then some p else some x) none

/-- A count acknowledged: counts go and are acknowledged in order, so it is the oldest (09 R254; log 29). -/
def ackCount (m : Mod) : Mod := (oldestCount m).elim m (fun p => endCount m p.1)

/-- The wait of the record an acknowledgement names, in ns. -/
def ackWait (m : Mod) (jsn : W64) : Option Nat :=
  (m.jnl.issued.find? (fun i => i.rcd.jsn = jsn)).map (fun i => m.clk - i.issued)

/-- JOURNAL_ACK_RX: the first acknowledgement counts, and covers every record before it. -/
def opAckRx (l : Nat) (jsn : W64) (m : Mod) : Mod :=
  if !(linkPasses m l && m.tlk.paired && m.tlk.role == .windward && m.tlk.sync) then m
  else
    if jsn = 0 then ackCount m
    else if jsn.toNat ≤ m.tlk.jsnAcked.toNat ∨ m.jnl.jsnLast.toNat < jsn.toNat then m
    else
      let w := (ackWait m jsn).getD 0
      let m2 := { m with tlk := { m.tlk with jsnAcked := jsn, ackMax := max m.tlk.ackMax (min 65535 w) } }
      commitThrough (evrSample m2 0x0012 none w) jsn

/-- Unpairings that wait for the twin's word fail when it does not come (14 R382). -/
def failUnpair (m : Mod) : Mod :=
  let un := fun (i : Issued) => i.rcd.effects.any (fun e => e == .unpaired)
  let tags := (m.jnl.issued.filter un).filterMap (fun i => i.rcd.tag)
  tags.foldl (fun m tag => endCmd m tag stPairRefused [])
    { m with jnl := { m.jnl with issued := m.jnl.issued.filter (fun i => !un i) } }

/-- The pair is unsynchronised: DESYNC goes out on every live link, and records commit on this unit's buffer alone
(14 R367, 01 R28). -/
def desync (m : Mod) (jsn : W64) : Mod :=
  let m1 := raiseErr (setSync (failUnpair m) false) .tlk 1 1 jsn
  let m2 := sendTwin m1 .desync
  endCounts (commitThrough m2 m2.jnl.jsnLast)

/-- JOURNAL_ACK_TIMEOUT: 50 µs without an acknowledgement. -/
def opAckTimeout (jsn : W64) (m : Mod) : Mod :=
  if !(m.tlk.paired && m.tlk.role == .windward && m.tlk.sync) then m
  else if jsn = 0 then
    (if (oldestCount m).any (fun p => decide (p.2.2 + 50000 ≤ m.clk)) then desync m 0 else m)
  else match ackWait m jsn with
    | some w => if m.tlk.jsnAcked.toNat < jsn.toNat ∧ 50000 ≤ w then desync m jsn else m
    | none => m

/-- JOURNAL_BUFFER_SPACE: records that wait enter the buffer (19 R476). -/
def opBufferSpace (m : Mod) : Mod := drainWaiting m.jnl.waiting.length m

/-! ### Taking over (14 Table 14.3, 12 R331, R334) -/

/-- Every session as a unit holds it that did not serve it before: H = M + 4,096, all below accepted (12 R334). -/
def takeoverSess (m : Mod) : Mod :=
  { m with dur := { m.dur with
    sess := tblMap m.dur.sess (fun _ s => { s with h := s.mark + 4096, bitmap := 2 ^ 1024 - 1, acked := s.mark }) } }

/-- Half-open sessions start their second again at admission (12 R331). -/
def restartHalfOpen (m : Mod) : Mod :=
  { m with dur := { m.dur with
    sess := tblMap m.dur.sess (fun _ s => if s.halfOpen then { s with limitFrom := nowT m } else s) } }

/-- SVC addresses claimed three times on their port and VLAN (14 Table 14.3), to every station there (log 58). -/
def claimAddrs (m : Mod) : Mod :=
  let own := (tblVals m.nif.addr).filter (fun e => neValid e && neSvc e && netPortSends m (nePort e))
  let one := own.map (fun e => 
    Output.addressClaim (netHdr m (nePort e) (neVlan e) (neV6 e) 0xFFFFFFFFFFFF) (neV6 e) (e.addr.take (famLen (neV6 e))))
  emitAll m (one ++ one ++ one)

/-- Challenges local to this unit are discarded as it becomes Windward (14 R361). -/
def dropLocalChals (m : Mod) : Mod :=
  { m with dur := { m.dur with
    dom := tblMap m.dur.dom (fun _ d => { d with chal := d.chal.filter (fun p => !p.2.localOnly) }) } }

/-- A promotion begins at a last heartbeat: acknowledging stops, every acknowledged record is applied, sessions and NCT
state are taken over and the addresses claimed; the hold-off runs (14 R371, Table 14.3). -/
def beginPromotion (m : Mod) (last : Nat) : Mod :=
  let m1 := { m with tlk := { m.tlk with
    held := some (twinStat m, pairDegraded m), promoting := some last, roleEpoch := m.tlk.roleEpoch + 1, resync := false } }
  claimAddrs (restartNct (takeoverSess (applyReceived m1)))

/-- PROMOTION_ADMISSION: at 11 ms the unit is Windward, unsynchronised (14 R371). -/
def opPromotionAdmission (m : Mod) : Mod :=
  match m.tlk.promoting with
  | none => m
  | some last =>
    if m.clk < last + 11000000 then m
    else if !serveOk m then { m with tlk := { m.tlk with promoting := none, held := none, countsLost := false } }
    else
      let m1 := { m with tlk := { m.tlk with
        promoting := none, held := none, stale := false, switchCnt := m.tlk.switchCnt + 1, alone := [] } }
      restartHalfOpen (dropLocalChals (endAlign (setRole (setSync m1 false) .windward)))

/-! ### Losing and hearing the twin (14 R367, R369, R370, R374, R377) -/

/-- A handover or revert instant given up; NOW is the condition it waits for broken (14 R378, R379). -/
def disarm (m : Mod) : Mod :=
  dropTimers { m with tlk := { m.tlk with handover := none, byRevert := false, handing := false, revertArmed := false } }
    (fun k => match k with | .system n => n == 0 | _ => false)

/-- A resynchronisation cut off: it starts again once a link returns (14 R377). -/
def stopResync (m : Mod) : Mod :=
  if m.tlk.resync then { m with tlk := { m.tlk with resync := false } } else m

/-- The wire answers while both links are silent, later than a common failure would allow (14 R367, R370; log 43). -/
def wireStale (m : Mod) : Mod :=
  if m.tlk.role == .leeward && m.tlk.paired && pathSilent m 0 && pathSilent m 1 && !pathSilent m 2 &&
      decide (min (heardAt m 0) (heardAt m 1) + 500000 < heardAt m 2) && !m.tlk.stale then setStale m
  else m

/-- All three paths of a synchronised Leeward fell silent within 500 µs: it promotes itself (14 R370, R371). -/
def judgeLoss (m : Mod) : Mod :=
  if m.tlk.role == .leeward && m.tlk.paired && !m.tlk.stale && m.tlk.sync && m.tlk.promoting.isNone && allSilent m &&
      serveOk m && decide (lastHeard m ≤ firstHeard m + 500000) then
    issueOwn (beginPromotion m (lastHeard m)) [.promote false]
  else m

/-- Commands that wait for the twin's word on an unpairing fail when it falls silent. -/
def failWaitingUnpair (m : Mod) : Mod :=
  if allSilent m then
    (m.cmq.cmds.filter (fun p => waitsUnpair p.2)).foldl (fun m p => endCmd m p.1 stPairRefused []) m
  else m

/-- What follows as a path falls silent (14 R369, R370, R377 to R379). -/
def fallSilent (path : Nat) (m : Mod) : Mod :=
  let hold := (twinStat m, pairDegraded m)
  let m1 := raiseInt { m with tlk := { m.tlk with silent := tblSet m.tlk.silent path true } } .tlk 4
  let m2 := if pathSilent m1 0 && pathSilent m1 1 then stopResync m1 else m1
  let m3 := if m2.tlk.byRevert || (allSilent m2 && m2.tlk.handover.isSome && !m2.tlk.handing) then disarm m2 else m2
  let m4 := judgeLoss (wireStale m3)
  failWaitingUnpair (if m4.tlk.promoting.isSome && m.tlk.promoting.isNone then
    { m4 with tlk := { m4.tlk with held := some hold } } else m4)

/-- PATH_SILENT: a path has carried nothing for 1 ms; a silent link retrains and repeats its handshake. -/
def opPathSilent (path : Nat) (m : Mod) : Mod :=
  if 2 < path ∨ pathSilent m path ∨ m.clk < heardAt m path + 1000000 then m
  else
    let down := fun (m : Mod) => updLink m path (fun x => { x with up := false, keys := none, lanes := 0 })
    fallSilent path (if path < 2 then down m else m)

/-- A link that counts as silent (18 R458). -/
def linkSilent (m : Mod) (l : Nat) : Mod := if pathSilent m l then m else fallSilent l m

/-- Records this unit committed alone, which its twin never acknowledged (14 R374). -/
def aloneUnseen (m : Mod) : List (W64 × W64) :=
  m.tlk.alone.filter (fun p => decide (m.tlk.jsnAcked.toNat < p.1.toNat))

/-- The role given up to a Windward of a higher role epoch: the records committed alone are kept for reading
(14 R374). -/
def diverge (m : Mod) : Mod :=
  let l := aloneUnseen m
  let log := l.map (fun p => BitVec.ofNat 64 (p.1.toNat % 2 ^ 32 * 2 ^ 32 + p.2.toNat % 2 ^ 32))
  let m1 := disarm (setRole (setSync m false) .held)
  raiseInt { m1 with tlk := { m1.tlk with divLog := log, divHeld := l.length } } .tlk 8

/-- The Windward streams to a Leeward: the records from its last applied JSN where the ring holds them, otherwise an
image of all durable state; the blobs above the Leeward's cursors, or all of them; a PENDING image first (14 R377,
04 R125). -/
def streamTo (m : Mod) (fromJsn : W64) : Mod :=
  let full := decide (fromJsn.toNat + 1 < m.jnl.ringOldest.toNat)
  let recs := m.jnl.ring.filter (fun p => decide (fromJsn.toNat < p.1.jsn.toNat))
  let all := m.tlk.allBlobs
  let img := if m.txp.pending then [TwinMsg.image (otherSlot m).image] else []
  let state := if full then [TwinMsg.resyncImage m.dur]
    else (recs.map (fun p => [TwinMsg.record p.1, .notice [(p.1.jsn, p.2)]])).flatten
  let blobs := (m.dur.ten.filter (fun p => p.2.state != .closed)).map (fun p =>
    TwinMsg.blobs p.1 (if all then 0 else tblGet 0 m.tlk.peerCursors p.1) p.2.cursor)
  let m1 := { m with tlk := { m.tlk with resync := true } }
  sendAll m1 (img ++ [.resync fromJsn full] ++ state ++ blobs)

/-! ### The state of a Leeward that joins (14 R374, R377) -/

/-- Timers of the durable state, as a unit that takes it over runs them (04 R112). -/
def rebuildTimers (m : Mod) : Mod :=
  let m1 := { m with sch := { m.sch with
    timers := m.sch.timers.filter (fun t => t.kind.part.1 ≤ 2), overflow := [] } }
  let m2 := m1.dur.sched.foldl (fun m p => insTimer m (.key p.1) p.2) m1
  m2.dur.bud.foldl (fun m p => insTimer m (.budget p.1) (windowEnd p.2)) m2

/-- An image of the Windward's durable state taken over; what a unit has of its own stays: its OTP counters (never
lower), its image slots, its snapshots under its own DSK. -/
def takeImage (m : Mod) (d : Durable) (jsn : W64) : Mod :=
  let otp := d.ten.foldl (fun a p => tblSet a p.1 (otpUpTo a p.1 p.2.epoch)) m.dur.otp
  let old := m.dur.tcfg
  let stuck := d.ten.any (fun p => otpStuck m.dur.otp p.1 p.2.epoch)
  let m1 := { m with
    khs := { m.khs with progFail := m.khs.progFail || stuck }
    dur := { d with otp := otp, imgA := m.dur.imgA, imgB := m.dur.imgB, snaps := m.dur.snaps }
    jnl := { m.jnl with
      jsnLast := laterOf jsn m.jnl.jsnLast, jsnCommit := jsn, ring := [], ringOldest := jsn + 1
      received := m.jnl.received.filter (fun p => decide (jsn.toNat < p.1.jsn.toNat)) }
    tlk := { m.tlk with jsnApplied := jsn } }
  noteSealed (configured old (rebuildTimers (dropLines (loseStreams (notePool m (compacted m1))))))

/-- A resynchronisation of this unit as Leeward begins (14 R377). What it committed alone is discarded with all it holds
of the pair, which the Windward streams from the first record (14 R374; log 43). -/
def joinPair (m : Mod) : Mod :=
  let m1 := if (aloneUnseen m).isEmpty && m.tlk.divHeld == 0 then m else sharesNothing (takeImage m Durable.reset 0)
  let m2 := { m1 with tlk := { m1.tlk with resync := true, stale := true, resyncBytes := 0 } }
  beginAlign (setRole (setSync m2 false) .leeward)

/-! ### Heartbeats (14 R369) -/

/-- What a heartbeat on a link says of the twin (14 R369, R374, R375, R377). -/
def hearTwin (m : Mod) (h : Heartbeat) : Mod :=
  let m1 := { m with tlk := { m.tlk with peerHealth := h.health } }
  if !m1.devReady || isErased m1 then m1
  else if m1.tlk.role == .windward && h.role == 1 then
    if m1.tlk.roleEpoch.toNat < h.epoch.toNat ∨ (m1.tlk.roleEpoch = h.epoch ∧ !m1.tlk.home) then diverge m1 else m1
  else if m1.tlk.role == .windward && h.role == 2 && !m1.tlk.sync && !m1.tlk.resync then streamTo m1 h.jsn
  else if h.role == 1 && m1.tlk.promoting.isNone && !m1.tlk.orphaned && m1.tlk.divHeld == 0 &&
      ((m1.tlk.role == .held) || (m1.tlk.role == .leeward && m1.tlk.stale && !m1.tlk.resync)) then
    alignTo (joinPair { m1 with tlk := { m1.tlk with roleEpoch := h.epoch } }) h.now
  else if m1.tlk.role == .leeward && h.role == 1 then
    alignTo { m1 with tlk := { m1.tlk with roleEpoch := laterOf m1.tlk.roleEpoch h.epoch } } h.now
  else m1

/-- HEARTBEAT_RX: a heartbeat on a link, or an edge on the wire, refreshes its path. -/
def opHeartbeatRx (path : Nat) (h : Heartbeat) (m : Mod) : Mod :=
  if 2 < path ∨ !m.powered ∨ (path < 2 ∧ !(linkPasses m path && m.tlk.paired)) then m
  else
    let was := pathSilent m path
    let m1 := { m with tlk := { m.tlk with
      heard := tblSet m.tlk.heard path m.clk, silent := tblSet m.tlk.silent path false } }
    let m2 := if was then raiseInt m1 .tlk 4 else m1
    if path = 2 then wireStale m2 else hearTwin m2 h

/-- The last JSN a unit reports: acknowledged on a Leeward, committed otherwise. -/
def jsnReport (m : Mod) : W64 := if m.tlk.role = .leeward then m.tlk.jsnApplied else m.jnl.jsnCommit

/-- HEARTBEAT_SEND: on each link that passes frames, and an edge on the wire (14 R369). -/
def opHeartbeatSend (m : Mod) : Mod :=
  if !serveOk m then m
  else
    let h : Heartbeat :=
      { role := m.tlk.role.code, epoch := m.tlk.roleEpoch, jsn := jsnReport m, health := topHealth m, now := nowT m }
    let m1 := if m.tlk.paired then sendTwin m (.heartbeat h) else m
    emit { m1 with tlk := { m1.tlk with wireLevel := !m.tlk.wireLevel } } (.pin "TWIN_HB_OUT" (!m.tlk.wireLevel))

/-- HEALTH_REPORT_RX (17 R442). -/
def opHealthRx (l : Nat) (rep : Bytes) (m : Mod) : Mod :=
  if linkPasses m l && m.tlk.paired then { m with tlk := { m.tlk with health := fitRight 256 rep } }
  else m

/-! ### The end of a resynchronisation (14 R377) -/

/-- RESYNC_COMPLETE on the Leeward: image, blobs and records applied; the pair is synchronised. -/
def endResync (m : Mod) (d : ResyncData) : Mod :=
  let m1 := match d.image with
    | some x => takeImage m x d.jsn
    | none => m
  let m2 := d.blobs.foldl (fun m b => writeBlob m b.1 b.2.1 b.2.2) m1
  let m3 := applyReceived m2
  let m4 := { m3 with tlk := { m3.tlk with
    stale := false, resync := false, jsnAcked := m3.tlk.jsnApplied, resyncBytes := BitVec.ofNat 64 d.bytes, divLog := [],
    divHeld := 0, alone := [], countsLost := false } }
  let m5 := setSync m4 true
  if m5.tlk.home && m5.dur.revertEn then m5 else endAlign m5

/-- RESYNC_COMPLETE. -/
def opResyncComplete (d : Option ResyncData) (m : Mod) : Mod :=
  if !(m.tlk.paired && m.tlk.resync && (linkPasses m 0 || linkPasses m 1)) then m
  else if m.tlk.role = .leeward then d.elim m (endResync m)
  else if m.tlk.role = .windward then
    let m1 := { m with tlk := { m.tlk with resync := false, jsnAcked := m.jnl.jsnCommit, alone := [] } }
    setSync m1 true
  else m

/-! ### Handover and revert (14 R378, R379) -/

/-- The next whole second at least `ns` after a stamp. -/
def nextSecond (s : W64) (ns : Nat) : W64 := BitVec.ofNat 64 ((nsOf s + ns + nsPerS - 1) / nsPerS * 2 ^ 30)

/-- A handover instant set. -/
def armHandover (m : Mod) (s : W64) (byRevert : Bool) : Mod :=
  let m1 := { m with tlk := { m.tlk with handover := some s, byRevert := byRevert, revertArmed := true } }
  insTimer (raiseInt m1 .tlk 0x10) (.system 0) s

/-- The conditions of a revert on this unit (14 R379). -/
def revertHolds (m : Mod) : Bool :=
  m.tlk.paired && m.dur.revertEn && m.tlk.sync && !pathSilent m 0 && !pathSilent m 1 && !pathSilent m 2 &&
    ((m.tlk.home && m.tlk.role == .leeward && decide (topHealth m ≤ 1)) ||
      (!m.tlk.home && m.tlk.role == .windward && decide (m.tlk.peerHealth ≤ 1)))

/-- A handover instant given up as SERVE_OK is lost before it (14 R378). -/
def noteServeLoss (m : Mod) : Mod :=
  if m.tlk.handover.isSome && !m.tlk.handing && !serveOk m then disarm m else m

/-- The hold of a revert begins, goes on or breaks (14 R379). -/
def noteRevert (m : Mod) : Mod :=
  if revertHolds m then
    (if m.tlk.holdFrom.isSome then m else { m with tlk := { m.tlk with holdFrom := some m.clk } })
  else
    let m1 := if m.tlk.holdFrom.isNone then m else { m with tlk := { m.tlk with holdFrom := none } }
    if m1.tlk.byRevert && !m1.tlk.handing then disarm m1 else m1

/-- REVERT_HOLD_MET. -/
def opRevertHoldMet (m : Mod) : Mod :=
  match m.tlk.holdFrom with
  | none => m
  | some s =>
    if m.tlk.handover.isNone ∧ s + m.dur.revertHold * nsPerS ≤ m.clk then armHandover m (nextSecond (nowT m) 1) true else m

/-- HANDOVER_START: the timer of S fires, and the Windward stops admission. -/
def opHandoverStart (m : Mod) : Mod :=
  match firing m (.system 0) with
  | none => m
  | some t =>
    let m1 := takeTimer m t
    if m.tlk.handover.isSome && m.tlk.role == .windward && m.tlk.sync && serveOk m then
      { m1 with tlk := { m1.tlk with handing := true } }
    else m1

/-- Whether a command is state-changing and has not issued its record. -/
def unrecorded (c : Cmd) : Bool :=
  (opInfo c.opcode).elim false (fun i => i.changes) &&
    (match c.phase with | .commit _ | .space | .done | .dup _ => false | _ => true)

/-- HANDOVER_CUTOFF: 0.9 ms after S, commands without their records end with ST_STANDBY, the HANDOVER record goes out,
and this unit is a synchronised Leeward. One that lost SERVE_OK after S has failed and hands nothing over (14 R378). -/
def opHandoverCutoff (m : Mod) : Mod :=
  match m.tlk.handover with
  | none => m
  | some s =>
    if !(m.tlk.handing && m.tlk.role == .windward && decide ((t64Add s 900000).toNat ≤ (nowT m).toNat)) then m
    else if !(m.tlk.sync && serveOk m) then disarm m
    else
      let m1 := (m.cmq.cmds.filter (fun p => unrecorded p.2)).foldl (fun m p => pkAbort m p.1 stStandby) m
      let hs := m1.dur.sess.map (fun p => (p.1, p.2.h))
      let m2 := commitThrough (disarm m1) m1.jnl.jsnLast
      let m3 := sendTwin m2 (.handover m2.jnl.jsnLast hs)
      let m4 := { m3 with tlk := { m3.tlk with
        jsnAcked := m3.jnl.jsnLast, jsnApplied := m3.jnl.jsnLast, switchCnt := m3.tlk.switchCnt + 1, holdFrom := none } }
      endAlign (setRole m4 .leeward)

/-- HANDOVER_RECORD_RX: the Leeward takes the role with each session's exact H, and admits at once. -/
def opHandoverRx (l : Nat) (jsn : W64) (hs : List (Nat × Nat)) (m : Mod) : Mod :=
  if !(takesRecords m l && m.tlk.sync && !m.tlk.stale) then m
  else if jsn ≠ m.jnl.jsnLast then setStale m
  else
    let m1 := applyReceived (disarm m)
    let put := fun (a : Tbl Session) (p : Nat × Nat) =>
      match tblFind a p.1 with
      | none => a
      | some s => tblSet a p.1 { s with h := p.2, bitmap := 2 ^ 1024 - 1, mark := max s.mark p.2, acked := max s.mark p.2 }
    let m2 := { m1 with dur := { m1.dur with sess := hs.foldl put m1.dur.sess } }
    let m3 := { m2 with tlk := { m2.tlk with
      roleEpoch := m2.tlk.roleEpoch + 1, switchCnt := m2.tlk.switchCnt + 1, jsnAcked := jsn, holdFrom := none } }
    let m4 := dropLocalChals (endAlign (setRole m3 .windward))
    restartHalfOpen (claimAddrs (restartNct m4))

/-! ### Pairing (14 R362, R364, R375) -/

/-- A link handshake refused. -/
def refuseLink (m : Mod) (l : Nat) : Mod := raiseErr m .tlk 2 2 (BitVec.ofNat 64 l)

/-- This unit's part of a link's exchange and the keys that come of both parts; none where the other's ephemeral is no point
of the curve (14 R364, of the form of 12 R330). -/
def linkExchange (m : Mod) (h : LinkHello) : Mod × Option (Bytes × Bytes) :=
  let (m1, r) := innerNow m 0x17 [(2, h.eph)]
  match r with
  | .ok [z, p] =>
    let own := drawn m1 32 ++ p
    let (m2, sig) := identityNow (afterDraw m1 32) (Config.linkDigest own (h.nonce ++ h.eph))
    (m2, sig.map (fun s => (own ++ s, Config.linkKeys z own (h.nonce ++ h.eph))))
  | _ => (m1, none)

/-- A link up and keyed, on the lanes that trained (18 R458). -/
def keyLink (m : Mod) (l lanes : Nat) (keys : Bytes) : Mod :=
  updLink m l (fun x =>
    { x with
      up := true, keys := some (keys.take 32, keys.drop 32), lanes := min 8 lanes, sent := 0, got := 0, keyedAt := m.clk })

/-- The keys of the device domain's custodians. -/
def custKeys (m : Mod) : List Bytes := (domainIn m.dur deviceDomain).cust.map (fun p => p.2.key)

/-- Whether two lists hold the same keys. -/
def sameKeys (a b : List Bytes) : Bool := a.all b.contains && b.all a.contains

/-- Whether a unit holds a tenant that is not CLOSED. -/
def holdsTenants (d : Durable) : Bool := d.ten.any (fun p => p.2.state != .closed)

/-- The rest of TWIN_PAIR, once both commands have met (14 R362). -/
def pairMeets (m : Mod) (tag : Nat) (c : Cmd) (uid : W64) (home : Bool) (h : LinkHello) : Except Act Act := do
  let mine := holdsTenants m.dur
  ensure (h.uid == uid && h.peerUid == Config.devUid && h.cert == c.body.drop 16 && h.home != home &&
    sameKeys (custKeys m) h.keys && !(mine && h.tenants)) stPairRefused
  let q ← quorum m tag c clsTwinPair
  let windward := mine || (!h.tenants && home)
  pure (.journal { m with tlk := { m.tlk with pairing := none } } (q ++ [.paired uid home windward]) stOk [] false)

/-- Both TWIN_PAIR commands have met. -/
def tryPair (m : Mod) (h : LinkHello) : Mod :=
  match m.tlk.pairing with
  | none => m
  | some (tag, uid, home) =>
    if !h.pairing then m
    else match cmdOf m tag with
      | none => { m with tlk := { m.tlk with pairing := none } }
      | some c => actNow { m with tlk := { m.tlk with pairing := none } } tag (pairMeets m tag c uid home h)

/-- The role a starting paired unit takes from what its twin says (14 Table 14.4). -/
inductive StartRole where
  | windward
  | leeward
  | held
  | orphaned
  deriving DecidableEq, Repr

/-- What the twin says settles the role. -/
def startRole (m : Mod) (h : LinkHello) : Option StartRole :=
  if !h.paired || h.peerUid != Config.devUid then some .orphaned
  else if h.starting then
    (if h.jsn.toNat < m.jnl.jsnCommit.toNat ∨ (m.jnl.jsnCommit = h.jsn ∧ m.tlk.home) then some .windward else some .leeward)
  else if h.role = 1 then some .leeward
  else none

/-- A settled role: READY follows (14 Table 14.4, 09 R255, 19 R469). -/
def settleRole (m : Mod) (r : StartRole) : Mod :=
  let m1 := { m with tlk := { m.tlk with starting := none } }
  match r with
  | .windward => restartHalfOpen (setRole { m1 with tlk := { m1.tlk with countsLost := true } } .windward)
  | .leeward => joinPair m1
  | .held => setRole m1 .held
  | .orphaned => setRole { m1 with tlk := { m1.tlk with orphaned := true } } .held

/-- Whether a hello proves the identity it names (14 R364): its signature holds, and a paired unit admits its twin
alone. -/
def helloOk (m : Mod) (h : LinkHello) : Bool :=
  h.sigOk && Config.certUid h.cert == h.uid &&
    (!m.tlk.paired || h.uid == m.tlk.peerUid || m.tlk.pairing.any (fun p => h.uid == p.2.1))

/-- TWIN_PAIR_TIMEOUT: 600 s without the counterpart (14 R362). -/
def opPairTimeout (tag : Nat) (m : Mod) : Mod :=
  match m.tlk.pairing, cmdOf m tag with
  | some (t, _, _), some c =>
    if t = tag ∧ (t64Add c.stamp (600 * nsPerS)).toNat ≤ (nowT m).toNat then
      endCmd { m with tlk := { m.tlk with pairing := none } } tag stPairRefused []
    else m
  | _, _ => m

/-- LINK_REKEY: after 2^32 frames or 1 h a new exchange is asked for; the link keeps its keys until that exchange
(14 R364). -/
def opLinkRekey (l : Nat) (m : Mod) : Mod :=
  let x := linkOf m l
  if linkPasses m l && (decide (2 ^ 32 ≤ max x.sent x.got) || decide (x.keyedAt + 3600 * nsPerS ≤ m.clk)) then
    emit m (.twinHandshake l Config.devUid)
  else m

/-! ### Commands (14 R383) -/

/-- Whether a unit can be paired: it is not, or is ORPHANED and holds no tenant (14 R362, R376). -/
def canPair (m : Mod) : Bool := !m.tlk.paired || (m.tlk.orphaned && !holdsTenants m.dur)

/-- TWIN_PAIR. -/
def progTwinPair : Prog := fun m tag c => do
  bodyMin c 16
  bodyLen c (16 + f16 c 14)
  needBlk m .tlk
  range (decide (f8 c 8 ≤ 1))
  reserved c 9 5
  ensure (canPair m && m.tlk.pairing.isNone) stPairRefused
  let cert := c.body.drop 16
  ensure ((Config.certKey cert).length == 96 && Config.certUid cert == f64 c 0) stPairRefused
  let _ ← quorum m tag c clsTwinPair
  let m1 := { m with tlk := { m.tlk with pairing := some (tag, f64 c 0, f8 c 8 == 1) } }
  let m2 := updCmd m1 tag (fun c => { c with phase := .twin })
  pure (.hold (emitAll m2 [.twinHandshake 0 Config.devUid, .twinHandshake 1 Config.devUid]))

/-- TWIN_UNPAIR: with the twin's word, or alone with FORCE (14 R382). -/
def progTwinUnpair : Prog := fun m tag c => do
  bodyLen c 8
  needBlk m .tlk
  range (decide (f8 c 0 ≤ 1))
  reserved c 1 7
  ensure m.tlk.paired stPairRefused
  let q ← quorum m tag c clsTwinPair
  if f8 c 0 = 1 && silentFor m (60 * nsPerS) then
    let d := q.foldl effDur (projDur m)
    pure (.journal m (q ++ (if m.tlk.role = .windward then [] else closeAll d) ++ [.unpaired]) stOk [] false)
  else do
    ensure ((linkPasses m 0 && !pathSilent m 0) || (linkPasses m 1 && !pathSilent m 1)) stPairRefused
    if m.tlk.role = .windward then do
      ensure m.tlk.sync stPairRefused
      pure (.journal m (q ++ [.unpaired]) stOk [] false)
    else pure (.hold (sendTwin (updCmd m tag (fun c => { c with phase := .twin })) .unpairAsk))

/-- TWIN_STATUS. -/
def progTwinStatus : Prog := fun m _ c => do
  bodyLen c 0
  needBlk m .tlk
  pure (okWith m (le32 (twinStat m) ++ zeroBytes 4 ++ le64 m.tlk.roleEpoch ++ le64 m.tlk.jsnAcked ++ le64 (jsnReport m) ++
    le64 m.tlk.peerUid))

/-- TWIN_PROMOTE (14 R376): the promotion runs from the command's stamp; budgets are spent. -/
def progTwinPromote : Prog := fun m tag c => do
  bodyLen c 0
  needBlk m .tlk
  ensure ((m.tlk.role == .leeward || m.tlk.role == .held) && m.tlk.paired && !m.tlk.orphaned && !isErased m &&
    m.tlk.promoting.isNone && allSilent m) stPairRefused
  let q ← quorum m tag c clsTwinPair
  let m1 := { m with tlk := { m.tlk with countsLost := true } }
  let res := le64 (jsnReport m) ++ [if m.tlk.stale then 1 else 0] ++ zeroBytes 7
  let from_ := m.clk - (extNs m - nsOf c.stamp)
  pure (.journal (beginPromotion m1 from_) (q ++ [.promote true]) stOk res false)

/-- TWIN_HANDOVER (14 R379, R381). -/
def progTwinHandover : Prog := fun m _ c => do
  bodyLen c 0
  needBlk m .tlk
  ensure (m.tlk.paired && m.tlk.role == .windward && m.tlk.sync && m.tlk.peerFormat && m.tlk.handover.isNone)
    stPairRefused
  let s := nextSecond c.stamp 100000000
  pure (okWith (armHandover m s false) (le64 s))

/-- TWIN_REVERT_SET; on a unit that does not serve it sets that unit's own copy (log 43). -/
def progTwinRevertSet : Prog := fun m _ c => do
  bodyLen c 8
  needBlk m .tlk
  range (decide (f8 c 0 ≤ 1 ∧ 1 ≤ f32 c 4 ∧ f32 c 4 ≤ 3600))
  reserved c 1 3
  pure (.journal m [.revert (f8 c 0 == 1) (f32 c 4)] stOk [] (!serving m))

end Sys2Proof.Machine
end

