-- ==== Sys2Proof/Machine/Ssv.lean ====
section
/-! DEFINITION. The security supervisor's events and commands: sources, cells, supplies, self-tests, records,
re-admission and calibration (15 R386 to R408). -/

namespace Sys2Proof.Machine

/-! ### Sources -/

/-- DETAIL that a source of Table 15.1 can carry (15 Table 15.13). -/
def detailOf (src detail : Nat) : Nat := if isLoop src ∧ 1 ≤ detail ∧ detail ≤ 5 then detail else 0

/-- Whether a detector is out of use: a temperature detector that failed its test leaves the other alone (15 R392). -/
def detectorOut (m : Mod) (src : Nat) : Bool := (src == 0x4C && !m.ssv.tempAOk) || (src == 0x4D && !m.ssv.tempBOk)

/-- A temperature that triggers is the reading (15 Table 15.11, SSV_TEMP). -/
def noteReading (m : Mod) (src : Nat) (value : W32) : Mod :=
  if src = 0x4C then { m with ssv := { m.ssv with tempA := value.truncate 16 } }
  else if src = 0x4D then { m with ssv := { m.ssv with tempB := value.truncate 16 } }
  else m

/-- SENSOR_TRIGGER: the cells, the cold start and the self-test have events of their own. -/
def opSensorTrigger (src : Nat) (value : W32) (detail : Nat) (m : Mod) : Mod :=
  if detectorOut m src ∨ src = 0x6D ∨ src = 0x6F then m
  else trigger (noteReading m src value) src (detailOf src detail) value

/-! ### Supplies (15 R386, R387) -/

/-- With no supply left the erase share is gone. -/
def noteSupply (m : Mod) : Mod := if ssvSupplied m then m else zeroEsh m

/-- SSV_COLD_START: what the battery kept is gone, the counts since manufacture stay (R387; log 44). -/
def opColdStart (m : Mod) : Mod :=
  if m.powered then m
  else
    let v := { m.ssv with
      cold := true, esh := none, squalled := false, maintSeen := false, tempAOk := true, tempBOk := true, fi := [],
      latch := 0, stfail := 0, round := 0, recs := [], lost := 0, seq := 0, lastSt := 0, lastTime := 0, lastClk := m.clk }
    let m1 := { m with ssv := v }
    respond m1 0x6F ((respOf m1 0x6F).getD 0) 0 0 0 false

/-! ### Cells (15 R391, Table 15.2) -/

/-- A cell, and the source that watches it. -/
def cellOf (m : Mod) (n : Nat) : Cell := if n = 0 then m.ssv.cellA else m.ssv.cellB
def cellSrc (n : Nat) : Nat := if n = 0 then 0x68 else 0x69

/-- A cell changed. -/
def setCell (m : Mod) (n : Nat) (c : Cell) : Mod :=
  { m with ssv := if n = 0 then { m.ssv with cellA := c } else { m.ssv with cellB := c } }

/-- A cell event recorded with its response, where the SSV has a supply to act from. -/
def cellAct (m : Mod) (n resp detail : Nat) : Mod :=
  if !ssvSupplied m then zeroEsh m
  else
    let quiet := m.ssv.power == .lull && resp != 2
    let m1 := respond m (cellSrc n) resp detail 0 0 quiet
    if m.ssv.power = .main then raiseInt m1 .ssv 4 else m1

/-- A cell's voltage inside a range, in mV: the reading is free (log 5). -/
def withVolt (m : Mod) (n : Nat) (c : Cell) (lo hi : Nat) : Mod :=
  afterChoice (setCell m n { c with milliVolt := lo + choice m % (hi - lo) })

/-- Whether a cell counts: present and not depleted; a depleted one is ignored until it is replaced. -/
def cellGood (c : Cell) : Bool := c.present && !c.depleted

/-- CELL_EVENT. -/
def opCellEvent (n : Nat) (ev : CellEv) (m : Mod) : Mod :=
  if 2 ≤ n then m
  else
    let c := cellOf m n
    match ev with
    | .removed =>
      if !c.present then m
      else
        let swap := m.ssv.power == .main && m.ssv.maintSeen && cellGood (cellOf m (1 - n))
        cellAct (setCell m n Cell.none) n (if swap then 0 else 2) 1
    | .inserted =>
      if cellGood c then m
      else cellAct (withVolt m n { present := true, depleted := false, low := false, milliVolt := 0 } 2600 3601) n 0 5
    | .low =>
      if !c.present || c.depleted || c.low then m else cellAct (withVolt m n { c with low := true } 2200 2600) n 1 2
    | .depleted =>
      if !c.present || c.depleted then m
      else cellAct (withVolt m n { c with low := false, depleted := true } 0 2200) n 1 3
    | .recovered => if c.present && c.low then withVolt m n { c with low := false } 2600 3601 else m

/-! ### Self-tests (15 R392) -/

/-- Whether a source is a detector with a stimulus of its own. -/
def isDetector (m : Mod) (src : Nat) : Bool :=
  !reservedSrc src && (decide (src ≤ 0x4D) || (decide (0x50 ≤ src) && decide (src ≤ 0x69))) &&
    !(isLoop src && loopMode m src == 0) && srcWatched m src

/-- Whether every detector has been tested in the present round. -/
def roundDone (m : Mod) : Bool :=
  (List.range 0x6A).all (fun s => !isDetector m s || m.ssv.round.getLsbD s)

/-- A detector's test counted in its round; a complete round is stamped (15 Table 15.11, SSV_LAST_ST). -/
def noteTest (m : Mod) (src : Nat) : Mod :=
  let m1 := { m with ssv := { m.ssv with round := m.ssv.round ||| BitVec.ofNat 128 (2 ^ src) } }
  if roundDone m1 then { m1 with ssv := { m1.ssv with round := 0, lastSt := ssvStamp m1 } } else m1

/-- A temperature detector's place in service. -/
def setTempOk (m : Mod) (src : Nat) (ok : Bool) : Mod :=
  if src = 0x4C then { m with ssv := { m.ssv with tempAOk := ok } }
  else if src = 0x4D then { m with ssv := { m.ssv with tempBOk := ok } }
  else m

/-- A detector's fail bit. -/
def setStfail (m : Mod) (src : Nat) (b : Bool) : Mod :=
  let bit := BitVec.ofNat 128 (2 ^ src)
  { m with ssv := { m.ssv with stfail := if b then m.ssv.stfail ||| bit else m.ssv.stfail &&& ~~~bit } }

/-- A failed detector of a net, of light or of an ACTIVE loop counts as triggered; with both temperature detectors
failed the SSV squalls. -/
def failedActs (m : Mod) (src : Nat) : Mod :=
  if src ≤ 0x17 ∨ (0x48 ≤ src ∧ src ≤ 0x4B) ∨ (isLoop src ∧ loopMode m src = 1) then trigger m src 0 0
  else if (src = 0x4C ∨ src = 0x4D) ∧ !m.ssv.tempAOk ∧ !m.ssv.tempBOk then squall m
  else m

/-- DETECTOR_SELFTEST. -/
def opDetectorSelftest (src : Nat) (pass : Bool) (m : Mod) : Mod :=
  if !(ssvSupplied m && isDetector m src) then m
  else
    let m1 := setTempOk (setStfail (noteTest m src) src (!pass)) src pass
    if pass then m1
    else
      let m2 := if m.ssv.power = .main then raiseInt m1 .ssv 0x40000000 else m1
      failedActs (respond m2 0x6D ((respOf m2 0x6D).getD 1) src 0 0 false) src

/-! ### Records (15 R399, Table 15.13) -/

/-- The words of a tamper record, without the slot's V. -/
def recW0 (r : TamperRec) : W64 :=
  let bit := fun (n : Nat) (b : Bool) => if b then 2 ^ n else 0
  BitVec.ofNat 64 (2 ^ 63 + bit 62 r.lull + bit 61 r.copied + bit 60 r.checkBad + r.resp % 4 * 2 ^ 56 +
    r.source % 256 * 2 ^ 40 + r.detail % 256 * 2 ^ 32 + r.seq.toNat)

/-- Measured value and limit. -/
def recW2 (r : TamperRec) : W64 := BitVec.ofNat 64 (r.limit.toNat * 2 ^ 32 + r.value.toNat)

/-- CRC-32C over the words before it. -/
def recW3 (r : TamperRec) : W64 :=
  BitVec.ofNat 64 (crc32c (le64 (recW0 r) ++ le64 r.stamp ++ le64 (recW2 r))).toNat

/-- The oldest record not copied yet: the lowest sequence number. -/
def nextCopy (m : Mod) : Option (Nat × TamperRec) :=
  (m.ssv.recs.filter (fun p => !p.2.copied)).foldl (fun (b : Option (Nat × TamperRec)) p =>
    match b with
    | none => some p
    | some x => if p.2.seq.toNat < x.2.seq.toNat then some p else some x) none

/-- SSV_RECORD_COPY. -/
def opRecordCopy (m : Mod) : Mod :=
  if !(m.powered && m.ssv.power == .main) then m
  else match nextCopy m with
    | none => m
    | some (n, r) =>
      { m with
        ssv := { m.ssv with recs := tblSet m.ssv.recs n { r with copied := true } }
        jnl := { m.jnl with evidence := m.jnl.evidence ++ [(n, recW0 r, r.stamp, recW2 r)] } }

/-- SSV_REC_CLEAR's effect: copied records up to a sequence number discarded. -/
def recClear (v : W32) (m : Mod) : Mod :=
  { m with ssv := { m.ssv with
    recs := m.ssv.recs.filter (fun p => !(p.2.copied && decide (p.2.seq.toNat ≤ v.toNat))) } }

/-- SSV_LATCH_CLEAR's effect: bits cleared, those whose condition is still present set again (15 R393). -/
def latchClear (word : Nat) (v still : W32) (m : Mod) : Mod :=
  let at' := fun (x : W32) => BitVec.ofNat 128 (x.toNat * 2 ^ (32 * word))
  let was := m.ssv.latch
  let m1 := { m with ssv := { m.ssv with latch := (was &&& ~~~(at' v)) ||| (was &&& at' (v &&& still)) } }
  if m1.ssv.latch = 0 then m1 else raiseInt m1 .ssv 1

/-! ### Commands (15 R401, R402, R408) -/

/-- SSV_READMIT. -/
def progSsvReadmit : Prog := fun m _ c => do
  bodyLen c 0
  ensure (m.ssv.tamper == .hold && m.ssv.recs.all (fun p => p.2.copied) && !m.rng.halted) stTamperState
  pure (.journal m [.readmit] stOk [] true)

/-- SSV_RELEASE. -/
def progSsvRelease : Prog := fun m tag c => do
  bodyLen c 0
  ensure (m.ssv.tamper == .readmitted) stTamperState
  let q ← quorum m tag c clsMaintenance
  pure (.journal m (q ++ [.release]) stOk [] true)

/-! ### Calibration (15 R405, R406) -/

/-- Reserved ranges of the set: offset and length (15 Table 15.7). -/
def calReserved : List (Nat × Nat) :=
  [(0x001, 7), (0x01C, 4), (0x380, 124)] ++ (List.range 8).map (fun i => (0x026 + 8 * i, 2)) ++
    (List.range 4).map (fun i => (0x063 + 8 * i, 5)) ++ (List.range 48).map (fun i => (0x0C2 + 12 * i, 2))

/-- Whether the RESP byte of a source is read. -/
def respRead (src : Nat) : Bool := !(isLoop src || reservedSrc src || src == 0x68 || src == 0x69)

/-- Whether CAL_WRITE takes a set. -/
def calOk (b : Bytes) : Bool :=
  getLe32 b 0x3FC == crc32c (b.take 0x3FC) && getNat8 b 0 == 1 && calReserved.all (fun r => allZero (sliceOf b r.1 r.2)) &&
    (List.range 48).all (fun i =>
      let at' := 0x0C0 + 12 * i
      decide (getNat8 b at' ≤ 2) && decide (getNat8 b (at' + 1) ≤ 2) &&
        (getNat8 b at' != 2 || decide ((getLe32 b (at' + 4)).toNat < (getLe32 b (at' + 8)).toNat))) &&
    (List.range 128).all (fun s => !respRead s || decide (getNat8 b (0x300 + s) ≤ 2))

/-- A field of `n` bytes held between bounds: the set, and one more when it moved. -/
def clampField (off n lo hi : Nat) (r : Bytes × Nat) : Bytes × Nat :=
  let v := leNat (sliceOf r.1 off n)
  if v < lo then (putAt r.1 off (natLe n lo), r.2 + 1)
  else if hi < v then (putAt r.1 off (natLe n hi), r.2 + 1)
  else r

/-- A signed 16-bit field held between bounds. -/
def clampTemp (off : Nat) (lo hi : Int) (r : Bytes × Nat) : Bytes × Nat :=
  let v := calS16 r.1 off
  if v < lo then (putAt r.1 off (le16 (BitVec.ofInt 16 lo)), r.2 + 1)
  else if hi < v then (putAt r.1 off (le16 (BitVec.ofInt 16 hi)), r.2 + 1)
  else r

/-- The clamps of one rail, clock and loop. -/
def clampRail (i : Nat) (r : Bytes × Nat) : Bytes × Nat :=
  let at' := 0x020 + 8 * i
  let n := railNominal i
  clampField (at' + 4) 2 0 (n * 15 / 100) (clampField (at' + 2) 2 0 (n * 112 / 100) (clampField at' 2 ((n * 88 + 99) / 100) 65535 r))
def clampClock (i : Nat) (r : Bytes × Nat) : Bytes × Nat :=
  clampField (0x062 + 8 * i) 1 70 255 (clampField (0x060 + 8 * i) 2 0 20000 r)
def clampLoop (i : Nat) (r : Bytes × Nat) : Bytes × Nat :=
  clampField (0x0C8 + 12 * i) 4 0 10000000 (clampField (0x0C4 + 12 * i) 4 100 0xFFFFFFFF r)

/-- A set clamped to its floors, and the fields clamped; every entry counts, whatever its mode (log 44). -/
def calClamp (b : Bytes) : Bytes × Nat :=
  let r0 := clampTemp 0x01A 1440 1760 (clampTemp 0x018 (-640) (-160) (b, 0))
  let r1 := (List.range 8).foldl (fun r i => clampRail i r) r0
  let r2 := (List.range 4).foldl (fun r i => clampClock i r) r1
  let r3 := (List.range 48).foldl (fun r i => clampLoop i r) r2
  (List.range 128).foldl (fun r s => if respRead s then clampField (0x300 + s) 1 (floorResp s) 2 r else r) r3

/-- The set as stored: the factory stamp kept, its CRC made anew. -/
def calStored (old new : Bytes) : Bytes :=
  let b := putAt new 0x008 (sliceOf old 0x008 8)
  b.take 0x3FC ++ le32 (crc32c (b.take 0x3FC))

/-- CAL_WRITE. -/
def progCalWrite : Prog := fun m tag c => do
  bodyLen c 1024
  range (calOk c.body)
  ensure (decide (m.ssv.calWrites < 1000)) stTamperState
  let q ← quorum m tag c clsCalibration
  let (b, n) := calClamp c.body
  pure (.journal m (q ++ [.calibration (calStored m.ssv.cal b)]) stOk (natLe 2 n ++ zeroBytes 6) true)

/-- CAL_READ. -/
def progCalRead : Prog := fun m _ c => do
  bodyLen c 0
  pure (okWith m (calSet m))

end Sys2Proof.Machine
end

