-- ==== Sys2Proof/Machine/Lcc.lean ====
section
/-! DEFINITION. The life-cycle controller: OTP words, transitions, debug reopening and boundary scan (chapter 16). -/

namespace Sys2Proof.Machine

/-! ### The OTP words (16 R412, Table 16.2) -/

/-- An OTP word. -/
def otpWord (m : Mod) (w : Nat) : W64 := tblGet 0 m.lcc.words w

/-- Whether a word equals its pattern. -/
def wordValid (m : Mod) (w : Nat) : Bool := decide (w < 5) && otpWord m w == lcPattern w

/-- Whether a word holds a proper subset of its pattern's bits. -/
def wordPartial (m : Mod) (w : Nat) : Bool :=
  decide (w < 5) && otpWord m w != 0 && otpWord m w != lcPattern w && otpWord m w &&& ~~~(lcPattern w) == 0

/-- Whether a word holds a bit outside its pattern. -/
def wordForeign (m : Mod) (w : Nat) : Bool := !(otpWord m w &&& ~~~(lcPattern w) == 0)

/-- Whether some word is FOREIGN. -/
def anyForeign (m : Mod) : Bool := (List.range 6).any (wordForeign m)

/-- How many words from W0 on equal their patterns. -/
def validRun (m : Mod) : Nat → Nat
  | 0 => 0
  | f + 1 => let k := 5 - (f + 1); if wordValid m k then validRun m f + 1 else 0

/-- The decode of the words; 7 when it is invalid. -/
def lcDecode (m : Mod) : Nat :=
  let k := validRun m 5
  if (List.range 6).all (fun w => decide (w < k) || otpWord m w == 0) then k else 7

/-- A word of OTP written. -/
def setWord (m : Mod) (w : Nat) (v : W64) : Mod := { m with lcc := { m.lcc with words := tblSet m.lcc.words w v } }

/-- The lowest set bits of a pattern, `n` of them. -/
def lowBits (p : W64) (n : Nat) : W64 :=
  BitVec.ofNat 64 (((List.range 64).filter (fun i => p.getLsbD i)).take n |>.foldl (fun a i => a + 2 ^ i) 0)

/-- The place of a pattern's set bit of a number. -/
def bitPlace (p : W64) (n : Nat) : Nat := (((List.range 64).filter (fun i => p.getLsbD i))[n]?).getD 0

/-! ### Operations (16 R415, Table 16.9) -/

/-- The last operation's status; DONE is set. -/
def lccResult (m : Mod) (st : W16) : Mod :=
  raiseInt { m with lcc := { m.lcc with result := st, done := true } } .lcc 1

/-- The mailbox. -/
def mboxBytes (m : Mod) (n : Nat) : Bytes := memReadBytes m.lcc.mbox 0 n

/-- SHA-384 of the live identity key, SEC1 compressed; zero where none exists (Table 16.3). -/
def idHash (m : Mod) : Bytes :=
  match m.khs.idKey.bind (fun d => NistCurve.p384.public d) with
  | none => zeroBytes 48
  | some q => sha384 (compress .p384 q)

/-- Whether LCC works: its block is not locked, the core die runs and its state is decoded. -/
def lccLive (m : Mod) : Bool := m.powered && m.lcc.decoded.isSome && m.lcc.stopping.isNone && m.lcc.held.isNone

/-- LCC_STAT.BUSY: an operation runs (16 Table 16.10). -/
def lccBusy (m : Mod) : Bool := m.lcc.stopping.isSome || m.lcc.held.isSome

/-- Why the checks of an operation stop: a status refuses it, or it waits for approvals to be verified (11 R307). -/
inductive LccStop where
  | status (st : W16)
  | wait
  deriving DecidableEq, Repr

/-- A check of Table 16.4. -/
def lccEnsure (b : Bool) (st : W16) : Except LccStop Unit := if b then .ok () else .error (.status st)

/-- Steps 1 to 3 of Table 16.4; EXPIRY is a TIME64 value (00 R13). -/
def lccFront (m : Mod) (kind : Nat) (r : Bytes) : Except LccStop Unit := do
  lccEnsure (!(blkOf m .lcc).locked) stLocked
  lccEnsure (m.lcc.mboxLen == 272) stBadLength
  let flags := getNat8 r 4
  lccEnsure (getNat8 r 0 == 1 && getNat8 r 1 == kind && allZero (sliceOf r 5 3) && allZero (sliceOf r 0x68 8) &&
    t64Ok (getLe64 r 0x60) &&
    (if kind = 1 then flags == 0 && allZero (sliceOf r 0x70 64) else decide (flags < 4) && getNat8 r 3 == 0)) stBadFormat
  lccEnsure (getLe64 r 8 == Config.devUid && sliceOf r 0x30 48 == idHash m) stNotAuthorised

/-- Step 6, judged at the stamp of the write. -/
def lccExpiry (m : Mod) (r : Bytes) (s : W64) (free : Bool) : Except LccStop Unit :=
  let e := t64Trunc (getLe64 r 0x60)
  if getLe64 r 0x60 = 0 then lccEnsure free stOutsideWindow
  else do
    lccEnsure (trustedAt m s) stTimeUntrusted
    lccEnsure (decide (s.toNat < e.toNat)) stOutsideWindow

/-- Step 7: the verdict, taken twice. -/
def lccSignature (r : Bytes) (agree : Bool) : Except LccStop Unit := do
  lccEnsure agree stLocked
  lccEnsure (Config.psiecVerdict (r.take 0xB0) (sliceOf r 0xB0 96)) stVerifyFail

/-- Step 8: pairing, then the quorum of a class with the digest of R416. What consumes the challenge. -/
def lccQuorum (m : Mod) (cls code : Nat) (r : Bytes) (s : W64) : Except LccStop (List Effect) := do
  lccEnsure (m.tlk.role == .unpaired) stLcState
  lccEnsure (!(blkOf m .dcu).locked) stLocked
  let d := projDur m
  let x := domainIn d deviceDomain
  let need := policyM d deviceDomain cls
  let dg := opDigest code 0 (r.take 272)
  lccEnsure (decide (2 ≤ x.cust.length)) stQuorumMissing
  if need = 0 then pure []
  else match findChallenge x cls dg s with
    | none => .error (.status (if matchOutside x cls dg s then stOutsideWindow else stQuorumMissing))
    | some (id, ch) =>
      if verifyingFor m deviceDomain id s then .error .wait
      else if counted x ch s < need then .error (.status stQuorumMissing)
      else pure [consumeIn d deviceDomain id, .consumed deviceDomain id]

/-! ### Transitions (16 R415 to R420) -/

/-- Table 16.4 for a transition of a unit that is not LOCKED. -/
def transitionCheck (m : Mod) (r : Bytes) (s : W64) (agree : Bool) : Except LccStop (List Effect) := do
  lccFront m 1 r
  let a := getNat8 r 2
  let b := getNat8 r 3
  lccEnsure (a == lcState m && decide (a < b ∧ b ≤ 5) && (!isErased m || decide (4 ≤ a))) stLcState
  lccEnsure (sliceOf r 0x10 32 == m.lcc.nonce && !m.lcc.nonceUsed) stReplay
  lccExpiry m r s (decide (a ≤ 1))
  lccSignature r agree
  let q ← if a = 3 then lccQuorum m clsLifeCycle 0x0F30 r s else pure []
  let cert := memReadBytes m.lcc.cert 0 4096
  lccEnsure (a != 1 || (!m.lcc.cert.isEmpty && !(Config.certKey cert).isEmpty && Config.certKey cert == identityPub m))
    stVerifyFail
  pure q

/-- The checks of R419 for a LOCKED unit; the word to go on from. -/
def resumeCheck (m : Mod) (r : Bytes) (agree : Bool) : Except LccStop Nat := do
  lccEnsure (!anyForeign m) stLcState
  lccFront m 1 r
  lccEnsure (m.lcc.intent == some (sha384 (r.take 272))) stNotAuthorised
  let j := validRun m 5
  let a := getNat8 r 2
  let b := getNat8 r 3
  lccEnsure ((otpWord m j == 0 || wordPartial m j) && (List.range 6).all (fun w => decide (w ≤ j) || otpWord m w == 0) &&
    decide (a ≤ j ∧ j < b ∧ b ≤ 5)) stLcState
  lccSignature r agree
  pure j

/-- The words from one up to another programmed; on a failure a free word holds a free number of its lowest bits
(R417; log 45). -/
def progWords (m : Mod) (from_ to_ : Nat) (ok : Bool) : Mod :=
  let n := to_ - from_
  let bad := if ok then n else Config.freeNat m.free % n
  let m1 := (List.range bad).foldl (fun m i => setWord m (from_ + i) (lcPattern (from_ + i))) m
  if ok then m1
  else
    let w := from_ + bad
    let k := Config.freeNat (m.free + 1) % 32
    let m2 := setWord m1 w (otpWord m1 w ||| lowBits (lcPattern w) k)
    raiseErr { m2 with free := m2.free + 2, lcc := { m2.lcc with progFail := true } } .lcc 0 1
      (BitVec.ofNat 64 (w + bitPlace (lcPattern w) k * 2 ^ 8))

/-- The end of programming: the result, and the reset that follows (R417 steps 6 and 7). -/
def progEnd (m : Mod) (ok : Bool) : Mod :=
  let m1 := lccResult m (if ok then stOk else stInternalFault)
  { m1 with lcc := { m1.lcc with stopping := some m1.clk } }

/-- Admission stops, as at a loss of SERVE_OK, until the next start (R417 step 1). -/
def stopAdmission (m : Mod) : Mod := { m with tlk := { m.tlk with shut := true } }

/-- A read of the PUF array in a transition (05 R127; log 9). -/
def arrayRead (k : Nat) : Bytes := (List.range 1278).map (Config.pufByte k)

/-- The PUF in the transition out of BLANK (R417 step 4): enrolled with messages from D0 where there is no helper data,
regenerated where there is; false where it does not regenerate, or where no generator works. -/
def leaveBlank (m : Mod) : Mod × Bool :=
  match m.lcc.helper with
  | some h => (afterChoice m, (regenerate h ((List.range 4).map (fun i => arrayRead (4 * m.free + i)))).dus.isSome)
  | none =>
    if m.rng.halted then (m, false)
    else
      let m1 := afterDraw m 130
      ({ m1 with lcc := { m1.lcc with helper := some (enrol (arrayRead (4 * m.free)) (drawn m 130)) } }, true)

/-- Bytes of the DER value a byte string begins with (X.690; log 45), at most what KHS page 2 holds. -/
def derLen (b : Bytes) : Nat :=
  let l := getNat8 b 1
  let n := if l < 0x80 then 2 + l else 2 + (l - 0x80) + beNat (sliceOf b 2 (l - 0x80))
  min 4000 n

/-- Steps 3 and 4 of R417: the certificate attached, the PUF enrolled; false where the unit secret does not come. -/
def leaveEarly (m : Mod) (a : Nat) : Mod × Bool :=
  let page := memReadBytes m.lcc.cert 0 4096
  if a = 1 then ({ m with khs := { m.khs with cert := some (page.take (derLen page)) } }, true)
  else if a = 0 then leaveBlank m
  else (m, true)

/-- A refusal reported; two evaluations that disagree lock LCC (15 R403). -/
def lccRefuse (m : Mod) (st : W16) (agree : Bool) (op : Nat) : Mod :=
  if st = stLocked ∧ !agree then raiseErr (disagree (lccResult m st) .lcc) .lcc 0 2 (BitVec.ofNat 64 op)
  else lccResult m st

/-- An operation of LCC_CMD that waits for approvals to be verified. -/
def lccHold (m : Mod) (op : Nat) (ok agree : Bool) (s : W64) : Mod :=
  { m with lcc := { m.lcc with held := some { op := op, ok := ok, agree := agree, stamp := s } } }

/-- LC_TRANSITION's effect at a stamp: the request in the mailbox checked and carried out. -/
def lcTransitionAt (ok agree : Bool) (s : W64) (m : Mod) : Mod :=
  if !lccLive m then m
  else
    let r := mboxBytes m 272
    if lcState m = 7 then
      match resumeCheck m r agree with
      | .error (.status st) => lccRefuse m st agree 1
      | .error .wait => m
      | .ok j => progEnd (progWords (stopAdmission m) j (getNat8 r 3) ok) ok
    else match transitionCheck m r s agree with
      | .error (.status st) => lccRefuse m st agree 1
      | .error .wait => lccHold m 1 ok agree s
      | .ok q =>
        let m1 := if q.isEmpty then m else issueOwn m q
        let m2 := stopAdmission
          { m1 with lcc := { m1.lcc with intent := some (sha384 (r.take 272)), nonceUsed := true } }
        let (m3, go) := leaveEarly m2 (getNat8 r 2)
        if go then progEnd (progWords m3 (getNat8 r 2) (getNat8 r 3) ok) ok else progEnd m3 false

/-- LC_TRANSITION's effect: the write of LCC_CMD is its stamp (R415). -/
def lcTransition (ok agree : Bool) (m : Mod) : Mod := lcTransitionAt ok agree (nowT m) m

/-! ### Debug reopening (16 R421 to R423) -/

/-- DBG_CHALLENGE's effect: the challenge of Table 16.6. -/
def makeChallenge (m : Mod) : Mod :=
  if !lccLive m then m
  else if (blkOf m .lcc).locked then lccResult m stLocked
  else if lcState m = 7 then lccResult m stLcState
  else if m.rng.halted then lccResult m stAborted
  else
    let n := drawn m 32
    let b := [1, 3, byteOf (lcState m)] ++ zeroBytes 5 ++ le64 Config.devUid ++ n ++ idHash m
    let m1 := afterDraw m 32
    lccResult { m1 with lcc := { m1.lcc with chal := some n, mbox := memWriteBytes m1.lcc.mbox 0 b } } stOk

/-- Table 16.4 for a debug response, with the differences of R422: in LOCKED, TEST and BLANK every response fails. -/
def debugCheck (m : Mod) (r : Bytes) (s : W64) (agree : Bool) : Except LccStop (List Effect) := do
  let a := lcState m
  lccEnsure (!(blkOf m .lcc).locked) stLocked
  lccEnsure (a != 7 && decide (2 ≤ a)) stLcState
  lccFront m 2 r
  lccEnsure (getNat8 r 2 == a) stLcState
  lccEnsure (m.lcc.chal == some (sliceOf r 0x10 32)) stReplay
  lccExpiry m r s false
  lccSignature r agree
  if a = 3 then lccQuorum m clsDebug 0x0F31 r s else pure []

/-- DEBUG_RESPONSE's effect at a stamp. -/
def debugResponseAt (agree : Bool) (s : W64) (m : Mod) : Mod :=
  if !lccLive m then m
  else
    let r := mboxBytes m 272
    match debugCheck m r s agree with
    | .error (.status st) => lccRefuse m st agree 3
    | .error .wait => lccHold m 3 true agree s
    | .ok q =>
      let m1 := if q.isEmpty then m else issueOwn m q
      let f := getNat8 r 4
      let m2 := { m1 with lcc := { m1.lcc with
        chal := none, dbgOpen := true, scope := sliceOf r 0x70 64, readOnly := f.testBit 1, bscan := f.testBit 0 } }
      raiseInt (lccResult m2 stOk) .lcc 2

/-- DEBUG_RESPONSE's effect. -/
def debugResponse (agree : Bool) (m : Mod) : Mod := debugResponseAt agree (nowT m) m

/-- The operation that waited is judged again at its stamp (11 R307). -/
def resumeLcc (m : Mod) : Mod :=
  match m.lcc.held with
  | none => m
  | some h =>
    let m1 := { m with lcc := { m.lcc with held := none } }
    if h.op = 1 then lcTransitionAt h.ok h.agree h.stamp m1 else debugResponseAt h.agree h.stamp m1

/-- The reopening ends. -/
def closeDebug (m : Mod) : Mod :=
  if !m.lcc.dbgOpen then m
  else raiseInt { m with lcc := { m.lcc with
    dbgOpen := false, scope := zeroBytes 64, readOnly := false, bscan := false } } .lcc 2

/-! ### Boundary scan (16 R424) -/

/-- Whether the scan instructions are accepted. -/
def scanOpen (m : Mod) : Bool := m.lcc.decoded == some 0 || m.lcc.decoded == some 1 || m.lcc.bscan

/-- The instruction as the port acts on it. -/
def tapEffective (m : Mod) (ir : TapIr) : TapIr :=
  match ir with
  | .bypass => .bypass
  | .idcode => .idcode
  | .dbgAccess => .dbgAccess
  | x => if scanOpen m then x else .bypass

/-- TAP_INSTRUCTION. -/
def opTapInstruction (ir : TapIr) (m : Mod) : Mod :=
  if !m.powered then m
  else
    let x := tapEffective m ir
    let m1 := emit { m with lcc := { m.lcc with ir := x } } (.tapOut x (if x = .idcode then 0x19420A5D else 0))
    match x with
    | .extest | .clamp | .highz => stopAdmission m1
    | _ => m1

end Sys2Proof.Machine
end

