-- ==== Sys2Proof/Machine/Evr.lean ====
section
/-! DEFINITION. The event recorder: epochs, records, the buffer and the log, configuration and EVR_READ, EVR_CLEAR
(17 R427 to R433). -/

namespace Sys2Proof.Machine

/-- Records the buffer and the log hold (17 R431). -/
def evrBufferMax : Nat := 4096
def evrLogMax : Nat := 33554432

/-- A channel. -/
def evrChanOf (m : Mod) (ch : Nat) : EvrChan := tblGet EvrChan.reset m.evr.chan ch

/-- A channel changed. -/
def updChan (m : Mod) (ch : Nat) (f : EvrChan → EvrChan) : Mod :=
  { m with evr := { m.evr with chan := tblUpd EvrChan.reset m.evr.chan ch f } }

/-! ### Records (17 Table 17.2) -/

/-- FLAGS of a record. -/
def evrFlags (c : EvrCfg) (e : EvrEpoch) (partial_ : Bool) : Nat :=
  (if partial_ || e.partial_ then 1 else 0) + (if e.saturated then 2 else 0) + (if e.stepped then 4 else 0) +
    (if e.untrusted then 8 else 0) + (if c.tfilt then 16 else 0)

/-- A record of an epoch that ends at an instant. -/
def evrRecord (ch : Nat) (c : EvrCfg) (e : EvrEpoch) (stop : W64) (partial_ : Bool) (seq : W64) : Bytes :=
  let head := [1, byteOf ch] ++ natLe 2 (evrFlags c e partial_) ++ natLe 2 c.source ++ [if c.log then 1 else 0, 0] ++
    natLe 2 (if c.tfilt then c.tenant else 0) ++ [0, 0] ++ natLe 4 c.epoch ++ natLe 4 c.base ++
    natLe 4 (if c.log then 0 else c.width)
  let body := le64 e.start ++ le64 stop ++ le64 seq ++ natLe 8 e.count ++ natLe 8 e.sum ++ natLe 4 e.min ++ natLe 4 e.max
  let bins := ((List.range 32).map (fun i => natLe 4 (tblGet 0 e.bins i))).flatten
  let b := head ++ body ++ bins ++ zeroBytes 52
  b ++ le32 (crc32c b)

/-- A record lost: its SEQ is consumed (R431, R432). -/
def evrLose (m : Mod) (n : Nat) : Mod :=
  if n = 0 then m else raiseInt { m with evr := { m.evr with lost := m.evr.lost + BitVec.ofNat 64 n } } .evr 2

/-- A write of the buffer to the log begins. -/
def evrFlush (m : Mod) : Mod :=
  if m.evr.buffer.isEmpty then m else { m with evr := { m.evr with writing := true } }

/-- A record enters the buffer, or is lost; 64 unwritten records start a write. -/
def evrPush (m : Mod) (rcd : Bytes) : Mod :=
  let m1 := { m with evr := { m.evr with seq := m.evr.seq + 1 } }
  if m.evr.full ∨ evrBufferMax ≤ m.evr.buffer.length then evrLose m1 1
  else
    let m2 := { m1 with evr := { m1.evr with buffer := m1.evr.buffer ++ [rcd] } }
    if 64 ≤ m2.evr.buffer.length then evrFlush m2 else m2

/-- Records of the buffer reach the log in SEQ order; those that do not fit are lost. -/
def evrToLog (m : Mod) (n : Nat) : Mod :=
  let k := min n m.evr.buffer.length
  let room := evrLogMax - m.evr.log.length
  let fits := (m.evr.buffer.take k).take room
  let m1 := { m with evr := { m.evr with buffer := m.evr.buffer.drop k, log := m.evr.log ++ fits } }
  let m2 := evrLose m1 (k - fits.length)
  if evrLogMax ≤ m2.evr.log.length && !m2.evr.full then raiseInt { m2 with evr := { m2.evr with full := true } } .evr 1
  else m2

/-- EVR_LOG_WRITE_DONE. -/
def opLogWriteDone (n : Nat) (m : Mod) : Mod :=
  if !m.evr.writing then m
  else
    let m1 := evrToLog m n
    { m1 with evr := { m1.evr with writing := decide (64 ≤ m1.evr.buffer.length) } }

/-! ### Epochs (17 R429, R430) -/

/-- The timer of a channel off the lists. -/
def dropEvrTimer (m : Mod) (ch : Nat) : Mod := dropTimers m (fun k => match k with | .evr x => x == ch | _ => false)

/-- An epoch open on a channel, its end a timer. -/
def setEpoch (m : Mod) (ch : Nat) (e : EvrEpoch) : Mod :=
  insTimer (updChan m ch (fun x => { x with epoch := some e, late := none })) (.evr ch) e.stop

/-- An epoch opened at an instant; its end is aligned. -/
def openEpoch (m : Mod) (ch : Nat) (start : W64) : Mod := setEpoch m ch (freshEpoch m (evrChanOf m ch).cfg.epoch start)

/-- The open epoch off a channel. -/
def noEpoch (m : Mod) (ch : Nat) : Mod :=
  dropEvrTimer (updChan m ch (fun x => { x with epoch := none, late := none })) ch

/-- An open epoch closed at an instant: before its end it is PARTIAL; past it, it is whole and what followed it is. -/
def closeEpoch (m : Mod) (ch : Nat) (stop : W64) : Mod :=
  let x := evrChanOf m ch
  let put := fun (m : Mod) (e : EvrEpoch) (stop : W64) (part : Bool) => evrPush m (evrRecord ch x.cfg e stop part m.evr.seq)
  match x.epoch with
  | none => m
  | some e =>
    let m1 :=
      if stop.toNat < e.stop.toNat then put m e stop true
      else
        let m1 := put m e e.stop false
        x.late.elim m1 (fun l => put m1 l stop true)
    noEpoch m1 ch

/-- Every open epoch closed now (R430: a power-fail, a Squall). -/
def closeEpochs (m : Mod) : Mod :=
  (m.evr.chan.map Prod.fst).foldl (fun m ch => closeEpoch m ch (nowT m)) m

/-- Whether a channel runs. -/
def chanOn (m : Mod) (ch : Nat) : Bool := m.evr.en && (evrChanOf m ch).cfg.en && inService m

/-- The first epochs of the channels, as READY is set. -/
def openEpochs (m : Mod) : Mod :=
  (m.evr.chan.map Prod.fst).foldl (fun m ch =>
    if chanOn m ch && (evrChanOf m ch).epoch.isNone then openEpoch m ch (nowT m) else m) m

/-- EVR_EPOCH_END: the channel writes its record and opens the next epoch, the one that holds the present. -/
def opEpochEnd (ch : Nat) (m : Mod) : Mod :=
  let x := evrChanOf m ch
  match x.epoch with
  | none => m
  | some e =>
    if 64 ≤ ch ∨ (firing m (.evr ch)).isNone then m
    else
      let m1 := noEpoch (evrPush m (evrRecord ch x.cfg e e.stop false m.evr.seq)) ch
      if chanOn m1 ch then setEpoch m1 ch (x.late.getD (epochAfter m1 x.cfg e)) else m1

/-! ### Configuration (17 R430, Table 17.8) -/

/-- The sources of Table 17.1. -/
def evrSources : List Nat := [0x0001, 0x0002, 0x0010, 0x0011, 0x0012, 0x0020, 0x0021, 0x0030, 0x0040, 0x0041, 0x0050]

/-- Whether a staged configuration is in range. -/
def evrCfgOk (c : EvrCfg) : Bool :=
  evrSources.contains c.source && decide (1 ≤ c.width) && (!c.log || decide (1 ≤ c.base)) &&
    decide (1 ≤ c.epoch ∧ c.epoch ≤ 86400)

/-- The staged configuration of a channel applied, its open epoch closed. -/
def applyChan (m : Mod) (ch : Nat) : Mod :=
  let x := evrChanOf m ch
  if !evrCfgOk x.staged then raiseInt m .evr 4
  else
    let m1 := updChan (closeEpoch m ch (nowT m)) ch (fun x => { x with cfg := x.staged })
    if chanOn m1 ch then openEpoch m1 ch (nowT m1) else m1

/-- EVR_CAPPLY's effect on the channel selected. -/
def evrCapply (m : Mod) : Mod := applyChan m m.evr.sel

/-- A change of EVR_CTL.EN: an EVR_CAPPLY on every channel; a channel whose staged fields are refused keeps its
configuration, and runs exactly while EN is set (log 46). -/
def evrSetEn (v : Bool) (m : Mod) : Mod :=
  if m.evr.en = v then m
  else
    let m1 := { m with evr := { m.evr with en := v } }
    let m2 := (List.range 64).foldl applyChan m1
    if v then openEpochs m2 else closeEpochs m2

/-! ### Reading and clearing the log (17 R433) -/

/-- The records EVR_READ returns. -/
def evrSpan (m : Mod) (c : Cmd) : List Bytes := (m.evr.log.drop (f64 c 0).toNat).take (f32 c 8)

/-- The result of EVR_READ for a number of records. -/
def evrResult (c : Cmd) (n : Nat) : Bytes := natLe 4 n ++ zeroBytes 4 ++ natLe 8 ((f64 c 0).toNat + n)

/-- EVR_READ: past the end of the log it returns nothing, otherwise its list is read first. -/
def progEvrRead : Prog := fun m tag c => do
  bodyLen c 24
  needBlk m .evr
  range (decide (1 ≤ f32 c 8 ∧ f32 c 8 ≤ 65536))
  reserved c 12 4
  if m.evr.log.length ≤ (f64 c 0).toNat then pure (okWith m (evrResult c 0))
  else pure (waitLists m tag c 0 (f64 c 16))

/-- JOB_END of an EVR_READ: the records go through its list, which has room for COUNT records (log 46); another list
breaks 08 R225. -/
def evrReadEnd (m : Mod) (tag : Nat) (c : Cmd) (io : JobIo) : Mod :=
  match io with
  | .twinReport _ => m
  | .readFailed _ | .linkLost _ => endCmd m tag stBadPointer []
  | .data _ outs _ _ _ _ =>
    let r := evrSpan m c
    let d := r.flatten
    let l := sglEntries outs
    if sglOk (f64 c 16) l (256 * f32 c 8) then endCmd (writeSgl (portFor m c) m l d) tag stOk (evrResult c r.length)
    else endCmd m tag stBadLength []

/-- EVR_CLEAR. -/
def progEvrClear : Prog := fun m tag c => do
  bodyLen c 0
  needBlk m .evr
  let q ← quorum m tag c clsMaintenance
  pure (.journal m (q ++ [.evrClear]) stOk (natLe 8 m.evr.log.length) false)

end Sys2Proof.Machine
end

