-- ==== Sys2Proof/Machine/Hlt.lean ====
section
/-! DEFINITION. Performance counters' snapshot and writes, known-answer tests, scrubbing and the health report
(17 R434, R438 to R442). -/

namespace Sys2Proof.Machine

/-! ### Counters (17 R434, R438) -/

/-- PMC_CTL.SNAP's effect: every counter copied at once. -/
def pmcSnap (m : Mod) : Mod := { m with pmc := { m.pmc with snap := m.pmc.cnt } }

/-- PMC_CTL.FREEZE's effect. -/
def pmcFreeze (v : Bool) (m : Mod) : Mod := { m with pmc := { m.pmc with freeze := v } }

/-- A write to a counter. -/
def pmcWrite (c : Nat) (v : W64) (m : Mod) : Mod :=
  if 256 ≤ c then m else { m with pmc := { m.pmc with cnt := tblSet m.pmc.cnt c (v.toNat % 2 ^ 48) } }

/-! ### Known-answer tests (17 R440, Table 17.5) -/

/-- A unit's block and its number in it. A block that Table 17.5 does not list is one unit, which is tested at a request
(02 Table 2.3). -/
def katPlace : KatUnit → Option (Blk × Nat)
  | .scePipe n => if n < 10 then some (.sce, n) else none
  | .ghash n => if n < 8 then some (.sce, 10 + n) else none
  | .numeral n => if n < 8 then some (.sce, 18 + n) else none
  | .dgePipe n => if n < 8 then some (.dge, n) else none
  | .pkeEngine n => if n < 64 then some (.pke, n) else none
  | .core n => if n < 64 then some (.txp, n) else none
  | .block b => if b = .sce ∨ b = .dge ∨ b = .pke ∨ b = .txp then none else some (b, 0)

/-- The pipeline of a unit of SCE: GHASH and numeral units stand with the AES pipelines (08 Table 8.2). -/
def pipeOfUnit (n : Nat) : Nat := if n < 10 then n else (n - 10) % 8

/-- Whether a unit is in service. -/
def katLive (m : Mod) (b : Blk) (n : Nat) : Bool :=
  match b with
  | .sce => m.sce.pipes.getLsbD (pipeOfUnit n)
  | .dge => m.dge.pipes.getLsbD n
  | .pke => m.pke.avail.getLsbD n
  | .txp => m.txp.coreAvail.getLsbD n
  | _ => true

/-- Whether Table 17.5 lists a block. -/
def katListed (b : Blk) : Bool := b == .sce || b == .dge || b == .pke || b == .txp || b == .rtb || b == .khs

/-- The units of a block that a full test of it takes, those in service. -/
def unitsOf (m : Mod) (b : Blk) : List Nat :=
  let n := match b with
    | .sce => 26
    | .dge => 8
    | .pke => 64
    | .txp => 64
    | _ => 1
  (List.range n).filter (katLive m b)

/-- Every unit in service. -/
def katUnits (m : Mod) : List (Blk × Nat) :=
  let all := (List.range 26).map (fun n => (Blk.sce, n)) ++ (List.range 8).map (fun n => (Blk.dge, n)) ++
    (List.range 64).map (fun n => (Blk.pke, n)) ++ (List.range 64).map (fun n => (Blk.txp, n)) ++ [(.rtb, 0), (.khs, 0)]
  all.filter (fun u => katLive m u.1 u.2)

/-- HLT_OLDEST, in ms. -/
def hltOldest (m : Mod) : Nat :=
  min 0xFFFFF ((katUnits m).foldl (fun a u => max a (m.clk - passedAt m u)) 0 / 1000000)

/-- OVERDUE follows a unit that has not passed for 100 ms; tests under way at the start do not count. -/
def noteOverdue (m : Mod) : Mod := if inService m && decide (100 ≤ hltOldest m) then raiseInt m .hlt 4 else m

/-- A command that used a pipeline since its last passing test, and has not completed, ends with ST_ABORTED: at once,
or with the completion it waits to give, its record or count being on its way (08 R236; log 45). -/
def abortUser (n : Nat) (m : Mod) (p : Nat × Cmd) : Mod :=
  match cmdOf m p.1 with
  | none => m
  | some c =>
    if !c.pipes.contains n then m
    else match c.phase with
      | .job => jobFailed m p.1 c stAborted
      | .commit _ | .space | .count _ _ => updCmd m p.1 (fun c => { c with outcome := some (stAborted, []) })
      | .ready _ _ =>
        if c.outcome.isSome then updCmd m p.1 (fun c => { c with outcome := some (stAborted, []) })
        else endCmd (leaveReady m p.1) p.1 stAborted []
      | .done => m
      | _ => endCmd m p.1 stAborted []

/-- Every command that used a withdrawn pipeline. -/
def abortUsers (m : Mod) (n : Nat) : Mod := m.cmq.cmds.foldl (abortUser n) m

/-- A command without a pipeline among those it used. -/
def Cmd.without (k : Nat) (c : Cmd) : Cmd := { c with pipes := c.pipes.filter (fun p => p != k) }

/-- A passing test of a pipeline clears what used it; one of its GHASH or numeral unit alone does not (08 R236). -/
def clearUsed (m : Mod) (b : Blk) (n : Nat) : Mod :=
  let drop := fun (k : Nat) => { m with cmq := { m.cmq with cmds := tblMap m.cmq.cmds (fun _ c => c.without k) } }
  match b with
  | .sce => if n < 10 then drop n else m
  | .dge => drop (16 + n)
  | .pke => engineTested m n
  | _ => m

/-- RNG_HEALTH_TEST_FAIL: where the generators halt, commands in flight that still need them or a masked pipeline end
(05 R164, 10 Table 10.5). -/
def opRngHealthTest (n : Nat) (runs : List (List Bool)) (m : Mod) : Mod :=
  let m1 := opHealthTestFail n runs m
  if m1.rng.halted && !m.rng.halted then
    let m2 := m1.cmq.cmds.foldl jobHalt m1
    m2.cmq.cmds.foldl pkHalt m2
  else m1

/-- A core to be withdrawn leaves service once its contexts hold no command (04 R119). -/
def withdrawCore (m : Mod) (n : Nat) : Mod :=
  if m.cmq.cmds.any (fun p => p.2.core == n && holdsCtx p.2.phase) then m
  else
    let off := ~~~(BitVec.ofNat 64 (2 ^ n))
    raiseInt (healthAtLeast
      { m with
        txp := { m.txp with coreAvail := m.txp.coreAvail &&& off, leaving := m.txp.leaving &&& off }
        sch := { m.sch with waiting := m.sch.waiting.filter (fun x => x.1 != n) } } .txp 2) .txp 2

/-- Cores whose last command ended leave service. -/
def withdrawCores (m : Mod) : Mod :=
  if m.txp.leaving = 0 then m
  else (List.range 64).foldl (fun m n => if m.txp.leaving.getLsbD n then withdrawCore m n else m) m

/-- A unit withdrawn by its failed test. -/
def katWithdraw (m : Mod) (b : Blk) (n : Nat) : Mod :=
  match b with
  | .sce =>
    let p := pipeOfUnit n
    let m1 := { m with sce := { m.sce with pipes := m.sce.pipes &&& ~~~(BitVec.ofNat 10 (2 ^ p)) } }
    abortUsers (raiseErr (healthAtLeast m1 .sce 2) .sce 0 1 (BitVec.ofNat 64 p)) p
  | .dge =>
    let m1 := { m with dge := { m.dge with pipes := m.dge.pipes &&& ~~~(BitVec.ofNat 8 (2 ^ n)) } }
    abortUsers (raiseErr (healthAtLeast m1 .dge 2) .dge 0 1 (BitVec.ofNat 64 n)) (16 + n)
  | .pke => withdrawEngine m n
  | .txp => withdrawCore { m with txp := { m.txp with leaving := m.txp.leaving ||| BitVec.ofNat 64 (2 ^ n) } } n
  | .khs => updBlk m .khs (fun h => { h with fault := true })
  | b => healthAtLeast m b 3

/-- A test failed: counted, reported and the unit withdrawn. -/
def katFail (m : Mod) (b : Blk) (n : Nat) : Mod :=
  let m1 := { m with hlt := { m.hlt with fails := m.hlt.fails + 1 } }
  let m2 := raiseErr m1 .hlt 0 1 (BitVec.ofNat 64 (b.idx + n * 256))
  katWithdraw (raiseInt m2 b 0x40000000) b n

/-- A block's header as the test of a unit runs: with it a requested test of the whole block starts, which clears the
request, or goes on; FAULT tells how the last test ended (02 Tables 2.3, 2.4). -/
def testHdr (units : List Nat) (n : Nat) (pass : Bool) (h : BlkHdr) : BlkHdr :=
  let todo := if h.testReq then units else h.testLeft
  let bad := (todo.contains n && !pass) || (!h.testReq && h.testBad)
  let last := if todo.erase n = [] ∧ todo ≠ [] then bad else !pass
  { h with testReq := false, testLeft := todo.erase n, testBad := bad, fault := last || decide (3 ≤ h.health) }

/-- A test of a unit run. -/
def runKat (m : Mod) (u : KatUnit) (pass : Bool) : Mod :=
  match katPlace u with
  | none => m
  | some (b, n) =>
    if !katLive m b n ∨ (!katListed b && !(blkOf m b).testReq) ∨ (b = .pke ∧ testable m n = false) then m
    else
      let m0 := if b = .pke then testEngine m n else m
      let m1 := updBlk m0 b (testHdr (unitsOf m b) n pass)
      if !katListed b then (if pass then m1 else raiseInt m1 b 0x40000000)
      else
        let m2 := { m1 with hlt := { m1.hlt with runs := m1.hlt.runs + 1 } }
        if pass then clearUsed { m2 with hlt := { m2.hlt with passed := tblSet m2.hlt.passed (katKey b n) m2.clk } } b n
        else katFail m2 b n

/-- KAT_RUN. -/
def opKatRun (u : KatUnit) (pass : Bool) (m : Mod) : Mod := if inService m then noteOverdue (runKat m u pass) else m

/-- PKE_ENGINE_TEST: slot 0x00 of an engine (10 R284). -/
def opEngineTest (e : Nat) (pass : Bool) : Mod → Mod := opKatRun (.pkeEngine e) pass

/-! ### Scrubbing (17 R441) -/

/-- Words of the 88 MiB of SRAM, of 8 bytes (PRESUMED, log 46). -/
def sramWords : Nat := 11534336

/-- The owning block's handling of an uncorrectable error: of a core's local memory, whose place names the core, and of
the line store, whose place names the line (04 R119, 06 R179; log 46). -/
def eccOwner (m : Mod) (b : Blk) (addr : Nat) : Mod :=
  match b with
  | .txp => if katLive m .txp (addr % 64) then katWithdraw m .txp (addr % 64) else m
  | .kch => opLineEcc (addr % lineTotal) m
  | _ => m

/-- SRAM_SCRUB: one word read. -/
def opSramScrub (b : Blk) (addr : Nat) (e : EccErr) (m : Mod) : Mod :=
  if !m.powered then m
  else
    let n := m.hlt.scrubbed + 1
    let m1 := if n < sramWords then { m with hlt := { m.hlt with scrubbed := n } }
      else { m with hlt := { m.hlt with scrubbed := 0, scrubPass := m.hlt.scrubPass + 1 } }
    match e with
    | .none => m1
    | .correctable =>
      let h := { m1.hlt with
        corr := m1.hlt.corr + 1, epochCorr := m1.hlt.epochCorr + 1
        dirty := if m1.hlt.dirty.contains b.idx then m1.hlt.dirty else b.idx :: m1.hlt.dirty }
      let m2 := healthAtLeast { m1 with hlt := h } b 1
      if b = .txp then raiseInt m2 .txp 4 else m2
    | .uncorrectable =>
      eccOwner (raiseInt { m1 with hlt := { m1.hlt with uncorr := m1.hlt.uncorr + 1 } } .hlt 2) b addr

/-- The HLT epoch of 60 s, aligned to external time, that holds an instant. -/
def hltEpochOf (ns : Nat) : Nat := ns / (60 * nsPerS)

/-- HLT_EPOCH_END: blocks that saw no correctable error return from health 1 to 0, once the epoch is over. -/
def opHltEpochEnd (m : Mod) : Mod :=
  if hltEpochOf (extNs m) ≤ m.hlt.epoch then m
  else
    let clean := blkList.filter (fun b => !m.hlt.dirty.contains b.idx)
    let m1 := clean.foldl (fun m b => updBlk m b (fun h => { h with health := if h.health = 1 then 0 else h.health })) m
    { m1 with hlt := { m1.hlt with dirty := [], epochCorr := 0, epoch := hltEpochOf (extNs m) } }

/-! ### The health report (17 R442, Table 17.6) -/

/-- RNG_STAT (05 Table 5.14). -/
def rngStat (m : Mod) : Nat :=
  (if m.rng.d0.ready then 1 else 0) + (if m.rng.d1.ready then 2 else 0) + (if m.rng.single then 4 else 0) +
    (if m.rng.halted then 8 else 0)

/-- TIM_HOLD_AGE, in seconds; 0 while no holdover runs (13 Table 13.9). -/
def holdAgeS (m : Mod) : Nat := if m.tim.mode = .locked ∨ m.tim.mode = .unset then 0 else min 0xFFFFFFFF (holdAge m / nsPerS)

/-- The report. -/
def healthReport (m : Mod) : Bytes :=
  let ds := devStat m
  let bit := fun (n k : Nat) => if ds.getLsbD n then 2 ^ k else 0
  let flags := bit 0 0 + bit 4 1 + bit 5 2 + bit 2 3 + (if serveOk m then 16 else 0)
  let nibs := (List.range 24).map (fun n => (blkOfIdx n).elim 0 (fun b => (blkOf m b).health % 16))
  let health := (List.range 12).map (fun i => byteOf (nibs.getD (2 * i) 0 + nibs.getD (2 * i + 1) 0 * 16))
  let fault := blkList.foldl (fun a b => if (blkOf m b).fault then a + 2 ^ b.idx else a) 0
  let recent := m.hlt.finished.countP (fun x => decide (m.clk ≤ x + 100000000))
  let b1 := [1, byteOf m.tlk.role.code, byteOf (lcState m), byteOf flags] ++ zeroBytes 4 ++ le64 Config.devUid ++
    le64 (nowT m) ++ le64 m.hlt.seq ++ health ++ natLe 4 fault
  let b2 := le64 m.txp.coreAvail ++ le64 m.pke.avail ++ natLe 2 m.sce.pipes.toNat ++ natLe 1 m.dge.pipes.toNat ++
    natLe 1 (rngStat m) ++ natLe 4 (hltOldest m) ++ le64 m.hlt.runs
  let b3 := natLe 4 m.hlt.fails.toNat ++ natLe 4 m.hlt.epochCorr ++ natLe 4 m.hlt.uncorr.toNat ++
    natLe 4 m.rng.htFail.toNat ++ le16 m.ssv.tempA ++ le16 m.ssv.tempB ++ le16 m.sb.vin ++ zeroBytes 2
  let b4 := natLe 2 (tagsUsed m) ++ zeroBytes 2 ++ natLe 4 recent ++ le64 (jsnReport m) ++ le32 m.tim.lastOffset ++
    natLe 4 (holdAgeS m) ++ zeroBytes 124
  let b := b1 ++ b2 ++ b3 ++ b4
  b ++ le32 (crc32c b)

/-- HEALTH_REPORT_PUBLISH. -/
def opHealthPublish (m : Mod) : Mod :=
  if !inService m then m
  else
    let m1 := noteOverdue { m with hlt := { m.hlt with seq := m.hlt.seq + 1 } }
    let r := healthReport m1
    let m2 := { m1 with hlt := { m1.hlt with report := r } }
    emit (sendTwin m2 (.health r)) (.sideband r)

end Sys2Proof.Machine
end

