-- ==== Sys2Proof/Machine/Start.lean ====
section
/-! DEFINITION. Supplies, resets and the start-up sequence, power loss and flush-only mode, the store, the role at start
and the link handshake (18 R448 to R467, 19 R469 to R481, 14 R364, R375). -/

namespace Sys2Proof.Machine

/-! ### A reset of the core die (18 R461, 19 R473, R477) -/

/-- A tenant's saved settings, the rest at its reset value (19 R473). -/
def savedTen (h : TenHost) : TenHost :=
  { TenHost.reset with
    attA := h.attA, attB := h.attB, attNet := h.attNet, fifoPort := h.fifoPortNew.getD h.fifoPort, tvec := h.tvec
    tnct := h.tnct, vfA := h.vfA, vfB := h.vfB, sessCap := h.sessCap, weight := h.weight, cap := h.cap
    maxPrio := h.maxPrio, kstCap := h.kstCap, tage := h.tage, lineMax := h.lineMax, routeCap := h.routeCap
    recCap := h.recCap }

/-- The network settings saved; links are down until they come up. -/
def savedNif (n : NifState) : NifState :=
  { n with
    port := tblMap n.port (fun _ p => { p with link := false, fec := false })
    drop := 0, giveup := 0, sess := [] }

/-- What the journal keeps across a reset: committed records, counts from the store, the flushed state. -/
def keptJnl (j : JnlState) : JnlState :=
  { JnlState.reset with
    holdup := j.holdup, jsnLast := j.jsnCommit, jsnCommit := j.jsnCommit, ckptJsn := j.ckptJsn
    ringOldest := j.ringOldest, pfStat := j.pfStat, pfFlushUs := j.pfFlushUs, pfCnt := j.pfCnt, wear := j.wear
    reclaim := j.reclaim, ring := j.ring, sealedIn := j.sealedIn, evidence := j.evidence, flushed := j.flushed
    resetHeld := j.resetHeld }

/-- What is kept of the pair: the pairing, and the role held when the core die stopped (14 R375). -/
def keptTlk (m : Mod) : TlkState :=
  let t := m.tlk
  { TlkState.reset with
    paired := t.paired, home := t.home, peerUid := t.peerUid, roleEpoch := t.roleEpoch, jsnAcked := t.jsnAcked
    jsnApplied := t.jsnApplied, alone := t.alone, divLog := t.divLog, divHeld := t.divHeld
    shutRole := if inService m then t.role else t.shutRole }

/-- Settings of the key cache, scheduler, route table and stream engine that are saved. -/
def savedUnits (m : Mod) : Mod :=
  { Mod.reset with
    sch := { SchState.reset with age := m.sch.age, quantum := m.sch.quantum }
    bsx := { BsxState.reset with
      win := tblMap m.bsx.win (fun _ w => { w with refused := false }), retryGap := m.bsx.retryGap, pend := m.bsx.pend, held := m.bsx.held }
    rtb := { RtbState.reset with poolLow := m.rtb.poolLow }
    sce := { SceState.reset with streamIdle := m.sce.streamIdle, strBase := { Stream.reset with lost := true } }
    pmc := { PmcState.reset with allow := m.pmc.allow } }

/-- A Leeward's acknowledged records are committed, whatever stops it (14 R366); what it took while it resynchronised it has
not acknowledged, and loses. -/
def ackedKept (m : Mod) : Mod := if m.tlk.role == .leeward && !m.tlk.stale then applyReceived m else m

/-- The core die off: its volatile state is gone; the supervisor, OTP and the store stay. The maintenance window is
closed. The last stamp is saved as the floor of time (13 R356). -/
def coreReset (m0 : Mod) : Mod :=
  let m := ssvMaint (ackedKept m0) false
  { savedUnits m with
    clk := m.clk, free := m.free, out := m.out, resets := m.resets + 1
    port := tblMap m.port (fun _ p => { PortState.reset with perst := p.perst })
    nif := savedNif m.nif
    ten := tblMap m.ten (fun _ h => savedTen h)
    tenBase := savedTen m.tenBase
    txp := { TxpState.reset with svnFloor := m.txp.svnFloor }
    khs := { KhsState.reset with esc := m.khs.esc, cert := m.khs.cert }
    tim := { TimState.reset with floor := if m.powered then nowT m else m.tim.floor }
    tlk := keptTlk m
    jnl := keptJnl m.jnl
    ssv := m.ssv
    lcc := { LccState.reset with words := m.lcc.words, helper := m.lcc.helper, intent := m.lcc.intent }
    sb := m.sb
    evr := { EvrState.reset with
      log := m.evr.log, full := m.evr.full, seq := m.evr.seq
      chan := tblMap m.evr.chan (fun _ c => { c with epoch := none, late := none }) }
    dur := m.dur }

/-- The core die starts: its time runs on from the floor (19 R469, 13 R356). -/
def coreOn (m : Mod) : Mod :=
  { m with
    powered := true
    hlt := { m.hlt with began := m.clk, epoch := hltEpochOf (nsOf m.tim.floor) }
    tim := { m.tim with offset := (nsOf m.tim.floor : Int) - (m.clk : Int) }
    sb := { m.sb with thermTrip := false } }

/-- A reset followed at once by a start. -/
def coreRestart (m : Mod) : Mod := coreOn (coreReset m)

/-! ### READY (19 R469) -/

/-- A bit of JNL_BOOT_STAT set. -/
def bootBit (m : Mod) (n : Nat) : Mod := { m with jnl := { m.jnl with boot := m.jnl.boot ||| BitVec.ofNat 8 (2 ^ n) } }

/-- Whether this start can end in READY now: nothing failed, the role settled, the bank charged (18 R449, R466). -/
def canReady (m : Mod) : Bool :=
  m.powered && m.jnl.fit && !inService m && m.tlk.starting.isNone && decide (150 ≤ m.jnl.holdup) && !m.sb.thermTrip &&
    !m.jnl.flushing && !m.rng.halted && !(blkOf m .khs).locked && !(blkOf m .txp).locked

/-- The system timers of the snapshot of budgets and of the health report, by number, with their periods in ns (04 Table
4.2, 09 R254, 17 R442). -/
def snapshotTimer : Nat := 1
def healthTimer : Nat := 2
def snapshotGap : Nat := nsPerS
def healthGap : Nat := 100000000

/-- Both cadences begin. -/
def startCadence (m : Mod) : Mod :=
  insTimer (insTimer m (.system snapshotTimer) (t64Add (nowT m) snapshotGap)) (.system healthTimer)
    (t64Add (nowT m) healthGap)

/-- A cadence: where its timer is due it fires, is placed again and acts. -/
def onCadence (n gap : Nat) (f : Mod → Mod) (m : Mod) : Mod :=
  match firing m (.system n) with
  | none => m
  | some t => f (insTimer (takeTimer m t) (.system n) (t64Add t.due gap))

/-- READY set, with what follows it: the epochs of the recorder open. -/
def tryReady (m : Mod) : Mod :=
  if !canReady m then m
  else
    let m1 := bootBit { m with devReady := true } 0
    startCadence (openEpochs (restartHalfOpen { m1 with jnl := { m1.jnl with bootMs := min 65535 ((m.clk - m.hlt.began) / 1000000) } }))

/-! ### The start-up sequence (19 Tables 19.1, 19.2) -/

/-- A read of the array with more than 6 % of its bits in error (05 R128). -/
def pufMargin (m : Mod) : Mod := healthAtLeast (raiseInt m .khs 1) .khs 1

/-- Regeneration of the unit secret (05 R128, R129); a unit with no helper data has none. -/
def startPuf (o : StartOutcome) (m : Mod) : Mod :=
  match m.lcc.helper with
  | none => m
  | some h =>
    let r := regenerate h o.puf
    let m1 := match r.dus with
      | some d => { m with khs := { m.khs with pufOk := true, pufReads := r.reads, pufBits := r.errors, dus := some d } }
      | none => updBlk { m with khs := { m.khs with pufFail := true, pufReads := r.reads } } .khs (fun h => { h with fault := true })
    if r.high then pufMargin m1 else m1

/-- Life-cycle decode, taken twice (16 R412, R413, R420). -/
def startDecode (o : StartOutcome) (m : Mod) : Mod :=
  let m1 := if o.decodeAgree then m else disagree m .lcc
  let s := if o.decodeAgree then lcDecode m1 else 7
  if s = 7 then
    let m2 := { m1 with lcc := { m1.lcc with decoded := some 7 } }
    if o.decodeAgree then raiseInt m2 .lcc 4 else raiseErr m2 .lcc 2 2 0
  else { m1 with lcc := { m1.lcc with decoded := some s, intent := none } }

/-- A source's start-up tests: one that fails repeats them and is marked failed at the third failure (05 R159, R160);
runs that the outcome does not hold give no sample and fail as stuck ones. -/
def startSource (n : Nat) (runs : List (List Bool)) (m : Mod) : Mod :=
  testSources n m (((runs ++ [[], [], []]).take 3).map (fun (l : List Bool) =>
    if l.length < 1024 then List.replicate 1024 false else l.take 1024))

/-- Entropy sources and generators (05 R159 to R161, R164). -/
def startRng (o : StartOutcome) (m : Mod) : Mod :=
  let m1 := startSource 1 o.es2 (startSource 0 o.es1 m)
  if m1.rng.halted then m1
  else
    let d : Drbg := { ready := true, requests := 0, since := m1.clk }
    { m1 with rng := { m1.rng with d0 := d, d1 := d } }

/-- LCC_NONCE drawn (16 R414), the identity key made (05 R133). -/
def startIdentity (m : Mod) : Mod :=
  let m1 := if m.rng.halted then { m with lcc := { m.lcc with nonceUsed := true } }
    else { afterDraw m 32 with lcc := { (afterDraw m 32).lcc with nonce := drawn m 32, nonceUsed := false } }
  match m1.khs.dus with
  | some d => if lcState m1 = 0 then m1 else { m1 with khs := { m1.khs with idKey := some (identityOf d) } }
  | none => m1

/-- The stored calibration set checked (15 R407). -/
def startCal (o : StartOutcome) (m : Mod) : Mod :=
  let m1 := { m with ssv := { m.ssv with calDefault := !o.calOk } }
  if o.calOk then m1 else raiseErr (trigger m1 0x6E 0 0) .ssv 0 1 0

/-- Two temperature detectors more than 2 °C apart are not cross-calibrated: TEMP_DISAGREE triggers (15 R390). -/
def startTemps (o : StartOutcome) (m : Mod) : Mod :=
  if o.tempApart ≤ 32 then m
  else respond m 0x4E ((respOf m 0x4E).getD 1) 0 (BitVec.ofNat 32 o.tempApart) 32 false

/-- A held record whose check fails at read-out: CHECK_BAD, error 0x0002 with its slot (15 R399; log 56). -/
def startBadRec (m : Mod) (n : Nat) : Mod :=
  match tblFind m.ssv.recs n with
  | none => m
  | some r =>
    if r.copied then m
    else
      raiseErr { m with ssv := { m.ssv with recs := tblSet m.ssv.recs n { r with checkBad := true } } } .ssv 4 2
        (BitVec.ofNat 64 (n % 64))

/-- The supervisor's records are read out, and those of the Lull reported (15 R399). -/
def startRecs (o : StartOutcome) (m : Mod) : Mod :=
  let m1 := o.badRecs.foldl startBadRec m
  if m1.ssv.recs.any (fun p => p.2.lull && !p.2.copied) then raiseInt m1 .ssv 0x10 else m1

/-- What the supervisor hands over at a start. -/
def startSsv (o : StartOutcome) (m : Mod) : Mod := startTemps o (startRecs o (startCal o m))

/-- The life-cycle states in which a unit has roots and serves (05 Table 5.2, 16 Table 16.1). -/
def rootedState (m : Mod) : Bool := decide (1 ≤ lcState m ∧ lcState m ≤ 4)

/-- Settings and pairing that no key opens any more are gone (05 R135, 19 R473). -/
def dropConfig (m : Mod) : Mod :=
  let r := Mod.reset
  let m1 := { m with
    nif := { r.nif with port := [] }
    ten := [], tenBase := TenHost.reset, sch := r.sch, rtb := r.rtb
    bsx := { r.bsx with pend := m.bsx.pend, held := m.bsx.held }
    sce := { m.sce with streamIdle := r.sce.streamIdle }
    pmc := r.pmc
    evr := { m.evr with chan := [] } }
  { m1 with tlk := { TlkState.reset with shutRole := .unpaired } }

/-- The start goes on to ERASED_HOLD (05 R131, 15 R400): no restore, no replay. -/
def startErased (m : Mod) : Mod :=
  let m1 := dropConfig (zeroRoots (bootBit (raiseInt m .khs 2) 7))
  { m1 with
    khs := { m1.khs with eshMismatch := true, eshPresent := false }
    ssv := { m1.ssv with tamper := .hold }
    bsx := { m1.bsx with pend := [], held := [] }
    tlk := { m1.tlk with role := .held }
    jnl := { m1.jnl with fit := true, ring := [], ringOldest := m1.jnl.jsnCommit + 1 }
    rng := { m1.rng with d0 := { m1.rng.d0 with ready := !m.rng.halted }, d1 := { m1.rng.d1 with ready := !m.rng.halted } }
    dur := { lostDur m1.dur with tcfg := TimeCfg.reset } }

/-- Objects sealed under another life-cycle state cannot be opened: what they held is absent, they await reclamation
(05 R135, 19 R474); how many bytes they take is free (log 5). -/
def dropSealed (m : Mod) : Mod :=
  if m.jnl.sealedIn.all (fun h => h.1 == lcState m) then m
  else
    let m1 := dropConfig m
    afterChoice { m1 with
      bsx := { m1.bsx with pend := [], held := [] }
      jnl := { m1.jnl with
        sealedIn := none, ring := [], ringOldest := m1.jnl.jsnCommit + 1, reclaim := BitVec.ofNat 64 (choice m1) }
      dur := { lostDur m1.dur with tcfg := TimeCfg.reset } }

/-- Roots released over the share the supervisor holds (05 R134). -/
def startRooted (m : Mod) (dus esh : Bytes) : Mod :=
  dropSealed (releaseRoots { m with khs := { m.khs with eshPresent := true }, ssv := { m.ssv with tamper := .normal } } dus esh)

/-- The decision on the erase share (05 R131). -/
inductive EshDecision where
  | rooted (dus esh : Bytes)
  | fresh (dus : Bytes)
  | mismatch
  deriving DecidableEq, Repr

/-- What the supervisor holds against what the store recorded. -/
def eshDecision (m : Mod) (dus : Bytes) : EshDecision :=
  let held := m.jnl.sealedIn.any (fun h => h.1 == lcState m)
  let other := if held || m.ssv.squalled then EshDecision.mismatch else .fresh dus
  match m.ssv.esh with
  | none => other
  | some e => if !m.ssv.squalled && m.khs.esc == some (escOf dus e) then .rooted dus e else other

/-- A fresh erase share (05 R131), or ERASED_HOLD while no generator works. -/
def startFresh (m : Mod) (dus : Bytes) : Mod :=
  if m.rng.halted then m
  else
    let m1 := startRooted m dus []
    freshEsh m1 dus

/-- The decision to release the roots, taken twice. In DECOMMISSIONED there are none, and nothing sealed before can be
opened (05 Table 5.2, R135). -/
def startRoots (o : StartOutcome) (m : Mod) : Mod :=
  match m.khs.dus with
  | none => m
  | some dus =>
    if lcState m = 5 then dropSealed m
    else if !rootedState m then m
    else if !o.rootAgree then disagree m .khs
    else match eshDecision m dus with
      | .mismatch => startErased m
      | .rooted d e => startRooted m d e
      | .fresh d => startFresh m d

/-- Whether a slot's image may run (04 R120). -/
def slotUsable (m : Mod) (x : ImgSlot) : Bool :=
  x.usable && Config.imageVerdict x.image && decide (m.txp.svnFloor.toNat ≤ x.svn.toNat)

/-- The slot whose image runs: the higher version, A on a tie. -/
def chooseSlot (m : Mod) : Option Port :=
  let a := slotUsable m m.dur.imgA
  let b := slotUsable m m.dur.imgB
  if a && b then some (if m.dur.imgA.version.toNat < m.dur.imgB.version.toNat then .b else .a)
  else if a then some .a
  else if b then some .b
  else none

/-- The program slots that hold a program: those of Table 10.1 in the image of delivery, and what the maker added in a
later one (10 R272; log 8). -/
def imageSlots (img : Bytes) : W64 :=
  0xFFFFFF ||| (if img = Config.factoryImage then 0 else Config.imagePrograms img &&& 0xFFFFFFFFFF000000)

/-- The microcode image chosen, its verdict taken twice (04 R120, 15 R403). -/
def startImage (o : StartOutcome) (m : Mod) : Mod :=
  if !o.imageAgree then bootBit (disagree m .txp) 1
  else match chooseSlot m with
    | none => bootBit m 1
    | some p =>
      let x := if p = .a then m.dur.imgA else m.dur.imgB
      let y := if p = .a then m.dur.imgB else m.dur.imgA
      { m with
        txp := { m.txp with
          imageLoaded := true, slot := p, pending := false, otherValid := slotUsable m y, version := x.version, svn := x.svn
          coreAvail := 0xFFFFFFFFFFFFFFFF }
        pke := { m.pke with slotValid := imageSlots x.image } }

/-- Every unit of Table 17.5. -/
def katAll : List KatUnit :=
  (List.range 10).map .scePipe ++ (List.range 8).map .ghash ++ (List.range 8).map .numeral ++
    (List.range 8).map .dgePipe ++ (List.range 64).map .pkeEngine ++ (List.range 64).map .core ++
      [.block .rtb, .block .khs]

/-- Whether a block passed every start-up test of its units. -/
def startPassed (o : StartOutcome) (b : Blk) : Bool :=
  o.katFails.all (fun u => (katPlace u).elim true (fun p => p.1 != b))

/-- Known-answer tests of every unit; blocks that passed report READY (17 R440, 02 Table 2.4). -/
def startTests (o : StartOutcome) (m : Mod) : Mod :=
  let m1 := { m with pke := { m.pke with avail := 0xFFFFFFFFFFFFFFFF } }
  let m2 := katAll.foldl (fun m u => runKat m u (!o.katFails.contains u)) m1
  blkList.foldl (fun m b => updBlk m b (fun h => { h with ready := startPassed o b, fault := h.fault || !startPassed o b })) m2

/-- What a table that failed in both copies takes with it (19 Tables 19.2, 19.3). -/
def dropTable (m : Mod) (k : Nat) : Mod :=
  let d := m.dur
  match k with
  | 4 =>
    let m1 := dropConfig m
    { m1 with dur := { d with
      dom := tblErase d.dom deviceDomain, tcfg := TimeCfg.reset, revertEn := false, revertHold := 60 } }
  | 5 =>
    { m with dur := { d with
      ten := [], sess := [], bud := [], sched := [], snaps := [], dom := d.dom.filter (fun p => p.1 == deviceDomain) } }
  | 6 => { m with dur := { d with kst := [] } }
  | 7 => { m with dur := { d with rt := [] } }
  | 8 => { m with dur := { d with reqids := [] } }
  | _ => m

/-- Counters of OTP reconciled with the committed records (05 R138, Table 5.3); a tenant whose counter is higher than its
record is not served (`rolledBack`). -/
def reconcile (o : StartOutcome) (m : Mod) : Mod :=
  let d := m.dur
  let raise := fun (a : Tbl Nat) (p : Nat × Tenant) => if tblGet 0 a p.1 < p.2.epoch then tblSet a p.1 (otpUpTo a p.1 p.2.epoch) else a
  let stuck := d.ten.any (fun p => otpStuck d.otp p.1 p.2.epoch)
  let weak := o.otpWeak.filter (fun t => decide (t < 4096) && decide (0 < tblGet 0 d.otp t))
  let m1 := { m with
    dur := { d with otp := d.ten.foldl raise d.otp }
    khs := { m.khs with
      repaired := weak.foldl (fun a t => tblSet a t true) m.khs.repaired, repairedCnt := min 255 weak.length
      progFail := m.khs.progFail || stuck } }
  if weak.isEmpty then m1 else raiseInt m1 .khs 4

/-- Blob writes of the replayed tail repeated, then those of the flushed state (19 R480). -/
def replayBlobs (m : Mod) (tail : List (JRecord × W64)) : Mod :=
  let blobs := (tail.map (fun p => p.1.effects.filterMap (fun e =>
    match e with
    | .blob t i b => some (t, i, b)
    | _ => none))).flatten
  reissueBlobs (blobs.foldl (fun m b => writeBlob m b.1 b.2.1 b.2.2) m)

/-- The journal replayed from the latest checkpoint; the tail's size is free (log 5). -/
def replay (m : Mod) : Mod :=
  let tail := m.jnl.ring.filter (fun p => decide (m.jnl.ckptJsn.toNat < p.1.jsn.toNat))
  if tail.isEmpty then reissueBlobs m
  else
    let m1 := bootBit { m with jnl := { m.jnl with replayBytes := choice m % 33554433 } } 4
    replayBlobs (afterChoice m1) tail

/-- The flushed state found: whether it is whole (19 R477). A state that fails its check is absent: no pending writes,
no role (log 48). -/
def startFlushed (o : StartOutcome) (m : Mod) : Mod :=
  match m.jnl.flushed with
  | none => m
  | some whole =>
    let m1 := if whole then bootBit m 5 else m
    let m2 := if whole && !o.tornFlush then m1 else bootBit (raiseInt m1 .jnl 0x10) 6
    let m3 := { m2 with jnl := { m2.jnl with flushed := none } }
    if o.tornFlush then
      { m3 with bsx := { m3.bsx with pend := [], held := [] }, tlk := { m3.tlk with shutRole := .held } }
    else m3

/-- Durable tables in service: sessions taken over, timers rebuilt (12 R334, 04 R112). -/
def startTables (o : StartOutcome) (m : Mod) : Mod := rebuildTimers (takeoverSess (reconcile o m))

/-- The role of a unit whose tables stand: alone at once, a paired unit after its handshake (14 R375, 09 R255). -/
def startRoleWait (m : Mod) : Mod :=
  if m.tlk.paired then { m with tlk := { m.tlk with starting := some m.clk } }
  else { m with tlk := { m.tlk with countsLost := true } }

/-- Table restore and replay (19 R480, Table 19.2). -/
def startRestore (o : StartOutcome) (m : Mod) : Mod :=
  let m1 := startFlushed o m
  match o.restoreFail with
  | none =>
    let m2 := startRoleWait (replay (startTables o m1))
    { m2 with jnl := { m2.jnl with fit := true } }
  | some k =>
    let m2 := bootBit (raiseErr (dropTable m1 k) .jnl 2 2 (BitVec.ofNat 64 (k % 16))) 2
    if m2.tlk.paired then
      let m3 := startTables o m2
      { m3 with
        tlk := { m3.tlk with role := .held, allBlobs := true, jsnApplied := 0 }
        jnl := { m3.jnl with fit := true } }
    else updBlk m2 .jnl (fun h => { h with fault := true })

/-- The hold-up bank at the end of the restore (18 R449). -/
def startHoldup (o : StartOutcome) (m : Mod) : Mod :=
  let e := max m.jnl.holdup (min 65535 o.holdupMj)
  let m1 := { m with jnl := { m.jnl with holdup := e } }
  if e < 150 ∧ m.jnl.fit then bootBit m1 3 else m1

/-- Ports whose reset is released answer configuration (19 R470). -/
def startPorts (m : Mod) : Mod :=
  let one := fun (m : Mod) (p : Port) => if (portOf m p).perst then m else updPort m p (fun s => { s with cfgReady := true })
  one (one m .a) .b

/-- Whether the sequence ends before microcode is loaded: no unit secret, or LOCKED (05 R129, 16 R413). -/
def startStops (m : Mod) : Bool := m.khs.pufFail || lcState m == 7

/-- Whether the roots came: released, or the unit goes to ERASED_HOLD. -/
def startHasRoots (m : Mod) : Bool := m.khs.dsk.isSome

/-- What the store reports as it is read (19 R475, Table 19.8): wear never falls, and at 80 % WEAR_HIGH is set
(log 52); a read it could not correct is error 0x0001. -/
def startStore (o : StartOutcome) (m : Mod) : Mod :=
  let w := max m.jnl.wear (min 1023 o.wear)
  let m1 := { m with jnl := { m.jnl with wear := w, flashEcc := m.jnl.flashEcc + BitVec.ofNat 64 o.flashFixed } }
  let m2 := o.flashBad.elim m1 (fun a => raiseErr m1 .jnl 2 1 (BitVec.ofNat 64 a))
  if m.jnl.wear < 800 ∧ 800 ≤ w then raiseInt m2 .jnl 8 else m2

/-- The sequence from the image on. -/
def startRest (o : StartOutcome) (m : Mod) : Mod :=
  let m1 := startPorts (startImage o (startStore o m))
  if !m1.txp.imageLoaded then { m1 with jnl := { m1.jnl with fit := false } }
  else
    let m2 := startTests o m1
    startHoldup o (if startHasRoots m2 && !m2.rng.halted then startRestore o m2 else m2)

/-- MODULE_START: the sequence of Table 19.1, its steps on one instant (log 1). -/
def opModuleStart (o : StartOutcome) (m : Mod) : Mod :=
  if !m.powered ∨ m.jnl.started ∨ m.jnl.flushing then m
  else
    let m1 := startSsv o (startIdentity (startDecode o (startPuf o (startRng o { m with jnl := { m.jnl with started := true } }))))
    if startStops m1 then startPorts m1
    else tryReady (startRest o (startRoots o m1))

/-! ### Supplies and resets -/

/-- SUPPLIES_VALID (18 R448). -/
def opSuppliesValid (m : Mod) : Mod :=
  let m1 := { m with ssv := { m.ssv with power := .main } }
  if m1.powered ∨ m1.jnl.resetHeld then m1 else coreOn (coreReset m1)

/-- POWER_FAIL_TRIGGER: flush-only mode (18 R463, 19 R477). Every command in the unit loses its completion. -/
def opPowerFail (src : Nat) (m : Mod) : Mod :=
  if !m.powered ∨ m.jnl.flushing ∨ src = 0 ∨ 3 < src then m
  else
    let bit := fun (n : Nat) (b : Bool) => if b then 2 ^ n else 0
    let st := src + bit 4 (!inService m) + bit 3 (m.ssv.tamper == .erased)
    let m1 := { m with jnl := { m.jnl with flushing := true, pfStat := BitVec.ofNat 5 st, pfCnt := m.jnl.pfCnt + 1 } }
    let m2 := dropCapsules (haltPke (closeEpochs m1))
    { m2 with
      cmq := { m2.cmq with cmds := [] }
      sch := { m2.sch with rings := [] }
      sce := { m2.sce with jobs := [] }
      dge := { m2.dge with jobs := [] } }

/-- FLUSH_COMPLETE: what was written, then the core die idles, and starts again where the supplies stayed (18 R463). -/
def opFlushComplete (us : Nat) (supplies torn : Bool) (m : Mod) : Mod :=
  if !m.jnl.flushing then m
  else
    let m1 := { m with jnl := { m.jnl with pfFlushUs := min 8191 us, flushed := some (!torn) } }
    let m1 := noteSealed m1
    let m2 := if torn then m1
      else evrToLog { m1 with jnl := { m1.jnl with pfStat := m1.jnl.pfStat ||| 4 } } m1.evr.buffer.length
    let during := m.jnl.pfStat.getLsbD 4
    let m3 := if during then { m2 with jnl := { m2.jnl with flushed := none } } else m2
    let m4 := coreReset m3
    if supplies && m4.ssv.power == .main && !m4.jnl.resetHeld then coreOn m4 else m4

/-- SSV_POWER_STATE_CHANGE (15 R386): leaving MAIN closes the maintenance window for the supervisor, an absent cell
alarms, and the core die is in flush-only mode by the detector of the supply that went. -/
def opSsvPower (p : SsvPower) (m : Mod) : Mod :=
  if m.ssv.power = p then m
  else if p = .main then { m with ssv := { m.ssv with power := .main } }
  else if m.ssv.power = .main then
    let m1 := opPowerFail (if p = .aux then 2 else 3) m
    let t := if m1.powered then nowT m1 else m1.tim.floor
    let m2 := cellsMissing { m1 with ssv := { m1.ssv with power := p, maintSeen := false, lastTime := t, lastClk := m1.clk } }
    noteSupply m2
  else noteSupply { m with ssv := { m.ssv with power := p } }

/-- MOD_RESET_ASSERT (18 R461); during a flush it takes effect at its end. -/
def opModResetAssert (m : Mod) : Mod :=
  let m1 := { m with jnl := { m.jnl with resetHeld := true } }
  if m1.powered ∧ !m1.jnl.flushing then coreReset m1 else m1

/-- MOD_RESET_RELEASE. -/
def opModResetRelease (m : Mod) : Mod :=
  if !m.jnl.resetHeld then m
  else
    let m1 := { m with jnl := { m.jnl with resetHeld := false } }
    if m1.ssv.power = .main ∧ !m1.powered then coreOn m1 else m1


/-- HOLDUP_LOW (19 R478). -/
def opHoldupLow (mJ : Nat) (m : Mod) : Mod :=
  if !m.powered ∨ 150 ≤ mJ then m
  else
    let m1 := { m with jnl := { m.jnl with holdup := mJ } }
    if inService m then raiseInt { m1 with devReady := false } .jnl 1 else m1

/-- HOLDUP_CHARGED: the bank measured; a READY that waited is set (18 R449). In service a bank below 150 mJ is one of
HOLDUP_LOW (19 R478). -/
def opHoldupCharged (mJ : Nat) (m : Mod) : Mod :=
  if inService m ∧ mJ < 150 then opHoldupLow mJ m
  else if !m.powered then m
  else tryReady { m with jnl := { m.jnl with holdup := min 65535 mJ } }

/-- THERMAL_TRIP (18 R466). -/
def opThermalTrip (m : Mod) : Mod :=
  if !m.powered then m else { m with devReady := false, sb := { m.sb with thermTrip := true } }

/-- LC_TRANSITION_RESET (16 R417 step 7). -/
def opTransitionReset (m : Mod) : Mod :=
  match m.lcc.stopping with
  | none => m
  | some s =>
    if m.cmq.cmds.isEmpty ∨ s + 50000000 ≤ m.clk then
      let m1 := (m.cmq.cmds.map Prod.fst).foldl (fun m tag => endCmd m tag stAborted []) m
      coreRestart m1
    else m

/-- A command that resets the unit completes first (14 R383, 15 R408). -/
def restartAfter (m : Mod) (tag : Nat) : Mod := coreRestart (endCmd m tag stOk [])

/-- TWIN_RESTART (14 R380, R383). -/
def progTwinRestart : Prog := fun m tag c => do
  bodyLen c 0
  ensure (m.tlk.role == .leeward) stPairRefused
  pure (.hold (restartAfter m tag))

/-- SSV_RESTART (15 R408). -/
def progSsvRestart : Prog := fun m tag c => do
  bodyLen c 0
  ensure (m.ssv.tamper != .normal) stTamperState
  pure (.hold (restartAfter m tag))

/-! ### The store (19 R474, R476) -/

/-- STORE_RECLAIM: bytes freed, no more than await it; with the last of them no object of another state or ESC is left. -/
def opStoreReclaim (n : Nat) (m : Mod) : Mod :=
  if inService m then
    let left := m.jnl.reclaim.toNat - n
    let stale := fun (h : Nat × Bytes) => h != (lcState m, m.khs.esc.getD [])
    { m with jnl := { m.jnl with
      reclaim := BitVec.ofNat 64 left, sealedIn := if left = 0 ∧ m.jnl.sealedIn.any stale = true then none else m.jnl.sealedIn } }
  else m

/-- TABLE_CHECKPOINT: every table stands at the last committed record. -/
def opTableCheckpoint (m : Mod) : Mod :=
  if inService m then { m with jnl := { m.jnl with ckptJsn := m.jnl.jsnCommit } } else m

/-! ### The role at start and link handshakes (14 R364, R375) -/

/-- A Leeward starting beside a serving twin takes its time (13 R356). -/
def adoptFrom (m : Mod) (h : LinkHello) : Mod :=
  if m.tlk.role == .leeward && h.role == 1 && !h.starting then adoptTime m h.now h.timState h.holdAge else m

/-- What a starting unit makes of its twin's hello. -/
def startHello (m : Mod) (h : LinkHello) : Mod :=
  match startRole m h with
  | none => m
  | some r => tryReady (adoptFrom (settleRole m r) h)

/-- What a hello says of the twin's blobs and journal formats (14 R377, R381): a Leeward with another format holds. -/
def noteHello (m : Mod) (h : LinkHello) : Mod :=
  let m1 := { m with tlk := { m.tlk with peerFormat := h.format, peerWrites := h.writes, peerCursors := h.cursors } }
  if !h.format && m1.tlk.role == .leeward && m1.tlk.paired then setRole (setSync m1 false) .held else m1

/-- LINK_HANDSHAKE: the exchange of R364 on a link; a unit in an erased state takes no part (15 R400). A link that trained
with fewer than 2 lanes counts as silent (18 R458). -/
def opLinkHandshake (l : Nat) (h : LinkHello) (m : Mod) : Mod :=
  if 2 ≤ l ∨ !m.powered ∨ m.rng.halted ∨ !m.jnl.started ∨ !m.jnl.fit ∨ m.jnl.flushing ∨ m.ssv.tamper = .erased ∨ m.ssv.tamper = .hold ∨
      m.khs.idKey = none then m
  else if h.lanes < 2 then linkSilent (updLink m l (fun x => { x with up := false, keys := none, lanes := h.lanes })) l
  else if !helloOk m h then refuseLink m l
  else match linkExchange m h with
    | (m1, none) => refuseLink m1 l
    | (m1, some (own, keys)) =>
      let m2 := noteHello (keyLink (emit m1 (.twinHello l own)) l h.lanes keys) h
      if m2.tlk.starting.isSome then startHello m2 h else tryPair m2 h

/-- START_HANDSHAKE_TIMEOUT: the twin silent on all three paths for 20 ms (14 Table 14.4). -/
def opStartTimeout (m : Mod) : Mod :=
  match m.tlk.starting with
  | none => m
  | some s =>
    if m.clk < s + 20000000 ∨ !allSilent m then m
    else
      let r := match m.tlk.shutRole with
        | .windward | .unpaired => StartRole.windward
        | .leeward | .held => .held
      tryReady (settleRole m r)

/-- I3C_ADDRESS_ASSIGN (18 R467): the target runs whenever VAUX is valid; it takes a 7-bit address. -/
def opI3cAssign (addr : Nat) (m : Mod) : Mod :=
  if m.ssv.power = .lull ∨ 128 ≤ addr then m
  else emit { m with sb := { m.sb with addr := addr } } (.i3cAck addr)

/-- A read of TWIN_DIV_LOG: the next entry, removed (14 R374). -/
def divLogRead (m : Mod) : W64 × Mod :=
  match m.tlk.divLog with
  | [] => (0, m)
  | x :: r => (x, { m with tlk := { m.tlk with divLog := r } })

end Sys2Proof.Machine
end

