-- ==== Sys2Proof/Machine/Sched.lean ====
section
/-! DEFINITION. Accepting a microcode image, and the scheduler's own events: grants, ageing, yields, budgets and timers
(04 R99 to R125). -/

namespace Sys2Proof.Machine

/-! ### IMG_ACCEPT (04 R125) -/

/-- The slot not in use holds no usable image, and none is pending (04 R125). -/
def emptyOther (m : Mod) : Mod :=
  { setOtherSlot m ImgSlot.none with txp := { m.txp with pending := false, otherValid := false } }

/-- The form of the command, its quorum; LEN outside its range is a failure of step 1, after which the slot not in use holds
no usable image. -/
def imgChecks (m : Mod) (tag : Nat) (c : Cmd) : Except Act (List Effect) := do
  bodyLen c 24
  let n := (f64 c 8).toNat
  if 4096 ≤ n ∧ n ≤ 4194304 ∧ n % 4096 = 0 then pure () else .error (.finish (emptyOther m) stBadLength [])
  range (decide (f8 c 16 ≤ 1))
  reserved c 17 7
  quorum m tag c clsMicrocode

/-- Step 5: the record of the image staged. -/
def imgJournal (m : Mod) (tag : Nat) (c : Cmd) : Except Act Act := do
  let q ← imgChecks m tag c
  let x := otherSlot m
  let slot : Byte := if m.txp.slot = .a then 1 else 0
  pure (.journal m (q ++ [.image x.digest x.version x.svn (f8 c 16 == 1)]) stOk
    (le32 x.version ++ le16 x.svn ++ [slot, 0]) false)

/-- IMG_ACCEPT: its list first, its record once the image is staged. -/
def progImgAccept : Prog := fun m tag c =>
  if c.stage = 0 then do
    let _ ← imgChecks m tag c
    pure (waitLists m tag c (f64 c 0) 0)
  else imgJournal m tag c

/-- Steps 2 to 4 on an image as stored: the verdict taken twice, the floor, staging on a synchronised twin. -/
def imgStored (m : Mod) (tag : Nat) (img : Bytes) (agree : Bool) : Mod :=
  if !agree then endCmd (disagree (emptyOther m) .txp) tag stLocked []
  else if !Config.imageVerdict img then endCmd (emptyOther m) tag stVerifyFail []
  else if (Config.imageSvn img).toNat < m.txp.svnFloor.toNat then endCmd (emptyOther m) tag stImageRefused []
  else
    let x : ImgSlot :=
      { usable := false, version := Config.imageVersion img, svn := Config.imageSvn img, digest := sha384 img, image := img }
    let m1 := updCmd (setOtherSlot (emptyOther m) x) tag (fun c => { c with stage := 1 })
    if m1.tlk.paired && m1.tlk.sync then
      sendTwin (updCmd m1 tag (fun c => { c with phase := .twin })) (.image img)
    else runCmd progImgAccept m1 tag

/-- JOB_END of an IMG_ACCEPT: its image read, or the twin's report on it. -/
def imgEnd (m : Mod) (tag : Nat) (c : Cmd) (io : JobIo) : Mod :=
  match io with
  | .twinReport ok =>
    if c.phase = .twin then
      (if ok then runCmd progImgAccept m tag else endCmd (emptyOther m) tag stImageRefused [])
    else m
  | .readFailed _ | .linkLost _ => if c.phase = .job then endCmd (emptyOther m) tag stBadPointer [] else m
  | .data ins _ _ b _ agree =>
    if c.phase ≠ .job then m
    else
      let n := (f64 c 8).toNat
      if sglOk (f64 c 0) (sglEntries ins) n then imgStored m tag (fitRight n b) agree else endCmd (emptyOther m) tag stBadLength []

/-- Image staging goes on without a twin that fell out of step (04 R125 step 4). -/
def resumeImages (m : Mod) : Mod :=
  if m.tlk.paired && m.tlk.sync then m
  else (m.cmq.cmds.filter (fun p => p.2.opcode == 0x0F50 && p.2.phase == .twin)).foldl
    (fun m p => runCmd progImgAccept m p.1) m

/-! ### Grants (04 R113) -/

/-- Whether a core is in service and stays so. -/
def coreServes (m : Mod) (core : Nat) : Bool :=
  decide (core < 64) && m.txp.coreAvail.getLsbD core && !m.txp.leaving.getLsbD core

/-- Whether a context can execute GETWORK: its core in service, no command held. -/
def ctxFree (m : Mod) (core ctx : Nat) : Bool :=
  m.powered && !m.jnl.flushing && decide (ctx < 4) && coreServes m core && !ctxBusy m core ctx

/-- A context blocks in GETWORK. -/
def ctxWait (m : Mod) (core ctx : Nat) : Mod :=
  { m with sch := { m.sch with waiting := m.sch.waiting.erase (core, ctx) ++ [(core, ctx)] } }

/-- A tag off the ready lists handed to a context: a dispatch, the context no longer waiting (04 R113). -/
def giveTag (m : Mod) (core ctx tag : Nat) : Mod :=
  let m1 := updCmd m tag (fun c => { c with core := core, ctx := ctx, phase := .running, runs := c.runs + 1 })
  { m1 with
    sch := { m1.sch with
      dispatch := m1.sch.dispatch + 1, lastCore := core, waiting := m1.sch.waiting.erase (core, ctx) }
    txp := { m1.txp with used := m1.txp.used.erase (core, ctx) ++ [(core, ctx)] }
    tlk := { m1.tlk with stalled := false } }

/-- How far a core stands in rotation behind the core served last. -/
def coreTurn (m : Mod) (core : Nat) : Nat := (core + 127 - m.sch.lastCore) % 64

/-- The waiting context first in rotation by core, from the core after the one served last (04 R113). -/
def waitingCtx (m : Mod) : Option (Nat × Nat) :=
  (m.sch.waiting.filter (fun x => ctxFree m x.1 x.2)).foldl (fun b x =>
    match b with
    | none => some x
    | some y => if coreTurn m x.1 < coreTurn m y.1 then some x else some y) none

/-- The grant SCH makes next: the tag its lists choose, and the block with the first waiting context holding it (04 R100,
R102, R113). -/
def nextGrant (m : Mod) : Option (Nat × Mod) :=
  (waitingCtx m).bind (fun x => (chooseTag m).map (fun p => (p.1, giveTag p.2 x.1 x.2 p.1)))

/-- That grant where it is of a tag. -/
def grantOfTag (m : Mod) (tag : Nat) : Option Mod := (nextGrant m).bind (fun p => if p.1 = tag then some p.2 else none)

/-- TAG_AGE_PROMOTE (04 R101). -/
def opAgePromote (tag : Nat) (m : Mod) : Mod :=
  match (cmdOf m tag).map Cmd.phase with
  | some (.ready l since) =>
    if 7 ≤ l ∨ m.clk < since + m.sch.age * 1000 then m
    else
      let m1 := makeReady (leaveReady m tag) tag (l + 1)
      let m2 := { m1 with sch := { m1.sch with promote := m1.sch.promote + 1 } }
      if l + 1 = 7 then raiseInt m2 .sch 4 else m2
  | _ => m

/-- Dispatches a command may take, of its descriptor in the image that runs (04 R117; log 16). -/
def dispatchesOf (m : Mod) (c : Cmd) : Nat := Config.opcodeDispatches (runningImage m) c.opcode % 3 + 1

/-- A dispatch that ends without its command: no effect, ST_INTERNAL_FAULT (04 R117). -/
def budgetOut (m : Mod) (tag : Nat) : Mod :=
  let m1 := endCmd m tag stInternalFault []
  raiseInt { m1 with txp := { m1.txp with budgetFault := m1.txp.budgetFault + 1 } } .txp 1

/-- Whether a context is at work on a command, its record not issued. -/
def atWork (c : Cmd) : Bool :=
  match c.phase with
  | .running | .keys | .verify => true
  | _ => false

/-- Whether a program may yield: a context executes it, and its work is no job (04 R117). -/
def mayYield (c : Cmd) : Bool := c.phase == .running && c.opcode / 256 != 0x08 && c.opcode / 256 != 0x0A

/-- YIELD: back to the tail of the list at level 7, pins kept; past the dispatches allowed the budget is out (04 R117). -/
def opYield (tag : Nat) (m : Mod) : Mod :=
  match cmdOf m tag with
  | none => m
  | some c =>
    if !mayYield c then m
    else if c.runs < dispatchesOf m c then makeReady m tag 7
    else budgetOut m tag

/-- CYCLE_BUDGET_EXHAUSTED (04 R117). -/
def opBudgetExhausted (tag : Nat) (m : Mod) : Mod :=
  match cmdOf m tag with
  | none => m
  | some c => if atWork c then budgetOut m tag else m

/-- SCH_AGE_WRITE's effect (04 R101, R104). -/
def schAgeWrite (v : W32) (m : Mod) : Mod :=
  let n := v.toNat % 8192
  if 100 ≤ n ∧ n ≤ 4000 then { m with sch := { m.sch with age := n } } else m

/-! ### Timers (04 R107 to R112, 05 R151, 09 R254) -/

/-- KEY_SCHEDULE_TIMER: the timer fires; the serving unit records the change of state. -/
def opKeyTimer (m : Mod) : Mod :=
  match dueTimer m 4 with
  | none => m
  | some t =>
    let m1 := takeTimer m t
    match t.kind with
    | .key h => if serving m1 && m1.devReady then issueOwn m1 [.fired (BitVec.ofNat 64 h) t.due] else m1
    | _ => m1

/-- BUDGET_SNAPSHOT: the serving unit writes its budget table to the journal. -/
def opBudgetSnapshot (m : Mod) : Mod :=
  onCadence snapshotTimer snapshotGap (fun m => if serving m && m.devReady then issueOwn m [.snapshot m.dur.bud] else m) m

/-- HEALTH_REPORT_PUBLISH on its cadence. -/
def opHealthCadence (m : Mod) : Mod := onCadence healthTimer healthGap opHealthPublish m

end Sys2Proof.Machine
end

