-- ==== Sys2Proof/Machine/Host.lean ====
section
/-! DEFINITION. The host side: submission entries and capsule reads, doorbells, queue enables, the direct FIFOs, the
admin queues and the PCIe ports (03 R70 to R80, R486, R487, 18 R462, R470). -/

namespace Sys2Proof.Machine

/-! ### Submission entries (03 R70, R71, R81) -/

/-- Whether the unit fetches work at all: READY, admitting, HIF serving (03 Tables 3.2, 3.12). -/
def pathOpen (m : Mod) : Bool := m.devReady && admits m && blkServes m .hif

/-- Whether a tenant's host paths are served: ACTIVE and not draining (12 Table 12.4); an erased unit knows no tenant and
answers every submission (03 Table 3.2 step 1, 15 Table 15.5). -/
def tenantOpen (m : Mod) (t : Nat) : Bool :=
  decide (t < 4096) && (isErased m || ((tenantOf m t).state == .active && !(tenOf m t).draining && !rolledBack m t))

/-- Whether a queue holds an entry to fetch. -/
def queueWaits (m : Mod) : QId → Bool
  | .qp t q =>
    let x := qpOf m t q
    pathOpen m && tenantOpen m t && decide (q < 4) && attached m t x.owner && portUp m x.owner && x.enable && !x.error &&
      decide (2 ≤ x.sqSize) && x.sqHead != x.sqTail && x.reading.isNone
  | .admin p =>
    let x := admqOf m p
    pathOpen m && portUp m p && !x.stopped && decide (2 ≤ x.sqSize) && x.sqHead != x.sqTail && x.reading.isNone

/-- Whether the next entry of a queue can be fetched now: it waits and a tag is free for it (03 Table 3.12). -/
def fetchable (m : Mod) (q : QId) : Bool :=
  queueWaits m q && (match q with | .qp t _ => tagFree m t | .admin _ => tagPoolFree m)

/-- The read of a queue's next entry under way: the instant of its issue. -/
def readingOf (m : Mod) : QId → Option Nat
  | .qp t q => (qpOf m t q).reading
  | .admin p => (admqOf m p).reading

/-- The record of that read changed. -/
def setReading (m : Mod) (q : QId) (r : Option Nat) : Mod :=
  match q with
  | .qp t n => updQp m t n (fun x => { x with reading := r })
  | .admin p => updAdmq m p (fun x => { x with reading := r })

/-- The port a queue is read through. -/
def queuePort (m : Mod) : QId → Port
  | .qp t q => (qpOf m t q).owner
  | .admin p => p

/-- The host address of a queue's next entry. -/
def entryAddr (m : Mod) : QId → W64
  | .qp t q => let x := qpOf m t q; x.sqBase + BitVec.ofNat 64 (128 * x.sqHead)
  | .admin p => let x := admqOf m p; x.sqBase + BitVec.ofNat 64 (128 * x.sqHead)

/-- The read of a queue's next entry issued where a tag is free; the tag is kept for it. One entry of a queue is read at a
time (log 60). -/
def issueEntry (m : Mod) (q : QId) : Mod :=
  if fetchable m q then emit (setReading m q (some m.clk)) (.hostRead (queuePort m q) (entryAddr m q) 128) else m

/-- The slot after one in a ring of a size. -/
def nextOf (n size : Nat) : Nat := if size ≤ n + 1 then 0 else n + 1

/-- The entry at the head of a queue taken: the queue moved on, the head after it and the entry's stamp. -/
def takeEntry (m : Mod) : QId → Mod × Nat × Stamp
  | .qp t q =>
    let x := qpOf m t q
    let h := nextOf x.sqHead x.sqSize
    (updQp m t q (fun y => { y with sqHead := h, stamps := tblErase y.stamps x.sqHead }), h, tblGet (stampNow m) x.stamps x.sqHead)
  | .admin p =>
    let x := admqOf m p
    let h := nextOf x.sqHead x.sqSize
    (updAdmq m p (fun y => { y with sqHead := h, stamps := tblErase y.stamps x.sqHead }), h,
      tblGet (stampNow m) x.stamps x.sqHead)

/-- Whether an entry is in pointer form; its capsule's length. -/
def entryPtr (e : Bytes) : Bool := (getNat8 e 0).testBit 0
def entryLen (e : Bytes) : Nat := (getLe16 e 2).toNat

/-- Whether an entry is well formed (03 R70). -/
def entryOk (e : Bytes) : Bool :=
  let n := entryLen e
  decide ((getLe16 e 0).toNat < 2 ∧ 32 ≤ n) && allZero (sliceOf e 4 4) && allZero (sliceOf e 0x14 4) &&
    (if entryPtr e then decide (n ≤ 4096) && (getLe64 e 0x18).toNat % 8 == 0 && allZero (sliceOf e 0x28 88)
    else decide (n ≤ 96) && allZero (sliceOf e 0x18 8))

/-- What an entry brings to CMQ with a capsule. -/
def entryArrival (q : QId) (e : Bytes) (sqHead : Nat) (stamp : Stamp) (entered : Nat) (cap : Bytes) : Arrival :=
  let mk := fun (t : Nat) (admin : Bool) (p : Path) =>
    ({ tenant := t, admin := admin, path := p, sqHead := sqHead, resAddr := getLe64 e 8, resSize := (getLe32 e 0x10).toNat,
       cap := cap, stamp := stamp, entered := entered } : Arrival)
  match q with
  | .qp t n => mk t false (.qp n)
  | .admin p => mk 0 true (.admin p)

/-- Whether a capsule of a queue that holds no tag enters acceptance now: a unit that is not READY or does not admit, a
tenant frozen or a path no longer attached leaves it held (03 Tables 3.2, 3.12, R96). -/
def acceptsNow (m : Mod) (q : QId) : Bool :=
  m.devReady && admits m && (match q with
    | .qp t n => tenantOpen m t && attached m t (qpOf m t n).owner
    | .admin _ => true)

/-- The entry of a queue that is accepted next. -/
def nextIn (m : Mod) (q : QId) : Option (Nat × PtrRead) := m.cmq.ptr.find? (fun p => p.2.q == q)

/-- Capsules of a queue accepted in queue order, as far as they have come in (03 R75). -/
def acceptQueue (q : QId) : Nat → Mod → Mod
  | 0, m => m
  | f + 1, m =>
    match nextIn m q with
    | none => m
    | some (id, r) =>
      match r.got with
      | none => m
      | some (at', cap) =>
        if acceptsNow m q then
          acceptQueue q f (acceptCapsule { m with cmq := { m.cmq with ptr := tblErase m.cmq.ptr id } }
            (entryArrival q r.entry r.sqHead r.stamp at' cap))
        else m

/-- What a queue can give now is accepted. -/
def acceptFrom (m : Mod) (q : QId) : Mod := acceptQueue q m.cmq.ptr.length m

/-- Whatever stood held is accepted where that has become possible. -/
def acceptHeld (m : Mod) : Mod := (m.cmq.ptr.map (fun p => p.2.q)).foldl acceptFrom m

/-- A fetched entry on its way to acceptance. -/
def setPtr (m : Mod) (r : PtrRead) : Mod :=
  { m with cmq := { m.cmq with ptr := tblSet m.cmq.ptr m.cmq.nextPtr r, nextPtr := m.cmq.nextPtr + 1 } }

/-- A failed DMA read counted (03 Table 3.20). -/
def countDmaErr (m : Mod) : Mod := { m with dmaErr := m.dmaErr + 1 }

/-- The read of an entry failed: the queue stops (03 R71, R487). -/
def entryFailed (q : QId) (m : Mod) : Mod :=
  let m1 := countDmaErr (setReading m q none)
  match q with
  | .qp t n =>
    raiseTen (updTen (updQp m1 t n (fun x => { x with error := true })) t (fun h => { h with errQp := n })) t 4
  | .admin p => raiseInt (updAdmq m1 p (fun x => { x with fetchErr := true, stopped := true })) .hif 1

/-- SQ_ENTRY_READ_FAIL, and a timeout of that read. -/
def opEntryFail (q : QId) (m : Mod) : Mod := if (readingOf m q).isSome then entryFailed q m else m

/-- SQ_ENTRY_FETCH: the entry checked, an inline capsule accepted in its turn, the read of another issued. One that comes
after its timeout has failed (03 R486). -/
def opSqEntry (q : QId) (entry : Bytes) (m : Mod) : Mod :=
  match readingOf m q with
  | none => m
  | some at' =>
    if readLate m at' then entryFailed q m
    else
      let (m1, h, s) := takeEntry (setReading m q none) q
      let e := fitRight 128 entry
      let r : PtrRead := { q := q, sqHead := h, entry := e, stamp := s, issued := m.clk, got := none }
      if !entryOk e then
        rejectEntry m1 (entryArrival q e h s m.clk []) stBadFormat (if entryPtr e then getLe64 e 0x20 else 0)
      else if entryPtr e then emit (setPtr m1 r) (.hostRead (queuePort m q) (getLe64 e 0x18) (entryLen e))
      else acceptFrom (setPtr m1 { r with got := some (m.clk, sliceOf e 0x20 (entryLen e)) }) q

/-- A capsule that could not be read: its command completes with ST_BAD_POINTER (03 R71). -/
def capsuleFailed (m : Mod) (id : Nat) (x : PtrRead) : Mod :=
  let m1 := { m with cmq := { m.cmq with ptr := tblErase m.cmq.ptr id } }
  acceptFrom (rejectEntry (countDmaErr m1) (entryArrival x.q x.entry x.sqHead x.stamp m.clk []) stBadPointer
    (getLe64 x.entry 0x20)) x.q

/-- POINTER_CAPSULE_READ: the capsule enters acceptance in its turn, or the command completes. -/
def opPointerRead (id : Nat) (r : ReadResult) (m : Mod) : Mod :=
  match tblFind m.cmq.ptr id with
  | none => m
  | some x =>
    if x.got.isSome then m
    else match r with
      | .failed _ => capsuleFailed m id x
      | .data b =>
        if readLate m x.issued then capsuleFailed m id x
        else
          let y := { x with got := some (m.clk, fitRight (entryLen x.entry) b) }
          acceptFrom { m with cmq := { m.cmq with ptr := tblSet m.cmq.ptr id y } } x.q

/-! ### Queue pair registers (03 R72 to R75, Tables 3.6, 3.7) -/

/-- Whether any work of a queue pair is under way (03 R73). -/
def qpInFlight (m : Mod) (t q : Nat) : Bool :=
  m.cmq.cmds.any (fun p => !p.2.admin && p.2.tenant == t && p.2.path == .qp q) ||
    m.cmq.ptr.any (fun p => p.2.q == .qp t q) || (tenOf m t).parked.any (fun c => c.path == .qp q)

/-- QP_STAT.ACTIVE. -/
def qpActive (m : Mod) (t q : Nat) : Bool := (qpOf m t q).enable || qpInFlight m t q

/-- A doorbell outside its queue: ignored, reported (03 R73). -/
def doorbellErr (m : Mod) (t q : Nat) : Mod := raiseTen (updTen m t (fun h => { h with errQp := q })) t 2

/-- The slots a tail write newly covers, from the old tail up to the new one. -/
def covered (old new size : Nat) : List Nat :=
  (List.range ((new + size - old) % size)).map (fun i => (old + i) % size)

/-- Entries stamped as a doorbell covers them (13 Table 13.3). -/
def stampAll (s : Tbl Stamp) (slots : List Nat) (t : Stamp) : Tbl Stamp := slots.foldl (fun a n => tblSet a n t) s

/-- QP_SQ_TAIL's effect. -/
def qpSqTail (t q : Nat) (v : W32) (m : Mod) : Mod :=
  let x := qpOf m t q
  let n := v.toNat % 4096
  if x.sqSize ≤ n then doorbellErr m t q
  else updQp m t q (fun y => { y with sqTail := n, stamps := stampAll y.stamps (covered x.sqTail n x.sqSize) (stampNow m) })

/-- QP_CQ_HEAD's effect. -/
def qpCqHead (t q : Nat) (v : W32) (m : Mod) : Mod :=
  let n := v.toNat % 4096
  if (qpOf m t q).cqSize ≤ n then doorbellErr m t q
  else drainTenant (updQp m t q (fun y => { y with cqHead := n })) t

/-- ENABLE written 1: from 0 it restarts the queue pair, at 1 it changes nothing but INT_EN (03 R73). -/
def qpEnableEff (t q : Nat) (intEn : Bool) (m : Mod) : Mod :=
  let m1 := updQp m t q (fun y => { y with intEn := intEn })
  if (qpOf m t q).enable then m1
  else drainTenant (updQp m1 t q (fun y =>
    { y with
      enable := true, error := false, sqHead := 0, sqTail := 0, cqHead := 0, cqTail := 0, phase := true, stamps := []
      reading := none })) t

/-- ENABLE written 0: fetching stops, and an entry still being read is not taken (log 60). -/
def qpDisableEff (t q : Nat) (intEn : Bool) (m : Mod) : Mod :=
  updQp m t q (fun y => { y with enable := false, intEn := intEn, reading := none })

/-- One half of a 64-bit value replaced. -/
def setHalf (x : W64) (hi : Bool) (v : W32) : W64 :=
  if hi then BitVec.ofNat 64 (v.toNat * 2 ^ 32 + x.toNat % 2 ^ 32)
  else BitVec.ofNat 64 (x.toNat / 2 ^ 32 * 2 ^ 32 + v.toNat)

/-- A base is 4 KiB aligned: its low 12 bits are reserved. -/
def basePage (x : W64) : W64 := x &&& 0xFFFFFFFFFFFFF000

/-- A write to a submission queue base while the queue pair is not ACTIVE: it moves to the port that carried it (R48). -/
def qpSqBase (t q : Nat) (p : Port) (hi : Bool) (v : W32) (m : Mod) : Mod :=
  if qpActive m t q then m
  else updQp m t q (fun y => { y with sqBase := basePage (setHalf y.sqBase hi v), owner := p })

/-- A completion queue base, and the sizes, while the queue pair is not ACTIVE (03 R72, R73). -/
def qpCqBase (t q : Nat) (hi : Bool) (v : W32) (m : Mod) : Mod :=
  if qpActive m t q then m else updQp m t q (fun y => { y with cqBase := basePage (setHalf y.cqBase hi v) })
def qpSize (t q : Nat) (sq : Bool) (v : W32) (m : Mod) : Mod :=
  let n := v.toNat % 8192
  if qpActive m t q ∨ n < 2 ∨ 4096 < n then m
  else updQp m t q (fun y => if sq then { y with sqSize := n } else { y with cqSize := n })

/-! ### Admin queues (03 R487) -/

/-- A bit of DEV_ADMQ_STAT set. -/
def admqErr (m : Mod) (p : Port) : Mod := raiseInt (updAdmq m p (fun x => { x with doorbellErr := true })) .hif 1

/-- ADMQ_SQ_TAIL's effect. -/
def admqSqTailEff (p : Port) (v : W32) (m : Mod) : Mod :=
  let x := admqOf m p
  let n := v.toNat % 4096
  if x.sqSize ≤ n then admqErr m p
  else updAdmq m p (fun y => { y with sqTail := n, stamps := stampAll y.stamps (covered x.sqTail n x.sqSize) (stampNow m) })

/-- ADMQ_CQ_HEAD's effect. -/
def admqCqHeadEff (p : Port) (v : W32) (m : Mod) : Mod :=
  let n := v.toNat % 4096
  if (admqOf m p).cqSize ≤ n then admqErr m p else drainDone (updAdmq m p (fun y => { y with cqHead := n }))

/-- Whether a size is one an admin queue accepts. -/
def admqSizeOk (n : Nat) : Bool := n == 0 || decide (2 ≤ n ∧ n ≤ 4096)

/-- ADMQ_SQ_SIZE's effect. -/
def admqSqSizeEff (p : Port) (v : W32) (m : Mod) : Mod :=
  let n := v.toNat % 8192
  if !admqSizeOk n then m
  else updAdmq m p (fun y =>
    { y with
      sqSize := n, sqBase := y.sqBaseNew, sqHead := 0, sqTail := 0, stamps := [], stopped := false, reading := none })

/-- ADMQ_CQ_SIZE's effect. -/
def admqCqSizeEff (p : Port) (v : W32) (m : Mod) : Mod :=
  let n := v.toNat % 8192
  if !admqSizeOk n then m
  else drainDone (updAdmq m p (fun y =>
    { y with cqSize := n, cqBase := y.cqBaseNew, cqHead := 0, cqTail := 0, phase := true }))

/-! ### Direct FIFOs (03 R76 to R80) -/

/-- CAP_LEN of a descriptor; the words of its command. -/
def descLen (d : W64) : Nat := d.toNat % 65536
def descWords (d : W64) : Nat := 2 + (descLen d + 7) / 8

/-- Whether a word is a descriptor. -/
def descOk (d : W64) : Bool := d.toNat / 2 ^ 56 == 0xC5 && decide (32 ≤ descLen d ∧ descLen d ≤ 4080)

/-- How many of the words held belong to whole commands. -/
def wholeWords : Nat → List W64 → Nat
  | 0, _ => 0
  | _, [] => 0
  | f + 1, d :: r => if r.length + 1 < descWords d then 0 else descWords d + wholeWords f ((d :: r).drop (descWords d))

/-- The words of a command not yet whole. -/
def partWords (x : Fifo) : List W64 := x.push.drop (wholeWords 512 x.push)

/-- The words held cut to the whole commands. -/
def cutPart (x : Fifo) : Fifo :=
  let n := wholeWords 512 x.push
  { x with push := x.push.take n, stamps := x.stamps.take n }

/-- A word of a torn command discarded; pushed while CMD_PUSH is full it reports that again. -/
def discardWord (t : Nat) (full : Bool) (m : Mod) : Mod :=
  let m1 := updFifo m t (fun x => { x with discard := x.discard - 1, overrun := x.overrun || full })
  if full then raiseTen m1 t 1 else m1

/-- CMD_PUSH's effect (03 R78). The words of the torn command that CMD_PUSH already holds go with the rest, and their
credit returns (log 58). -/
def fifoPush (t : Nat) (w : W64) (m : Mod) : Mod :=
  let x := (tenOf m t).fifo
  if x.discard ≠ 0 then discardWord t (decide (512 ≤ x.push.length)) m
  else if 512 ≤ x.push.length then
    let rest := match partWords x with
      | [] => if descOk w then descWords w - 1 else 0
      | d :: r => descWords d - (r.length + 2)
    let bad := partWords x == [] && !descOk w
    raiseTen (updFifo m t (fun x =>
      { cutPart x with discard := rest, overrun := true, frameErr := x.frameErr || bad })) t 1
  else if partWords x = [] ∧ !descOk w then raiseTen (updFifo m t (fun x => { x with frameErr := true })) t 1
  else updFifo m t (fun x => { x with push := x.push ++ [w], stamps := x.stamps ++ [stampNow m] })

/-- A change of FIFO_PORT takes effect once the FIFO is empty (03 Table 3.17). -/
def noteFifoPort (m : Mod) (t : Nat) : Mod :=
  let h := tenOf m t
  match h.fifoPortNew with
  | none => m
  | some p =>
    if h.fifo.push = [] ∧ h.fifo.cpl = [] ∧ h.fifo.left = [] then
      updTen m t (fun h => { h with fifoPort := p, fifoPortNew := none })
    else m

/-- Whether a tenant's direct FIFO holds a whole command that may be taken (03 R77). -/
def fifoWaits (m : Mod) (t : Nat) : Bool :=
  let h := tenOf m t
  match h.fifo.push with
  | d :: _ :: _ => pathOpen m && tenantOpen m t && attached m t h.fifoPort && decide (descWords d ≤ h.fifo.push.length)
  | _ => false

/-- FIFO_COMMAND_TAKE: the command a tag is kept for (03 R77, 04 R106). -/
def opFifoTake (t : Nat) (m : Mod) : Mod :=
  let h := tenOf m t
  match h.fifo.push with
  | d :: d1 :: _ =>
    let n := descWords d
    if !(fifoWaits m t && h.fifo.granted) then m
    else
      let last := (h.fifo.stamps[n - 1]?).getD (stampNow m)
      let cap := (((h.fifo.push.take n).drop 2).map le64).flatten.take (descLen d)
      let a : Arrival :=
        { tenant := t, admin := false, path := .fifo, sqHead := 0, resAddr := d1, resSize := d.toNat / 2 ^ 32 % 65536
          cap := cap, stamp := last, entered := last.clk }
      let m1 := updFifo m t (fun x => { x with push := x.push.drop n, stamps := x.stamps.drop n, granted := false })
      noteFifoPort (acceptCapsule m1 a) t
  | _ => m

/-! ### Tags for waiting paths (03 Table 3.12, 04 R106) -/

/-- A tag kept for a command whose FIFO may not hand it over now is free again. -/
def dropGrant (m : Mod) (t : Nat) : Mod :=
  if (tenOf m t).fifo.granted && !fifoWaits m t then updFifo m t (fun x => { x with granted := false }) else m

/-- Whether a tenant path is held back for a tag: queue pairs are paths 0 to 3 of a tenant, its direct FIFO path 4. -/
def pathWaits (m : Mod) (t k : Nat) : Bool :=
  if k < 4 then queueWaits m (.qp t k) else fifoWaits m t && !(tenOf m t).fifo.granted

/-- A tag given to a tenant path, where it waits and one is free for its tenant. -/
def servePath (m : Mod) (p : Nat × Nat) : Mod :=
  if pathWaits m p.1 p.2 && tagFree m p.1 then
    let m1 := if p.2 < 4 then issueEntry m (.qp p.1 p.2) else updFifo m p.1 (fun x => { x with granted := true })
    { m1 with cmq := { m1.cmq with lastPath := 5 * p.1 + p.2 } }
  else m

/-- The tenant paths in rotation, from the one after the path served last. -/
def pathRing (m : Mod) : List (Nat × Nat) :=
  let all := m.ten.flatMap (fun p => (List.range 5).map (fun k => (p.1, k)))
  let after := fun (p : Nat × Nat) => decide (m.cmq.lastPath < 5 * p.1 + p.2)
  all.filter after ++ all.filter (fun p => !after p)

/-- Free tags go to the admin queues first, then to the waiting tenant paths in rotation, one to each in turn. -/
def serveTags (m : Mod) : Mod :=
  let m1 := (m.ten.map Prod.fst).foldl dropGrant m
  let m2 := issueEntry (issueEntry m1 (.admin .a)) (.admin .b)
  (pathRing m2).foldl servePath m2

/-- The words of a completion. -/
def cplWords (b : Bytes) : List W64 := (List.range 8).map (fun i => getLe64 b (8 * i))

/-- CPL_POP read: the word and the block without it (03 R79). -/
def cplPopEff (t : Nat) (m : Mod) : W64 × Mod :=
  let x := (tenOf m t).fifo
  match x.left, x.cpl with
  | w :: r, _ => (w, noteFifoPort (updFifo m t (fun x => { x with left := r })) t)
  | [], c :: r =>
    let ws := cplWords c
    (ws.headD 0, drainTenant (updFifo m t (fun x => { x with cpl := r, left := ws.tail })) t)
  | [], [] => (0, m)

/-- CPL_CTL.FLUSH's effect (03 R80). -/
def cplFlushEff (t : Nat) (m : Mod) : Mod :=
  noteFifoPort (drainTenant (updFifo m t (fun x => { x with cpl := [] })) t) t

/-- CPL_CTL.CMD_DROP's effect: the words of a command not yet whole, and what a torn one still awaits, go. -/
def cmdDropEff (t : Nat) (m : Mod) : Mod :=
  noteFifoPort (updFifo m t (fun x => { cutPart x with discard := 0 })) t

/-! ### PCIe ports (02 R33, 06 R174, R176, 18 R462, R470) -/

/-- A port lost its link: blob reads through it fail at once (06 R174). -/
def linkDown (m : Mod) (p : Port) : Mod :=
  let m1 := updPort m p (fun s => { s with linkUp := false, width := 0, gen := 0 })
  let hit := fun (f : Fetch) => f.retryAt.isNone && f.blob.isNone &&
    (match blobAddr m (hTenant f.handle) (hIndex f.handle) with | some (q, _) => q == p | none => false)
  (m1.bsx.slots.filter (fun s => hit s.2)).foldl (fun m s => fetchFailed m s.1) m1

/-- PORT_LINK_LOSS. -/
def opLinkLoss (p : Port) (m : Mod) : Mod := if (portOf m p).linkUp then linkDown m p else m

/-- The messages a port has queued leave. -/
def sendPosted (m : Mod) (p : Port) : Mod :=
  emitAll (updPort m p (fun s => { s with posted := [] }))
    ((portOf m p).posted.map (fun x => .msix p x.vf x.vector x.addr x.data))

/-- Completions that waited for a port leave, as far as their queues have room. -/
def drainAll (m : Mod) : Mod := drainDone ((m.ten.map Prod.fst).foldl (fun m t => drainParked t 256 m) m)

/-- PORT_LINK_UP: held blob writes are reissued; what queued at the port leaves (01 Table 1.3). -/
def opLinkUp (p : Port) (width gen : Nat) (m : Mod) : Mod :=
  if !m.powered ∨ (portOf m p).perst ∨ gen = 0 ∨ 5 < gen ∨ width = 0 ∨ 16 < width then m
  else drainAll (sendPosted (reissueBlobs (updPort m p (fun s => { s with linkUp := true, width := width, gen := gen }))) p)

/-- PERST_ASSERT: the port's interface and configuration space reset; its other registers stay (log 11). -/
def opPerstAssert (p : Port) (m : Mod) : Mod :=
  let m1 := if (portOf m p).linkUp then linkDown m p else m
  updPort m1 p (fun s =>
    { s with perst := true, cfgReady := false, cfg := [], msix := [], pba := [], vfMsix := [], vfPba := [], posted := [] })

/-- PERST_RELEASE. -/
def opPerstRelease (p : Port) (m : Mod) : Mod :=
  updPort m p (fun s => { s with perst := false, cfgReady := m.powered && m.jnl.started })

/-- PCIE_ATOMIC_IO_REQUEST (02 R33). -/
def opAtomicIo (p : Port) (m : Mod) : Mod := if m.powered ∧ !(portOf m p).perst then emit m (.unsupported p) else m

/-- Device Capabilities 2 and Device Control 2 of a function. -/
def devCap2 : Nat := Config.pcieCap + 0x24
def devCtl2 : Nat := Config.pcieCap + 0x28

/-- A configuration register of a function as it reads: the completion timeout fields of every function read 0 (03
R486). -/
def cfgRead (s : PortState) (fn reg : Nat) : W32 :=
  let v := tblGet 0 s.cfg (4096 * fn + reg)
  if reg = devCap2 ∨ reg = devCtl2 then v &&& 0xFFFFFFE0 else v

/-- PCIE_CONFIG_REQUEST (19 R470): function 0 is the PF, function n the VF n. -/
def opConfigRequest (p : Port) (fn : Nat) (write : Bool) (reg : Nat) (v : W32) (m : Mod) : Mod :=
  let s := portOf m p
  if !m.powered ∨ s.perst then m
  else if !s.cfgReady then emit m (.cfgRetry p)
  else if write then emit (updPort m p (fun s => { s with cfg := tblSet s.cfg (4096 * fn + reg) v })) (.cfgData p 0)
  else emit m (.cfgData p (cfgRead s fn reg))

/-! ### Progress (14 R368) -/

/-- Whether the dispatcher or the completion writer holds work. -/
def holdsWork (m : Mod) : Bool :=
  m.cmq.cmds.any (fun p => match p.2.phase with | .ready _ _ | .done => true | _ => false)

/-- SERVE_OK_PROGRESS_TIMEOUT. -/
def opProgressTimeout (m : Mod) : Mod :=
  if m.powered && holdsWork m then { m with tlk := { m.tlk with stalled := true } } else m

/-- Progress made, or no work left: the gate may open again. -/
def noteProgress (m : Mod) : Mod :=
  if m.tlk.stalled && !holdsWork m then { m with tlk := { m.tlk with stalled := false } } else m

end Sys2Proof.Machine
end

