-- ==== Sys2Proof/Machine/Net.lean ====
section
/-! DEFINITION. The network side: datagrams and frames received, acknowledgement, retransmission and coalescing of the
capsule transport, and the answers of the module's own addresses (03 R86 to R95). -/

namespace Sys2Proof.Machine

/-! ### What arrives (03 R86 to R88, R95) -/

/-- Whether a frame reaches the network interface at all: powered, its port enabled with link. -/
def frameHeard (m : Mod) (f : NetFrame) : Bool :=
  m.powered && decide (f.port < 8) && (netPortOf m f.port).ctl.getLsbD 0 && (netPortOf m f.port).link

/-- Whether a frame is one the module takes: fragments, options and failing checksums are dropped, and over IPv6 a UDP
checksum of 0 (03 R86). -/
def kindOk (f : NetFrame) : Bool :=
  match f.kind with
  | .plain => true
  | .sumZero => !f.v6
  | .fragment | .options | .sumBad => false

/-- Whether a frame fits its port and is well formed. -/
def frameFits (m : Mod) (f : NetFrame) : Bool :=
  blkServes m .nif && kindOk f && decide (f.frameLen ≤ ((netPortOf m f.port).ctl.extractLsb' 16 14).toNat)

/-- Whether a frame is a datagram for the capsule transport at one of the module's addresses. -/
def isDatagram (m : Mod) (f : NetFrame) : Bool :=
  frameFits m f && f.dstPort == m.nif.udpPort && (ownAddress m f.port f.vlan f.v6 f.dst).isSome

/-- Where an answer to a frame goes. -/
def peerOfFrame (f : NetFrame) : NetPeer :=
  { port := f.port, vlan := f.vlan, v6 := f.v6, own := f.dst, peer := f.src, udp := f.srcPort }

/-- Header fields (03 Table 3.15). -/
def ncType (b : Bytes) : Nat := getNat8 b 3
def ncTenant (b : Bytes) : Nat := (getLe16 b 4).toNat % 4096
def ncSession (b : Bytes) : Nat := (getLe16 b 6).toNat
def ncDsn (b : Bytes) : Nat := (getLe32 b 8).toNat
def ncAck (b : Bytes) : Nat := (getLe32 b 0x0C).toNat
def ncSack (b : Bytes) : Nat := (getLe32 b 0x10).toNat
def ncCount (b : Bytes) : Nat := getNat8 b 0x16

/-- The capsules of a client's DATA datagram, none where they do not fill it exactly (03 R87, R88). -/
def splitCapsules : Nat → Bytes → Option (List Bytes)
  | 0, b => if b = [] then some [] else none
  | n + 1, b =>
    let len := 32 + capBodyLen b
    let pad := (len + 7) / 8 * 8
    if b.length < 32 ∨ b.length < pad then none
    else match splitCapsules n (b.drop pad) with
      | none => none
      | some r => some (b.take len :: r)

/-- Whether a header names the transport, its version and a type, and its tenant has the network (03 R88). -/
def headerOk (m : Mod) (b : Bytes) (type : Nat) : Bool :=
  decide (24 ≤ b.length) && (getLe16 b 0).toNat == 0x4E6B && getNat8 b 2 == 1 && ncType b == type &&
    (tenOf m (ncTenant b)).attNet && !rolledBack m (ncTenant b)

/-- Whether the capsules of a datagram may travel together: the datagram's tenant, sealed in a session; the open one
outside a session is a SESSION_HELLO to a tenant that is there (03 R63, R88, 12 R328, Table 12.4). -/
def capsulesOk (m : Mod) (b : Bytes) (caps : List Bytes) : Bool :=
  let hello := fun (c : Bytes) => ncSession b == 0 && capOpcode c == 0x0D01 && (tenantOf m (ncTenant b)).state != .closed
  caps.all (fun c => capTenant c % 4096 == ncTenant b && (capSealed c || hello c))

/-- A datagram that names no open session: RESET at most once per ms, and dropped (03 R88). -/
def resetSession (m : Mod) (f : NetFrame) (t sid : Nat) : Mod :=
  let n := (nctOf m t sid).getD (NctSess.start (peerOfFrame f))
  let ok := n.lastReset.elim true (fun x => decide (x + 1000000 ≤ m.clk))
  let m1 := nctDrop m
  if ok then
    sendNct (setNct m1 t sid { n with lastReset := some m.clk }) (peerOfFrame f) (nctHeader 3 t sid 0 0 0 (nctWindow m t) 0)
  else m1

/-! ### Sequence numbers and acknowledgements (03 R89 to R91) -/

/-- ACK_DSN moved over the DSNs received in order; bit i of the bitmap is DSN `ack + 1 + i`. -/
def slideAck : Nat → Nat → Nat → Nat × Nat
  | 0, ack, bits => (ack, bits)
  | f + 1, ack, bits => if bits.testBit 0 then slideAck f (ack + 1) (bits / 2) else (ack, bits)

/-- Whether a DSN was received, or lies beyond the bitmap. -/
def dsnOld (n : NctSess) (dsn : Nat) : Bool :=
  decide (dsn ≤ n.ackDsn) || decide (n.ackDsn + 1024 < dsn) || n.bitmap.testBit (dsn - n.ackDsn - 1)

/-- A session after a DSN was received. -/
def takeDsn (n : NctSess) (dsn : Nat) : NctSess :=
  let (a, b) := slideAck 1024 n.ackDsn (n.bitmap ||| 2 ^ (dsn - n.ackDsn - 1))
  { n with ackDsn := a, bitmap := b }

/-- A session that owes its peer an acknowledgement. -/
def oweAck (m : Mod) (n : NctSess) : NctSess :=
  { n with ackDue := some (n.ackDue.getD (m.clk + m.nif.ackDelay * 1000)) }

/-- A session after the peer acknowledged what it received. -/
def takeAck (n : NctSess) (ack sack : Nat) : NctSess :=
  let got := fun (d : Nat) => decide (d ≤ ack) || (decide (ack + 2 ≤ d ∧ d < ack + 34) && sack.testBit (d - ack - 2))
  { n with sent := n.sent.filter (fun s => !got s.dsn) }

/-- Capsules the session may have outstanding: the last WINDOW advertised; before the first, the present one (log 58). -/
def lastWindow (m : Mod) (t : Nat) (n : NctSess) : Nat := n.window.getD (nctWindow m t)

/-! ### Capsules -/

/-- What a capsule of a datagram brings to CMQ. -/
def nctArrival (m : Mod) (f : NetFrame) (t sid : Nat) (cap : Bytes) : Arrival :=
  { tenant := t, admin := false, path := .nct (peerOfFrame f) sid, sqHead := 0, resAddr := 0, resSize := 4096, cap := cap,
    stamp := stampNow m, entered := m.clk }

/-- A capsule of a datagram accepted, or ended at once with ST_RETRY_LATER without a tag (03 Table 3.12, 02 R36). -/
def nctCapsule (m : Mod) (a : Arrival) : Mod :=
  if tagFree m a.tenant then acceptCapsule m a
  else (deliver m (buildCpl (cmdOfArrival a) none stRetryLater [] false)).1

/-- The capsules of a datagram, which are independent. -/
def nctCapsules (m : Mod) (f : NetFrame) (t sid : Nat) (caps : List Bytes) : Mod :=
  let arr := caps.map (nctArrival m f t sid)
  arr.foldl nctCapsule m

/-- A DATA datagram in an open session (03 R89 to R91). -/
def sessionData (m : Mod) (f : NetFrame) (t sid : Nat) (caps : List Bytes) : Mod :=
  let b := f.payload
  let n0 := (nctOf m t sid).getD (NctSess.start (peerOfFrame f))
  let n1 := takeAck { n0 with peer := peerOfFrame f } (ncAck b) (ncSack b)
  let n2 := if n1.fresh then { n1 with ackDsn := ncDsn b - 1, bitmap := 0, fresh := false } else n1
  if dsnOld n2 (ncDsn b) then setNct m t sid (oweAck m n2)
  else if lastWindow m t n2 < n2.outstanding + caps.length then nctDrop m
  else
    let n3 := oweAck m (takeDsn n2 (ncDsn b))
    nctCapsules (setNct m t sid { n3 with outstanding := n3.outstanding + caps.length }) f t sid caps

/-- NCT_DATA_RX. A unit whose service gate is shut, or in the hold-off of a promotion, discards it (14 R368, R371). -/
def opNctDataRx (f : NetFrame) (m : Mod) : Mod :=
  let b := f.payload
  let t := ncTenant b
  let sid := ncSession b
  if !frameHeard m f then m
  else if !isDatagram m f then nctDrop m
  else
    let m := pmcEvent m 0x1007 none
    if !headerOk m b 1 ∨ !admits m then nctDrop m
    else match splitCapsules (ncCount b) (b.drop 24) with
      | none => nctDrop m
      | some caps =>
        if !capsulesOk m b caps then nctDrop m
        else if sid = 0 then nctCapsules m f t sid caps
        else if (sessOf m t sid).isNone then resetSession m f t sid
        else sessionData m f t sid caps

/-- NCT_ACK_RX. -/
def opNctAckRx (f : NetFrame) (m : Mod) : Mod :=
  let b := f.payload
  let t := ncTenant b
  let sid := ncSession b
  if !frameHeard m f then m
  else if !isDatagram m f then nctDrop m
  else
    let m := pmcEvent m 0x1007 none
    if !headerOk m b 2 ∨ b.length ≠ 24 ∨ ncCount b ≠ 0 then nctDrop m
    else if (sessOf m t sid).isNone then resetSession m f t sid
    else
      let n := (nctOf m t sid).getD (NctSess.start (peerOfFrame f))
      setNct m t sid (takeAck n (ncAck b) (ncSack b))

/-! ### Timers of a session (03 R91, R92) -/

/-- NCT_ACK_DELAY_EXPIRY. -/
def opAckDelay (t sid : Nat) (m : Mod) : Mod :=
  match nctOf m t sid with
  | none => m
  | some n =>
    if m.powered && n.ackDue.elim false (fun d => decide (d ≤ m.clk)) then
      let w := nctWindow m t
      sendNct (setNct m t sid { n with ackDue := none, window := some w }) n.peer
        (nctHeader 2 t sid 0 n.ackDsn (nctSack n) w 0)
    else m

/-- A completion datagram sent again: its interval doubles. -/
def resend (m : Mod) (t sid : Nat) (n : NctSess) (s : NctSent) : Mod :=
  let w := nctWindow m t
  let s' := { s with due := m.clk + 2 * s.gap, gap := 2 * s.gap, tries := s.tries + 1 }
  let n' :=
    { n with
      sent := n.sent.map (fun x => if x.dsn = s.dsn then s' else x), window := some w, ackDue := none }
  sendNct (setNct m t sid n') n.peer (nctHeader 1 t sid s.dsn n.ackDsn (nctSack n) w s.count ++ s.recs)

/-- NCT_RETRANSMIT. -/
def opNctRetransmit (t sid dsn : Nat) (m : Mod) : Mod :=
  match nctOf m t sid with
  | none => m
  | some n =>
    match n.sent.find? (fun s => s.dsn == dsn && decide (s.due ≤ m.clk)) with
    | none => m
    | some s =>
      if !m.powered then m
      else if s.tries < m.nif.retries then resend m t sid n s
      else
        let m1 := setNct m t sid { n with sent := n.sent.filter (fun x => x.dsn != dsn) }
        { m1 with nif := { m1.nif with giveup := m1.nif.giveup + 1 } }

/-- NCT_COALESCE_EXPIRY. -/
def opNctCoalesce (t sid : Nat) (m : Mod) : Mod :=
  match nctOf m t sid with
  | none => m
  | some n => if m.powered && decide (n.heldSince + m.nif.coalesce * 1000 ≤ m.clk) then sendHeld m t sid else m

/-! ### Own addresses (03 R93, R94) -/

/-- An answer to a frame leaves through the next hop of its source. -/
def answer (m : Mod) (f : NetFrame) (o : NetHdr → Output) : Mod := sendFrame m f.port f.vlan f.v6 f.src o id

/-- ARP_REQUEST_RX. -/
def opArpRequest (f : NetFrame) (m : Mod) : Mod :=
  if !frameHeard m f then m
  else if frameFits m f && !f.v6 && (ownAddress m f.port f.vlan false f.target).isSome then
    answer m f (fun h => .arpReply h (f.target.take 4) f.src f.srcMac)
  else nctDrop m

/-- NEIGHBOR_SOLICITATION_RX. -/
def opNeighborSol (f : NetFrame) (m : Mod) : Mod :=
  if !frameHeard m f then m
  else if frameFits m f && f.v6 && (ownAddress m f.port f.vlan true f.target).isSome then
    answer m f (fun h => .neighborAdvert h (f.target.take 16) f.src)
  else nctDrop m

/-- ICMP_ECHO_REQUEST_RX. -/
def opEchoRequest (f : NetFrame) (m : Mod) : Mod :=
  if !frameHeard m f then m
  else if frameFits m f && (ownAddress m f.port f.vlan f.v6 f.dst).isSome then
    answer m f (fun h => .echoReply h f.v6 f.dst f.src f.payload)
  else nctDrop m

/-- NET_PORT_LINK_CHANGE (03 Table 3.18). -/
def opNetLink (n : Nat) (link fec : Bool) (m : Mod) : Mod :=
  if !m.powered ∨ 8 ≤ n then m
  else { m with nif := { m.nif with port := tblUpd NetPort.reset m.nif.port n (fun p => { p with link := link, fec := fec }) } }

end Sys2Proof.Machine
end

