-- ==== Sys2Proof/Machine/Flags.lean ====
section
/-! DEFINITION. The status bits software reads, clears, enables and sets for test: block interrupts and their error
records, tenant sources 5 and 6, and the control word of a block (02 R35 to R39, R485). -/

namespace Sys2Proof.Machine

/-- The block-specific bits of INT_STAT each block's chapter defines, with the common bits of Table 2.5. -/
def intBits (b : Blk) : W32 :=
  let own : Nat := match b with
    | .hif => 0x01
    | .nif => 0x00
    | .tlk => 0x3F
    | .cmq => 0x07
    | .sch => 0x07
    | .txp => 0x07
    | .sce => 0x07
    | .dge => 0x05
    | .pke => 0x07
    | .khs => 0x1F
    | .kch => 0x3F
    | .bsx => 0x1F
    | .rtb => 0x0F
    | .rng => 0x0F
    | .acu => 0x00
    | .tim => 0x3F
    | .dcu => 0x07
    | .jnl => 0x1F
    | .ssv => 0x1F
    | .lcc => 0x07
    | .evr => 0x07
    | .pmc => 0x01
    | .hlt => 0x07
  BitVec.ofNat 32 (0xC0000000 + own)

/-- Bits that hardware holds set: SSV_INT_STAT.ALARM while a latch bit is set (15 R393), SCH_INT_STAT.KEY_OVF while the
overflow list is not empty (04 R111), KHS_INT_STAT.KST_HIGH while the key state table is 90 % full (05 R150),
KCH_INT_STAT.REHASH_REQ and REHASH_URGENT until the stash falls below their counts (06 R182). -/
def heldBits (m : Mod) (b : Blk) : W32 :=
  if (b = .ssv ∧ m.ssv.latch ≠ 0) ∨ (b = .sch ∧ !m.sch.overflow.isEmpty) then 1
  else if b = .khs ∧ kstHigh m then 8
  else if b = .kch then stashBits m.kch.stash.length &&& 3
  else 0

/-- The error record after bits of INT_STAT are cleared: released when the bit it names is among them (02 R38). -/
def releaseErr (h : BlkHdr) (bits : W32) : BlkHdr :=
  if h.errCode &&& 0xFFFF#32 ≠ 0 ∧ bits.getLsbD (h.errCode.extractLsb' 16 8).toNat then { h with errCode := 0, errAddr := 0 }
  else h

/-- A write to INT_STAT: bits cleared, the vector signalled again where the condition stays true (02 R38, R39). -/
def clearInt (b : Blk) (bits : W32) (m : Mod) : Mod :=
  let v := bits &&& intBits b
  let m1 := updBlk m b (fun h =>
    releaseErr { h with intStat := (h.intStat &&& ~~~v) ||| (h.intStat &&& v &&& heldBits m b) } (v &&& ~~~(heldBits m b)))
  if blkPending (blkOf m1 b) then signalBlk m1 b else m1

/-- A write to INT_EN. -/
def setIntEn (b : Blk) (v : W32) (m : Mod) : Mod := withPending m b (fun h => { h with intEn := v &&& intBits b })

/-- A write to INT_TEST: bits set, with no error record (02 R38). -/
def testInt (b : Blk) (v : W32) (m : Mod) : Mod := raiseInt m b (v &&& intBits b)

/-! ### The control word (02 R36, R37) -/

/-- Blocks software cannot quiesce or disable (02 R37, 13 R359, 14 R385, 19 R482). -/
def fixedBlk (b : Blk) : Bool :=
  b == .ssv || b == .lcc || b == .acu || b == .khs || b == .rng || b == .dcu || b == .hlt || b == .jnl ||
    b == .tim || b == .tlk

/-- Whether work remains in a block (02 Table 2.4; log 49). -/
def blkWork (m : Mod) (b : Blk) : Bool :=
  match b with
  | .hif => !m.cmq.ptr.isEmpty || m.ten.any (fun p => p.2.qp.any (fun q => q.2.reading.isSome)) ||
      m.port.any (fun p => p.2.admq.reading.isSome)
  | .nif => m.nif.sess.any (fun p => !p.2.sent.isEmpty || !p.2.held.isEmpty)
  | .tlk => !m.jnl.issued.isEmpty
  | .cmq => !m.cmq.cmds.isEmpty || m.ten.any (fun p => !p.2.parked.isEmpty)
  | .sch => (List.range 8).any (fun l => decide (0 < readyCount m l))
  | .txp => decide (0 < ctxCount m)
  | .sce => !m.sce.jobs.isEmpty
  | .dge => !m.dge.jobs.isEmpty
  | .pke => !m.pke.queue.isEmpty || m.pke.eng.any (fun p => p.2.state == .loading || p.2.state == .zeroing)
  | .kch => m.kch.busy || m.kch.lines.any (fun p => p.2.state == .fetching)
  | .bsx => !m.bsx.slots.isEmpty || !m.bsx.pend.isEmpty
  | .rtb => m.rtb.compacting.isSome || !m.rtb.old.isEmpty
  | .evr => m.evr.writing
  | _ => false

/-- BLK_STAT.QUIESCED. -/
def quiesced (m : Mod) (b : Blk) : Bool := (blkOf m b).ctl.getLsbD 1 && !blkWork m b

/-- BLK_CTL as it reads: the request of a self-test, and the bits stored. -/
def ctlRead (m : Mod) (b : Blk) : W32 :=
  ((blkOf m b).ctl &&& 0xFF000003) ||| (if (blkOf m b).testReq then 4 else 0)

/-- A write to BLK_CTL, judged whole. -/
def ctlWrite (b : Blk) (v : W32) (m : Mod) : Mod :=
  let old := (blkOf m b).ctl
  let low := if fixedBlk b then old &&& 3 else v &&& 3
  if !fixedBlk b && !v.getLsbD 0 && !quiesced m b then m
  else updBlk m b (fun h => { h with ctl := (v &&& 0xFF000000) ||| low, testReq := v.getLsbD 2 })

/-- BLK_STAT (02 Table 2.4). -/
def blkStat (m : Mod) (b : Blk) : W32 :=
  let h := blkOf m b
  BitVec.ofNat 32 (h.health % 16 * 2 ^ 4 + (if h.fault then 8 else 0) + (if h.testLeft.isEmpty then 0 else 4) +
    (if quiesced m b then 2 else 0) + (if h.ready then 1 else 0))

/-! ### Tenant sources (02 R485) -/

/-- A write to TEN_INT_STAT. -/
def clearTen (t : Nat) (v : BitVec 6) (m : Mod) : Mod :=
  let m1 := updTen m t (fun h => { h with intStat := h.intStat &&& ~~~v })
  if (tenOf m1 t).intStat &&& (tenOf m1 t).intEn = 0 then m1 else signalBoth m1 t 5

/-- A write to TEN_INT_EN: source 5 becomes pending where bits are set already. -/
def setTenEn (t : Nat) (v : BitVec 6) (m : Mod) : Mod :=
  let old := (tenOf m t).intStat &&& (tenOf m t).intEn
  let m1 := updTen m t (fun h => { h with intEn := v })
  if old = 0 ∧ (tenOf m1 t).intStat &&& v ≠ 0 then signalBoth m1 t 5 else m1

/-- Whether source 6 of a tenant is pending. -/
def scxPending (m : Mod) (t : Nat) : Bool :=
  (List.range 8).any (fun c => (strOf m t c).event &&& (strOf m t c).eventEn != 0)

/-- A write to SCX_EVENT. -/
def clearScx (t c : Nat) (v : BitVec 2) (m : Mod) : Mod :=
  let m1 := updStr m t c (fun x => { x with event := x.event &&& ~~~v })
  if scxPending m1 t then signalBoth m1 t 6 else m1

/-- A write to SCX_EVENT_EN. -/
def setScxEn (t c : Nat) (v : BitVec 2) (m : Mod) : Mod :=
  let m1 := updStr m t c (fun x => { x with eventEn := v })
  if !scxPending m t && scxPending m1 t then signalBoth m1 t 6 else m1

end Sys2Proof.Machine
end

