-- ==== Sys2Proof/Machine/Reg.lean ====
section
/-! DEFINITION. Registers as software sees them: what a read returns and does, what a write does under each access code
(00 R9 to R11), and the common page header (02 Table 2.1). -/

namespace Sys2Proof.Machine

/-- A register: whether it is 64 bits wide, its value, what a read returns and does, and what a write of some enabled
bits does. It stands in no state. -/
structure Reg where
  wide : Bool
  get : Mod → W64
  read : Mod → W64 × Mod
  put : W64 → W64 → Mod → Mod

/-- What an access brings to a register: its port (port A for an initiator with none, log 50), its colour, and for the
registers whose writes have physical outcomes what those are. -/
structure RegEnv where
  port : Port
  colour : Nat
  still : W32
  ok : Bool
  agree : Bool
  deriving DecidableEq, Repr

/-! ### Access codes (00 Table 0.5) -/

/-- A value merged with the enabled bits of a write. -/
def merged (old mask v : W64) : W64 := (old &&& ~~~mask) ||| (v &&& mask)

/-- Read only. -/
def ro (g : Mod → Nat) : Reg :=
  { wide := false, get := fun m => BitVec.ofNat 64 (g m), read := fun m => (BitVec.ofNat 64 (g m), m),
    put := fun _ _ m => m }

/-- Read only, 64 bits. -/
def ro64 (g : Mod → W64) : Reg :=
  { wide := true, get := g, read := fun m => (g m, m), put := fun _ _ m => m }

/-- Read and write: the setter gets the whole new value. -/
def rw (g : Mod → Nat) (s : Nat → Mod → Mod) : Reg :=
  { wide := false, get := fun m => BitVec.ofNat 64 (g m), read := fun m => (BitVec.ofNat 64 (g m), m),
    put := fun mask v m => s (merged (BitVec.ofNat 64 (g m)) mask v).toNat m }

/-- Read and write, 64 bits. -/
def rw64 (g : Mod → W64) (s : W64 → Mod → Mod) : Reg :=
  { wide := true, get := g, read := fun m => (g m, m), put := fun mask v m => s (merged (g m) mask v) m }

/-- Status whose bits a write of 1 clears: the action gets the bits to clear. -/
def w1c (g : Mod → Nat) (clr : W64 → Mod → Mod) : Reg :=
  { wide := false, get := fun m => BitVec.ofNat 64 (g m), read := fun m => (BitVec.ofNat 64 (g m), m),
    put := fun mask v m => clr (v &&& mask) m }

/-- A highest or longest value that a write of 1 to bit 0 clears. -/
def w1cAll (g : Mod → Nat) (clr : Mod → Mod) : Reg := w1c g (fun v m => if v.getLsbD 0 then clr m else m)

/-- Write only: the action gets the bits written. -/
def wo (act : W64 → Mod → Mod) : Reg :=
  { wide := false, get := fun _ => 0, read := fun m => (0, m), put := fun mask v m => act (v &&& mask) m }

/-- Write only, 64 bits. -/
def wo64 (act : W64 → Mod → Mod) : Reg :=
  { wide := true, get := fun _ => 0, read := fun m => (0, m), put := fun mask v m => act (v &&& mask) m }

/-- A register whose writes are saved to CONFIG, an object sealed under the DSK (19 R473, 05 R131). -/
def saved (r : Reg) : Reg := { r with put := fun mask v m => noteSealed (r.put mask v m) }

/-- A 64-bit register whose read changes the block. -/
def pop64 (f : Mod → W64 × Mod) : Reg :=
  { wide := true, get := fun m => (f m).1, read := f, put := fun _ _ m => m }

/-! ### Small helpers of the tables -/

/-- The low 32 bits of a write. -/
def low32 (v : W64) : W32 := v.extractLsb' 0 32

/-- A Bool as a bit at a place. -/
def bitAt (n : Nat) (b : Bool) : Nat := if b then 2 ^ n else 0

/-- The row of an array whose stride is `step` from `base`: the index and the offset within. -/
def rowOf (base step count off : Nat) : Option (Nat × Nat) :=
  if base ≤ off ∧ off < base + step * count then some ((off - base) / step, (off - base) % step) else none

/-- 32 bits of a byte string at an offset, 0 past its end. -/
def word32 (b : Bytes) (off : Nat) : Nat := leNat (sliceOf b off 4)

/-- A value kept only inside a range. -/
def within (lo hi n : Nat) : Bool := decide (lo ≤ n ∧ n ≤ hi)

/-! ### The common header (02 Tables 2.1 to 2.6) -/

/-- BLK_CAP of each block. -/
def blkCap (b : Blk) : Nat :=
  match b with
  | .hif => 0x00000002
  | .nif => 0x00000008
  | .tlk => 0x00000803
  | .cmq => 0x00004000
  | .sch => 0x00000008
  | .txp => 0x00000040
  | .sce => 0x00000208
  | .dge => 0x00000008
  | .pke => 0x00004040
  | .khs => 0x00001000
  | .kch => 0x00060000
  | .bsx => 0x00000400
  | .rtb => 0x00200000
  | .rng => 0x00000002
  | .acu => 0x00000020
  | .tim => 0x00000003
  | .dcu => 0x00001008
  | .jnl => 0x00000100
  | .ssv => 0x00001830
  | .lcc => 0x00000006
  | .evr => 0x00000040
  | .pmc => 0x00000100
  | .hlt => 0x00000017

/-- BLK_ID (02 Table 2.2). -/
def blkId (b : Blk) : Nat := (0x10 + b.idx) * 2 ^ 24 + 2 ^ 16

/-- The registers of page 0 of a block. -/
def headRegs (b : Blk) (off : Nat) : Option Reg :=
  tblFind
    [(0x000, ro (fun _ => blkId b)),
     (0x004, ro (fun _ => blkCap b)),
     (0x008, rw (fun m => (ctlRead m b).toNat) (fun v m => ctlWrite b (BitVec.ofNat 32 v) m)),
     (0x00C, ro (fun m => (blkStat m b).toNat)),
     (0x010, w1c (fun m => (blkOf m b).intStat.toNat) (fun v m => clearInt b (low32 v) m)),
     (0x014, rw (fun m => (blkOf m b).intEn.toNat) (fun v m => setIntEn b (BitVec.ofNat 32 v) m)),
     (0x018, wo (fun v m => testInt b (low32 v) m)),
     (0x01C, ro (fun m => (blkOf m b).errCode.toNat)),
     (0x020, ro (fun m => (blkOf m b).errAddr.toNat % 2 ^ 32)),
     (0x024, ro (fun m => (blkOf m b).errAddr.toNat / 2 ^ 32)),
     (0x028, ro (fun _ => b.idx))] off

end Sys2Proof.Machine
end

