-- ==== Sys2Proof/Machine/RegsHost.lean ====
section
/-! DEFINITION. Registers of the DEV header, HIF, NIF, CMQ and the tenant windows (02 Tables 2.8, 2.10, 2.15, 03 Tables 3.6
to 3.20, 08 Table 8.13, 12 Table 12.10, 17 Table 17.9). -/

namespace Sys2Proof.Machine

/-! ### The DEV header and the MSI-X structures -/

/-- Blocks with an interrupt pending, a bit each. -/
def intSum (m : Mod) : Nat := blkList.foldl (fun a b => if blkPending (blkOf m b) then a + 2 ^ b.idx else a) 0

/-- DEV_ADMQ_STAT of a port. -/
def admqStat (m : Mod) (p : Port) : Nat := bitAt 0 (admqOf m p).doorbellErr + bitAt 1 (admqOf m p).fetchErr

/-- The registers of DEV page 0 (02 Table 2.8). -/
def devRegs (e : RegEnv) (off : Nat) : Option Reg :=
  let p := e.port
  let half := fun (get : AdminQ → W64) (set : AdminQ → W64 → AdminQ) (hi : Bool) =>
    rw (fun m => if hi then (get (admqOf m p)).toNat / 2 ^ 32 else (get (admqOf m p)).toNat % 2 ^ 32)
      (fun v m => updAdmq m p (fun q => set q (basePage (setHalf (get q) hi (BitVec.ofNat 32 v)))))
  let sq := half (fun q => q.sqBaseNew) (fun q v => { q with sqBaseNew := v })
  let cq := half (fun q => q.cqBaseNew) (fun q v => { q with cqBaseNew := v })
  tblFind
    [(0x00, ro (fun _ => 0x94200001)),
     (0x04, ro (fun _ => 0x00010017)),
     (0x08, ro (fun _ => Config.devUid.toNat % 2 ^ 32)),
     (0x0C, ro (fun _ => Config.devUid.toNat / 2 ^ 32)),
     (0x10, ro (fun m => (devStat m).toNat)),
     (0x14, ro (fun m => p.idx + bitAt 1 (portOf m p.other).linkUp)),
     (0x20, ro intSum),
     (0x24, rw (fun m => (portOf m p).intEn.toNat)
       (fun v m => updPort m p (fun s => { s with intEn := BitVec.ofNat 32 (v % 2 ^ 23) }))),
     (0x30, rw (fun m => bitAt 0 (portOf m p).bar2En)
       (fun v m => updPort m p (fun s => { s with bar2En := v.testBit 0 }))),
     (0x40, sq false),
     (0x44, sq true),
     (0x48, rw (fun m => (admqOf m p).sqSize) (fun v m => admqSqSizeEff p (BitVec.ofNat 32 v) m)),
     (0x4C, rw (fun m => (admqOf m p).sqTail) (fun v m => admqSqTailEff p (BitVec.ofNat 32 v) m)),
     (0x50, cq false),
     (0x54, cq true),
     (0x58, rw (fun m => (admqOf m p).cqSize) (fun v m => admqCqSizeEff p (BitVec.ofNat 32 v) m)),
     (0x5C, rw (fun m => (admqOf m p).cqHead) (fun v m => admqCqHeadEff p (BitVec.ofNat 32 v) m)),
     (0x60, w1c (fun m => admqStat m p) (fun v m => updAdmq m p (fun q =>
       { q with
         doorbellErr := q.doorbellErr && !v.getLsbD 0, fetchErr := q.fetchErr && !v.getLsbD 1 })))] off

/-- An MSI-X entry after one of its words is written: the address is 4-byte aligned, bit 0 of the control masks. -/
def msixPut (x : MsixEntry) (word v : Nat) : MsixEntry :=
  match word with
  | 0 => { x with addr := setHalf x.addr false (BitVec.ofNat 32 (v / 4 * 4)) }
  | 1 => { x with addr := setHalf x.addr true (BitVec.ofNat 32 v) }
  | 2 => { x with data := BitVec.ofNat 32 v }
  | _ => { x with ctl := BitVec.ofNat 32 (v % 2) }

/-- A word of an MSI-X entry. -/
def msixGet (x : MsixEntry) (word : Nat) : Nat :=
  match word with
  | 0 => x.addr.toNat % 2 ^ 32
  | 1 => x.addr.toNat / 2 ^ 32
  | 2 => x.data.toNat
  | _ => x.ctl.toNat

/-- A vector of the PF written; a pending one that is unmasked leaves (PCIe; log 11). -/
def msixWritePf (p : Port) (n word v : Nat) (m : Mod) : Mod :=
  let x := msixPut (tblGet MsixEntry.reset (portOf m p).msix n) word v
  let m1 := updPort m p (fun s => { s with msix := tblSet s.msix n x })
  if tblGet false (portOf m1 p).pba n && !x.ctl.getLsbD 0 then
    postMsg (updPort m1 p (fun s => { s with pba := tblErase s.pba n })) p { vf := 0, vector := n, addr := x.addr, data := x.data }
  else m1

/-- A vector of a VF written. -/
def msixWriteVf (p : Port) (vf n word v : Nat) (m : Mod) : Mod :=
  let k := vf * 8 + n
  let x := msixPut (tblGet MsixEntry.reset (portOf m p).vfMsix k) word v
  let m1 := updPort m p (fun s => { s with vfMsix := tblSet s.vfMsix k x })
  if tblGet false (portOf m1 p).vfPba k && !x.ctl.getLsbD 0 then
    postMsg (updPort m1 p (fun s => { s with vfPba := tblErase s.vfPba k })) p { vf := vf, vector := n, addr := x.addr, data := x.data }
  else m1

/-- 32 pending bits of a table from one number on. -/
def pbaWord (t : Tbl Bool) (first count : Nat) : Nat :=
  (List.range count).foldl (fun a i => a + bitAt i (tblGet false t (first + i))) 0

/-- The MSI-X table (DEV page 8) and the pending bits (DEV page 12) of a port. -/
def msixRegs (e : RegEnv) (off : Nat) : Option Reg :=
  let n := off / 16
  let w := off % 16 / 4
  if off % 4 ≠ 0 then none
  else some (rw (fun m => msixGet (tblGet MsixEntry.reset (portOf m e.port).msix n) w) (fun v m => msixWritePf e.port n w v m))
def pbaRegs (e : RegEnv) (off : Nat) : Option Reg :=
  if off % 4 ≠ 0 ∨ 0x20 ≤ off then none else some (ro (fun m => pbaWord (portOf m e.port).pba (off * 8) 32))

/-- The MSI-X structures of a VF, in its BAR2 (02 R50). -/
def vfMsixRegs (p : Port) (vf off : Nat) : Option Reg :=
  let n := off / 16
  let w := off % 16 / 4
  if off % 4 ≠ 0 then none
  else if off < 0x80 then
    some (rw (fun m => msixGet (tblGet MsixEntry.reset (portOf m p).vfMsix (vf * 8 + n)) w) (fun v m => msixWriteVf p vf n w v m))
  else if off = 0x800 then some (ro (fun m => pbaWord (portOf m p).vfPba (vf * 8) 8))
  else none

/-! ### The violation FIFO (02 Table 2.15) -/

/-- A word of the record shown. -/
def vioWord (m : Mod) (f : Violation → W64) : W64 := m.acu.fifo.head?.elim 0 f

/-- The registers of ACU page 1. What writes do to the store of violations is `acuNext`. -/
def vioRegs (off : Nat) : Option Reg :=
  tblFind
    [(0x00, ro64 (fun m => vioWord m (fun x => x.w0))),
     (0x08, ro64 (fun m => vioWord m (fun x => x.w1))),
     (0x10, ro64 (fun m => vioWord m (fun x => x.w2))),
     (0x18, ro64 (fun m => vioWord m (fun x => x.w3))),
     (0x20, wo (fun _ m => m)),
     (0x24, ro (fun m => m.acu.fifo.length)),
     (0x28, w1cAll (fun m => m.acu.lost.toNat) id)] off

/-! ### HIF and NIF (03 Tables 3.18 to 3.20) -/

/-- HIF_PSTAT of a port. -/
def hifPstat (m : Mod) (p : Port) : Nat :=
  let s := portOf m p
  bitAt 16 s.linkUp + s.width % 32 * 16 + s.gen % 16

/-- The registers of HIF page 1. -/
def hifRegs (off : Nat) : Option Reg :=
  tblFind [(0x100, ro (fun m => hifPstat m .a)), (0x104, ro (fun m => hifPstat m .b)), (0x108, ro64 (fun m => m.dmaErr))] off

/-- A NET port changed. -/
def updNetPort (m : Mod) (n : Nat) (f : NetPort → NetPort) : Mod :=
  { m with nif := { m.nif with port := tblUpd NetPort.reset m.nif.port n f } }

/-- Half of a MAC address replaced. -/
def setMac (x : BitVec 48) (hi : Bool) (v : Nat) : BitVec 48 :=
  if hi then BitVec.ofNat 48 (v % 2 ^ 16 * 2 ^ 32 + x.toNat % 2 ^ 32) else BitVec.ofNat 48 (x.toNat / 2 ^ 32 * 2 ^ 32 + v % 2 ^ 32)

/-- NIF page 1: ports. -/
def nifPortRegs (off : Nat) : Option Reg :=
  (rowOf 0x100 0x10 8 off).bind (fun (n, o) => tblFind
    [(0x0, saved (rw (fun m => (netPortOf m n).ctl.toNat) (fun v m =>
       if within 1518 9216 (v / 2 ^ 16 % 2 ^ 14) then updNetPort m n (fun p => { p with ctl := BitVec.ofNat 32 v &&& 0x3FFF0001 })
       else m))),
     (0x4, ro (fun m => bitAt 0 (netPortOf m n).link + bitAt 1 (netPortOf m n).fec)),
     (0x8, saved (rw (fun m => (netPortOf m n).mac.toNat % 2 ^ 32) (fun v m => updNetPort m n (fun p => { p with mac := setMac p.mac false v })))),
     (0xC, saved (rw (fun m => (netPortOf m n).mac.toNat / 2 ^ 32) (fun v m => updNetPort m n (fun p => { p with mac := setMac p.mac true v }))))] o)

/-- An address or next-hop entry after its control word is written: a prefix length outside its range is ignored. -/
def entryCtl (mask : W32) (e : NetEntry) (v : Nat) : NetEntry :=
  let c := BitVec.ofNat 32 v &&& mask
  let len := (c.extractLsb' 24 8).toNat
  if (if c.getLsbD 1 then 128 else 32) < len then e else { e with ctl := c }

/-- Another word of an entry written, ignored while the entry is in use. -/
def entryWord (e : NetEntry) (f : NetEntry → NetEntry) : NetEntry := if neValid e then e else f e

/-- The registers of an entry, reached by a getter and a setter. -/
def entryRegs (mask : W32) (mac : Bool) (get : Mod → NetEntry) (upd : (NetEntry → NetEntry) → Mod → Mod) (o : Nat) : Option Reg :=
  if o = 0 then some (rw (fun m => (get m).ctl.toNat) (fun v => upd (fun e => entryCtl mask e v)))
  else if o % 4 = 0 ∧ o ≤ 0x10 then
    some (rw (fun m => word32 (get m).addr (o - 4))
      (fun v => upd (fun e => entryWord e (fun e => { e with addr := putAt (fitRight 16 e.addr) (o - 4) (natLe 4 v) }))))
  else if mac ∧ o = 0x14 then
    some (rw (fun m => (get m).mac.toNat % 2 ^ 32) (fun v => upd (fun e => entryWord e (fun e => { e with mac := setMac e.mac false v }))))
  else if mac ∧ o = 0x18 then
    some (rw (fun m => (get m).mac.toNat / 2 ^ 32) (fun v => upd (fun e => entryWord e (fun e => { e with mac := setMac e.mac true v }))))
  else none

/-- NIF page 2: addresses; page 3: next hops. -/
def nifAddrRegs (off : Nat) : Option Reg :=
  (rowOf 0x100 0x20 32 off).bind (fun (k, o) => entryRegs 0xFF0FFF77 false (fun m => tblGet NetEntry.reset m.nif.addr k)
    (fun f m => { m with nif := { m.nif with addr := tblUpd NetEntry.reset m.nif.addr k f } }) o |>.map saved)
def nifHopRegs (off : Nat) : Option Reg :=
  (rowOf 0x100 0x20 64 off).bind (fun (h, o) => entryRegs 0xFF0FFF73 true (fun m => tblGet NetEntry.reset m.nif.nh h)
    (fun f m => { m with nif := { m.nif with nh := tblUpd NetEntry.reset m.nif.nh h f } }) o |>.map saved)

/-- NIF page 4: the capsule transport. -/
def nctRegs (off : Nat) : Option Reg :=
  let set := fun (lo hi w : Nat) (f : NifState → Nat → NifState) (v : Nat) (m : Mod) =>
    if within lo hi (v % w) then { m with nif := f m.nif (v % w) } else m
  tblFind
    [(0x100, saved (rw (fun m => m.nif.udpPort) (set 0 65535 65536 (fun n v => { n with udpPort := v })))),
     (0x104, saved (rw (fun m => m.nif.rto) (set 10 10000 65536 (fun n v => { n with rto := v })))),
     (0x108, saved (rw (fun m => m.nif.retries) (set 1 15 16 (fun n v => { n with retries := v })))),
     (0x10C, saved (rw (fun m => m.nif.ackDelay) (set 0 100 256 (fun n v => { n with ackDelay := v })))),
     (0x110, saved (rw (fun m => m.nif.coalesce) (set 0 10 16 (fun n v => { n with coalesce := v })))),
     (0x118, ro64 (fun m => m.nif.drop)),
     (0x120, ro64 (fun m => m.nif.giveup))] off

/-! ### CMQ page 1 (03 Table 3.17, 12 Table 12.10) -/

/-- The state of a tenant as TEN_STATE shows it: FROZEN from the stamp of its freeze (12 R337). -/
def tenShown (m : Mod) (t : Nat) : TenState := if (tenOf m t).draining then .frozen else (tenantOf m t).state

/-- CMQ_TCFG. -/
def tcfgRead (m : Mod) (t : Nat) : Nat :=
  let h := tenOf m t
  bitAt 0 h.attA + bitAt 1 h.attB + bitAt 2 h.attNet + 16 * (h.fifoPortNew.getD h.fifoPort).idx

/-- A write to CMQ_TCFG (03 R96, Table 3.17). -/
def tcfgWrite (t v : Nat) (m : Mod) : Mod :=
  let p := portOfBit (v.testBit 4)
  let m1 := updTen m t (fun h =>
    { h with
      attA := v.testBit 0, attB := v.testBit 1, attNet := v.testBit 2
      fifoPortNew := if h.fifoPort = p then none else some p })
  noteFifoPort m1 t

/-- A tenant's VF on a port; the tenant bound to a VF. -/
def vfOf (h : TenHost) (p : Port) : Nat := match p with | .a => h.vfA | .b => h.vfB
def tenantOfVf (m : Mod) (p : Port) (n : Nat) : Option Nat :=
  if n = 0 then none else (m.ten.find? (fun x => vfOf x.2 p == n)).map Prod.fst

/-- A write to CMQ_TVF (12 R325). -/
def vfBind (t : Nat) (p : Port) (v : Nat) (m : Mod) : Mod :=
  let n := v % 8192
  let old := vfOf (tenOf m t) p
  let taken : Bool := (tenantOfVf m p n).elim false (fun x => x != t)
  if 4096 < n ∨ taken ∨ (old ≠ 0 ∧ n ≠ old ∧ tenShown m t = .active) then updTen m t (fun h => { h with bindRefused := true })
  else updTen m t (fun h => match p with | .a => { h with vfA := n } | .b => { h with vfB := n })

/-- Sessions of a tenant. -/
def sessUsed (m : Mod) (t : Nat) : Nat := m.dur.sess.countP (fun p => p.1 / 65536 == t)

/-- CMQ_TMIG. -/
def tmigRead (m : Mod) (t : Nat) : Nat :=
  let x := tenantOf m t
  bitAt 0 x.migratedOut + bitAt 1 x.offer.isSome + bitAt 2 x.rerootArmed.isSome

/-- The registers of CMQ page 1. -/
def cmqRegs (off : Nat) : Option Reg :=
  let t := fun (m : Mod) => m.cmq.tsel
  let ten := fun (f : TenHost → Nat) => fun (m : Mod) => f (tenOf m (t m))
  let setTen := fun (ok : Nat → Bool) (f : TenHost → Nat → TenHost) (v : Nat) (m : Mod) =>
    if ok v then updTen m (t m) (fun h => f h v) else m
  tblFind
    ([(0x100, ro tagsUsed),
      (0x104, w1cAll (fun m => m.cmq.hwm) (fun m => { m with cmq := { m.cmq with hwm := 0 } })),
      (0x108, ro (fun m => m.dur.reqids.length)),
      (0x10C, rw (fun m => t m) (fun v m => { m with cmq := { m.cmq with tsel := v % 4096 } })),
      (0x110, saved (rw (fun m => tcfgRead m (t m)) (fun v m => tcfgWrite (t m) v m))),
      (0x114, saved (rw (ten (fun h => h.tvec)) (setTen (fun v => decide (32 ≤ v % 256)) (fun h v => { h with tvec := v % 512 })))),
      (0x118, saved (rw (ten (fun h => h.tnct)) (setTen (fun v => within 1 1024 (v % 2048)) (fun h v => { h with tnct := v % 2048 })))),
      (0x11C, ro (fun m => tagsOf m (t m) + (tenOf m (t m)).parked.length * 2 ^ 16))] ++
     [(0x180, saved (rw (ten (fun h => h.vfA)) (fun v m => vfBind (t m) .a v m))),
      (0x184, saved (rw (ten (fun h => h.vfB)) (fun v m => vfBind (t m) .b v m))),
      (0x188, w1cAll (ten (fun h => bitAt 0 h.bindRefused)) (fun m => updTen m (t m) (fun h => { h with bindRefused := false }))),
      (0x18C, saved (rw (ten (fun h => h.sessCap)) (setTen (fun v => v % 65536 != 0) (fun h v => { h with sessCap := v % 65536 })))),
      (0x190, ro (fun m => sessUsed m (t m))),
      (0x194, ro (fun m => (tenantOf m (t m)).creds.foldl (fun a p => a + 2 ^ p.1) 0)),
      (0x198, ro (fun m => tmigRead m (t m))),
      (0x19C, ro (fun m => bitAt 0 (tenantOf m (t m)).openCaps)),
      (0x1A0, ro (fun m => m.dur.sess.length)),
      (0x1A4, ro (fun m => m.dur.ten.countP (fun p => p.2.state != .closed)))]) off

/-! ### Tenant windows (02 Table 2.10) -/

/-- The TEN page (03 Table 3.13). -/
def tenRegs (t off : Nat) : Option Reg :=
  let state := fun (m : Mod) =>
    (tenShown m t).code + bitAt 8 (tenantOf m t).openCaps + bitAt 9 m.devReady + bitAt 10 ((devStat m).getLsbD 1) +
      bitAt 11 (trustedNow m)
  tblFind
    [(0x00, ro (fun _ => t)),
     (0x04, ro state),
     (0x08, ro (fun m => freeTagsOf m t + (256 - (tenOf m t).parked.length) * 2 ^ 16)),
     (0x10, w1c (fun m => (tenOf m t).intStat.toNat) (fun v m => clearTen t (v.extractLsb' 0 6) m)),
     (0x14, rw (fun m => (tenOf m t).intEn.toNat) (fun v m => setTenEn t (BitVec.ofNat 6 v) m)),
     (0x18, ro (fun m => (tenOf m t).errQp))] off

/-- QP_STAT (03 Table 3.7). -/
def qpStat (m : Mod) (t q : Nat) : Nat :=
  let x := qpOf m t q
  bitAt 31 (qpActive m t q) + bitAt 30 x.error + x.sqHead % 4096 * 2 ^ 16 + x.cqTail % 4096

/-- QP_CTL written. -/
def qpCtl (t q v : Nat) (m : Mod) : Mod :=
  if v.testBit 0 then qpEnableEff t q (v.testBit 1) m else qpDisableEff t q (v.testBit 1) m

/-- The QP page (03 Table 3.6). -/
def qpRegs (e : RegEnv) (t off : Nat) : Option Reg :=
  let q := off / 0x100
  let x := fun (m : Mod) => qpOf m t q
  let w := fun (v : Nat) => BitVec.ofNat 32 v
  if 4 ≤ q then none
  else tblFind
    [(0x00, rw (fun m => (x m).sqBase.toNat % 2 ^ 32) (fun v m => qpSqBase t q e.port false (w v) m)),
     (0x04, rw (fun m => (x m).sqBase.toNat / 2 ^ 32) (fun v m => qpSqBase t q e.port true (w v) m)),
     (0x08, rw (fun m => (x m).sqSize) (fun v m => qpSize t q true (w v) m)),
     (0x0C, rw (fun m => (x m).sqTail) (fun v m => qpSqTail t q (w v) m)),
     (0x10, rw (fun m => (x m).cqBase.toNat % 2 ^ 32) (fun v m => qpCqBase t q false (w v) m)),
     (0x14, rw (fun m => (x m).cqBase.toNat / 2 ^ 32) (fun v m => qpCqBase t q true (w v) m)),
     (0x18, rw (fun m => (x m).cqSize) (fun v m => qpSize t q false (w v) m)),
     (0x1C, rw (fun m => (x m).cqHead) (fun v m => qpCqHead t q (w v) m)),
     (0x20, rw (fun m => bitAt 0 (x m).enable + bitAt 1 (x m).intEn) (fun v m => qpCtl t q v m)),
     (0x24, ro (fun m => qpStat m t q))] (off % 0x100)

/-- CPL_STAT (03 Table 3.10). -/
def cplStat (m : Mod) (t : Nat) : Nat :=
  let x := (tenOf m t).fifo
  bitAt 17 x.frameErr + bitAt 16 x.overrun + x.left.length % 8 * 2 ^ 8 + x.cpl.length % 128

/-- CPL_CTL written (03 R80). -/
def cplCtl (t : Nat) (v : W64) (m : Mod) : Mod :=
  let m1 := if v.getLsbD 0 then cplFlushEff t m else m
  if v.getLsbD 1 then cmdDropEff t m1 else m1

/-- The FIFO page (03 Table 3.9). -/
def fifoRegs (t off : Nat) : Option Reg :=
  tblFind
    [(0x00, wo64 (fun v m => fifoPush t v m)),
     (0x08, ro (fun m => 512 - (tenOf m t).fifo.push.length)),
     (0x10, pop64 (cplPopEff t)),
     (0x18, wo (fun v m => cplCtl t v m)),
     (0x1C, w1c (fun m => cplStat m t) (fun v m => updFifo m t (fun x =>
       { x with
         overrun := x.overrun && !v.getLsbD 16, frameErr := x.frameErr && !v.getLsbD 17 })))] off

/-- Whether a counter belongs to a tenant (17 R439). -/
def counterOf (m : Mod) (t n : Nat) : Bool :=
  let v := pmcSel m (if pmcChained m n then n - 1 else n)
  pselFilt v && pselTenant v == t

/-- The tenant counter page (17 R439). -/
def tenPmcRegs (t off : Nat) : Option Reg :=
  let shown := fun (m : Mod) (n : Nat) => tblGet false m.pmc.allow t && counterOf m t n
  if off < 0x800 ∧ off % 8 = 0 then
    some (ro64 (fun m => if shown m (off / 8) then BitVec.ofNat 64 (tblGet 0 m.pmc.cnt (off / 8)) else 0))
  else if 0x800 ≤ off ∧ off < 0xC00 ∧ off % 4 = 0 then
    some (ro (fun m => if shown m ((off - 0x800) / 4) then (pmcSel m ((off - 0x800) / 4) &&& 0x6000FFFF).toNat else 0))
  else none

/-- SCX_STATE (08 Table 8.13). -/
def scxState (x : Stream) : Nat := x.state % 4 + x.mode % 4 * 16 + x.dir % 2 * 256

/-- A stream context's registers (08 Table 8.13). -/
def scxRegs (t off : Nat) : Option Reg :=
  let c := off / 0x200
  let x := fun (m : Mod) => strOf m t c
  tblFind
    [(0x00, ro (fun m => scxState (x m))),
     (0x08, ro64 (fun m => (x m).key)),
     (0x10, ro64 (fun m => BitVec.ofNat 64 (x m).bytes)),
     (0x18, ro64 (fun m => (x m).openStamp)),
     (0x20, ro64 (fun m => (x m).lastStamp)),
     (0x28, w1c (fun m => (x m).event.toNat) (fun v m => clearScx t c (v.extractLsb' 0 2) m)),
     (0x2C, rw (fun m => (x m).eventEn.toNat) (fun v m => setScxEn t c (BitVec.ofNat 2 v) m)),
     (0x30, ro (fun m => (x m).lastStatus.toNat))] (off % 0x200)

/-- A register of a tenant's window. -/
def winRegs (e : RegEnv) (t page off : Nat) : Option Reg :=
  match page with
  | 0 => tenRegs t off
  | 1 => qpRegs e t off
  | 2 => fifoRegs t off
  | 3 => tenPmcRegs t off
  | 8 => scxRegs t off
  | _ => none

end Sys2Proof.Machine
end

