-- ==== Sys2Proof/Machine/RegsWork.lean ====
section
/-! DEFINITION. Registers of SCH, TXP, SCE, DGE, PKE, KHS, RNG, KCH, BSX and RTB (04 Tables 4.7 to 4.9, 05 Tables 5.13 to
5.15, 06 Tables 6.5 to 6.8, 07 Table 7.9, 08 Tables 8.14, 8.15, 10 Tables 10.13, 10.14). -/

namespace Sys2Proof.Machine

/-! ### SCH and TXP -/

/-- A tenant's tags on the ready lists. -/
def readyOf (m : Mod) (t : Nat) : Nat :=
  m.cmq.cmds.countP (fun p => !p.2.admin && p.2.tenant == t && (match p.2.phase with | .ready _ _ => true | _ => false))

/-- A tenant's deficit at its highest ready level. -/
def topDeficit (m : Mod) (t : Nat) : Nat :=
  ((List.range 8).reverse.findSome? (fun l => (ringAt m l).find? (fun p => p.tenant == t && !p.tags.isEmpty))).elim 0 (fun p => p.deficit)

/-- The registers of SCH page 1. -/
def schRegs (off : Nat) : Option Reg :=
  let t := fun (m : Mod) => m.sch.tsel
  let setTen := fun (ok : Nat → Bool) (f : TenHost → Nat → TenHost) (v : Nat) (m : Mod) =>
    if ok v then updTen m (t m) (fun h => f h v) else m
  match rowOf 0x130 4 8 off with
  | some (l, 0) => some (ro (fun m => readyCount m l))
  | _ =>
  tblFind
    [(0x100, rw t (fun v m => { m with sch := { m.sch with tsel := v % 4096 } })),
     (0x104, saved (rw (fun m => (tenOf m (t m)).weight) (setTen (fun v => v % 256 != 0) (fun h v => { h with weight := v % 256 })))),
     (0x108, saved (rw (fun m => (tenOf m (t m)).cap) (setTen (fun v => within 1 4096 (v % 8192)) (fun h v => { h with cap := v % 8192 })))),
     (0x10C, saved (rw (fun m => (tenOf m (t m)).maxPrio) (setTen (fun v => v % 8 != 7) (fun h v => { h with maxPrio := v % 8 })))),
     (0x110, ro (fun m => readyOf m (t m) + topDeficit m (t m) % 65536 * 2 ^ 16)),
     (0x120, saved (rw (fun m => m.sch.age) (fun v m => schAgeWrite (BitVec.ofNat 32 v) m))),
     (0x124, saved (rw (fun m => m.sch.quantum) (fun v m =>
       if within 1 64 (v % 128) then { m with sch := { m.sch with quantum := v % 128 } } else m))),
     (0x150, ro (fun m => m.sch.timers.length)),
     (0x154, w1cAll (fun m => m.sch.tmrHwm) (fun m => { m with sch := { m.sch with tmrHwm := 0 } })),
     (0x158, ro (fun m => m.sch.overflow.length)),
     (0x15C, ro (fun m => bitAt 0 (m.tim.mode == .locked) + bitAt 1 (m.tim.mode == .holdover || m.tim.mode == .expired))),
     (0x160, ro64 (fun m => m.sch.dispatch)),
     (0x168, ro64 (fun m => m.sch.promote))] off

/-- TXP_IMG_STAT (04 Table 4.9). -/
def imgStat (m : Mod) : Nat := m.txp.slot.idx + bitAt 1 m.txp.pending + bitAt 2 m.txp.otherValid

/-- The registers of TXP page 1. -/
def txpRegs (off : Nat) : Option Reg :=
  tblFind
    [(0x100, ro imgStat),
     (0x104, ro (fun m => m.txp.version.toNat)),
     (0x108, ro (fun m => m.txp.svn.toNat)),
     (0x10C, ro (fun m => m.txp.svnFloor.toNat)),
     (0x110, ro64 (fun m => m.txp.coreAvail)),
     (0x118, ro ctxCount),
     (0x120, ro64 (fun m => m.txp.budgetFault)),
     (0x128, rw (fun m => m.txp.winCore * 2 ^ 24 + m.txp.winPage * 2 ^ 12) (fun v m =>
       { m with txp := { m.txp with winCore := v / 2 ^ 24 % 64, winPage := v / 2 ^ 12 % 32 } }))] off

/-- The context whose data area the local memory window shows: the four areas follow the program store and the tables in
the order of 04 Table 4.4 (DEDUCED, log 51). -/
def winCtx (m : Mod) : Option Nat := if 20 ≤ m.txp.winPage then some ((m.txp.winPage - 20) / 3) else none

/-- Whether the window shows the data area of a context that holds a command (04 R124). -/
def winHeld (m : Mod) : Bool := (winCtx m).elim false (fun c => ctxBusy m m.txp.winCore c)

/-- A byte of the local memory window: the program store and the tables are of the image that runs, alike in every core; a
data area is zero once its context has run a command, and free before that (04 Table 4.4, R116, R124). -/
def winByte (m : Mod) (at' : Nat) : Byte :=
  match winCtx m with
  | none => Config.imageText (runningImage m) at'
  | some c => if m.txp.used.contains (m.txp.winCore, c) then 0 else Config.contextByte m.txp.winCore at'

/-- TXP page 2: local memory. -/
def txpWinRegs (off : Nat) : Option Reg :=
  if off % 4 ≠ 0 then none
  else some (ro (fun m =>
    if winHeld m then 0 else leNat ((List.range 4).map (fun i => winByte m (m.txp.winPage * 4096 + off + i)))))

/-! ### SCE, DGE and PKE -/

/-- Contexts not IDLE. -/
def streamsOpen (m : Mod) : Nat := m.sce.str.countP (fun p => p.2.state != 0)

/-- The registers of SCE page 1. -/
def sceRegs (off : Nat) : Option Reg :=
  tblFind
    [(0x100, ro (fun m => m.sce.pipes.toNat)),
     (0x104, ro (fun m => m.sce.jobs.length)),
     (0x108, saved (rw (fun m => m.sce.streamIdle) (fun v m =>
       if within 1 86400 (v % 2 ^ 17) then { m with sce := { m.sce with streamIdle := v % 2 ^ 17 } } else m))),
     (0x10C, ro streamsOpen),
     (0x110, ro64 (fun m => m.sce.aesBlocks)),
     (0x118, ro64 (fun m => m.sce.tdesBlocks)),
     (0x120, ro64 (fun m => m.sce.jobBytes)),
     (0x128, ro64 (fun m => m.sce.tagFail)),
     (0x130, ro64 (fun m => m.sce.dataTimeout)),
     (0x138, ro64 (fun m => m.sce.slotRefuse))] off

/-- The registers of DGE page 1. -/
def dgeRegs (off : Nat) : Option Reg :=
  tblFind
    [(0x100, ro (fun m => m.dge.pipes.toNat)),
     (0x104, ro (fun m => m.dge.jobs.length)),
     (0x108, ro64 (fun m => m.dge.bytes)),
     (0x110, ro64 (fun m => m.dge.verifyFail)),
     (0x118, ro64 (fun m => m.dge.slotRefuse))] off

/-- PKE_ENG_STAT.STATE: LOADING gives way to RUNNING when the operands are in (10 R275). -/
def engCode (m : Mod) (x : Eng) : Nat :=
  match x.state with
  | .idle => 0
  | .loading => if m.clk < x.since + x.loadNs then 1 else 2
  | .zeroing => 3
  | .withdrawn => 5

/-- PKE_ENG_STAT (10 Table 10.14). -/
def engStat (m : Mod) (x : Eng) : Nat :=
  let held := engCode m x == 1 || engCode m x == 2 || engCode m x == 3
  engCode m x + x.slot % 64 * 2 ^ 8 + (if held then x.tenant % 4096 * 2 ^ 16 else 0)

/-- PKE_ENG_BUSY. -/
def engBusy (m : Mod) : W64 :=
  BitVec.ofNat 64 (m.pke.eng.foldl (fun a p => if p.2.state = .loading ∨ p.2.state = .zeroing then a + 2 ^ (p.1 % 64) else a) 0)

/-- The registers of PKE page 1. -/
def pkeRegs (off : Nat) : Option Reg :=
  tblFind
    [(0x100, ro64 (fun m => m.pke.avail)),
     (0x108, ro64 engBusy),
     (0x110, ro (fun m => m.pke.queue.length)),
     (0x114, w1cAll (fun m => m.pke.hwm) (fun m => { m with pke := { m.pke with hwm := 0 } })),
     (0x118, ro64 (fun m => m.pke.slotValid)),
     (0x120, ro64 (fun m => m.pke.ops)),
     (0x128, ro64 (fun m => m.pke.errRange)),
     (0x130, ro64 (fun m => m.pke.errPoint)),
     (0x138, ro64 (fun m => m.pke.late)),
     (0x140, ro64 (fun m => m.pke.abort)),
     (0x148, ro64 (fun m => m.pke.faultCheck)),
     (0x150, rw (fun m => m.pke.sel) (fun v m => { m with pke := { m.pke with sel := v % 64 } })),
     (0x154, ro (fun m => engStat m (engOf m m.pke.sel))),
     (0x158, ro64 (fun m => (engOf m m.pke.sel).ops))] off

/-! ### KHS and RNG -/

/-- The identity certificate in the store: issued when the unit leaves TEST (05 R133). -/
def certBytes (m : Mod) : Bytes :=
  m.khs.cert.getD (if 2 ≤ lcState m then (List.range (Config.certLen % 4001)).map Config.certByte else [])

/-- KHS_ROOT_STAT. -/
def rootStat (m : Mod) : Nat :=
  m.khs.lcr.elim 0 (fun x => x.1 % 8 + 8) + bitAt 4 m.khs.dsk.isSome + bitAt 5 m.khs.idKey.isSome +
    bitAt 6 (!(certBytes m).isEmpty)

/-- KST entries of a tenant. -/
def kstUsed (m : Mod) (t : Nat) : Nat := m.dur.kst.countP (fun p => hTenant (BitVec.ofNat 64 p.1) == t)

/-- The registers of KHS page 1. -/
def khsRegs (off : Nat) : Option Reg :=
  let t := fun (m : Mod) => m.khs.tsel
  let epoch := fun (m : Mod) => tblGet 0 m.dur.otp (t m)
  tblFind
    [(0x100, ro (fun m => bitAt 0 m.khs.pufOk + bitAt 1 m.khs.pufFail + m.khs.pufReads % 8 * 16 + m.khs.pufBits % 65536 * 2 ^ 16)),
     (0x104, ro (fun m => bitAt 0 m.khs.eshPresent + bitAt 1 m.khs.eshFresh + bitAt 2 m.khs.eshMismatch)),
     (0x108, ro rootStat),
     (0x10C, rw t (fun v m => { m with khs := { m.khs with tsel := v % 4096 } })),
     (0x110, ro (fun m => epoch m % 256 + bitAt 8 (decide (128 ≤ epoch m)) + bitAt 9 (tblGet false m.khs.repaired (t m)))),
     (0x114, ro (fun m => (tenantOf m (t m)).twkGen % 65536)),
     (0x118, ro64 (fun m => BitVec.ofNat 64 ((tenantOf m (t m)).cursor % 2 ^ 34))),
     (0x120, saved (rw (fun m => (tenOf m (t m)).kstCap) (fun v m =>
       if v % 2 ^ 26 ≤ 33554432 then updTen m (t m) (fun h => { h with kstCap := v % 2 ^ 26 }) else m))),
     (0x124, ro (fun m => kstUsed m (t m))),
     (0x128, ro (fun m => m.dur.kst.length)),
     (0x12C, ro (fun m => bitAt 1 m.khs.progFail + m.khs.repairedCnt % 256 * 2 ^ 8)),
     (0x130, ro (fun m => (certBytes m).length))] off

/-- KHS page 2: the certificate. -/
def certRegs (off : Nat) : Option Reg := if off % 4 ≠ 0 then none else some (ro (fun m => word32 (certBytes m) off))

/-- Failures of a source within the last second. -/
def recentFails (m : Mod) (s : Source) : Nat := min 3 (s.fails.countP (fun t => decide (m.clk < t + nsPerS)))

/-- RNG_SRC_STAT (05 Table 5.15). -/
def rngSrcStat (m : Mod) : Nat :=
  let one := fun (s : Source) => bitAt 0 s.ok + bitAt 1 s.failed + recentFails m s * 2 ^ 8
  one m.rng.es1 + one m.rng.es2 * 2 ^ 16

/-- The registers of RNG page 1, and of page 2 (05 R167). -/
def rngRegs (off : Nat) : Option Reg :=
  tblFind
    [(0x100, ro rngStat),
     (0x104, ro rngSrcStat),
     (0x108, ro (fun _ => 0x00330051)),
     (0x10C, ro (fun _ => 0x02BF033D)),
     (0x110, ro64 (fun m => m.rng.reseeds)),
     (0x118, ro64 (fun m => m.rng.genBytes)),
     (0x120, ro64 (fun m => m.rng.maskStall)),
     (0x128, ro64 (fun m => m.rng.htFail))] off
def rngTapRegs (off : Nat) : Option Reg :=
  tblFind
    [(0x100, pop64 rawSamples),
     (0x108, rw (fun m => bitAt 0 m.rng.rawSel) (fun v m => { m with rng := { m.rng with rawSel := v.testBit 0 } }))] off

/-! ### KCH, BSX and RTB -/

/-- KCH_REHASH_STAT (06 Table 6.6). -/
def rehashStat (m : Mod) : Nat :=
  bitAt 0 m.kch.busy + bitAt 1 (!m.kch.stash.isEmpty) + bitAt 2 (decide (224 ≤ m.kch.stash.length)) + m.kch.moved % 2 ^ 18 * 2 ^ 8

/-- The registers of KCH page 1. -/
def kchRegs (off : Nat) : Option Reg :=
  let t := fun (m : Mod) => m.kch.tsel
  match rowOf 0x110 4 4 off with
  | some (i, 0) => some (rw (fun m => word32 m.kch.seedNext (4 * i))
      (fun v m => if m.kch.busy then m
        else { m with kch := { m.kch with seedNext := putAt m.kch.seedNext (4 * i) (natLe 4 v) } }))
  | _ =>
  tblFind
    [(0x100, ro (fun m => lineTotal - m.kch.lines.length)),
     (0x104, ro linesPinned),
     (0x108, ro (fun m => m.kch.stash.length)),
     (0x10C, ro (fun m => m.kch.bank.length + m.kch.other.length)),
     (0x120, wo (fun v m => if v.getLsbD 0 then rehashStart m else m)),
     (0x124, ro rehashStat),
     (0x128, rw t (fun v m => { m with kch := { m.kch with tsel := v % 4096 } })),
     (0x12C, saved (rw (fun m => (tenOf m (t m)).tage) (fun v m =>
       if v % 2 ^ 17 ≤ 86400 then updTen m (t m) (fun h => { h with tage := v % 2 ^ 17 }) else m))),
     (0x130, saved (rw (fun m => (tenOf m (t m)).lineMax) (fun v m =>
       if within 32768 393216 (v % 2 ^ 19) then updTen m (t m) (fun h => { h with lineMax := v % 2 ^ 19 }) else m))),
     (0x134, ro (fun m => tlineUsed m (t m))),
     (0x138, ro64 (fun m => m.kch.hit)),
     (0x140, ro64 (fun m => m.kch.miss)),
     (0x148, ro64 (fun m => m.kch.evict)),
     (0x150, ro64 (fun m => m.kch.ageEvict)),
     (0x158, ro64 (fun m => m.kch.remask)),
     (0x160, ro64 (fun m => m.kch.remaskStall)),
     (0x168, ro64 (fun m => m.kch.uopRefuse))] off

/-- The window selected, and the units of the valid windows before it. -/
def winSel (m : Mod) : Window := winOf m m.bsx.tsel m.bsx.wsel
def unitsBefore (m : Mod) : Nat :=
  (List.range m.bsx.wsel).foldl (fun a w => let x := winOf m m.bsx.tsel w; if x.valid then a + x.size else a) 0

/-- The registers of BSX page 1. -/
def bsxRegs (off : Nat) : Option Reg :=
  tblFind
    [(0x100, rw (fun m => m.bsx.tsel) (fun v m => { m with bsx := { m.bsx with tsel := v % 4096 } })),
     (0x104, rw (fun m => m.bsx.wsel) (fun v m => { m with bsx := { m.bsx with wsel := v % 8 } })),
     (0x108, saved (rw64 (fun m => (winSel m).base) (fun v m => bsxWinWrite .base v m))),
     (0x110, saved (rw (fun m => (winSel m).size) (fun v m => bsxWinWrite .size (BitVec.ofNat 64 v) m))),
     (0x114, saved (rw (fun m => bitAt 0 (winSel m).valid + (winSel m).port.idx * 2 ^ 8) (fun v m => bsxWinWrite .ctl (BitVec.ofNat 64 v) m))),
     (0x118, ro (fun m => bitAt 0 (winSel m).refused + unitsBefore m * 2)),
     (0x11C, ro (fun m => otherUnits m (2 ^ 20))),
     (0x120, ro (fun m => m.bsx.slots.length + pkSlots m * 2 ^ 16)),
     (0x124, saved (rw (fun m => m.bsx.retryGap) (fun v m =>
       if within 5 50 (v % 64) then { m with bsx := { m.bsx with retryGap := v % 64 } } else m))),
     (0x128, w1cAll (fun m => m.bsx.latMax) (fun m => { m with bsx := { m.bsx with latMax := 0 } })),
     (0x12C, ro pendWrites),
     (0x130, ro64 (fun m => m.bsx.fetch)),
     (0x138, ro64 (fun m => m.bsx.timeout)),
     (0x140, ro64 (fun m => m.bsx.readErr)),
     (0x148, ro64 (fun m => m.bsx.blobWrite)),
     (0x150, ro64 (fun m => m.bsx.replGap))] off

/-- Words of the pool a tenant's sets hold, an old set waiting for its clocks with them. -/
def tenantWords (m : Mod) (t : Nat) : Nat :=
  routesWords (routesIn m.dur t) + (m.rtb.old.filter (fun x => x.tenant == t)).foldl (fun a x => a + x.words) 0

/-- The registers of RTB page 1. -/
def rtbRegs (off : Nat) : Option Reg :=
  let t := fun (m : Mod) => m.rtb.tsel
  let r := fun (m : Mod) => routesIn m.dur (t m)
  tblFind
    [(0x100, ro (fun m => poolFree m m.dur)),
     (0x104, ro (fun m => poolLargest m m.dur)),
     (0x108, saved (rw (fun m => m.rtb.poolLow) (fun v m => { m with rtb := { m.rtb with poolLow := v % 2 ^ 22 } }))),
     (0x10C, ro (fun m => usedRoutes m.dur)),
     (0x110, ro (fun m => usedSlots m m.dur)),
     (0x114, ro (fun m => bitAt 0 m.rtb.compacting.isSome + m.rtb.moved % 2 ^ 24 * 2 ^ 8)),
     (0x118, rw t (fun v m => { m with rtb := { m.rtb with tsel := v % 4096 } })),
     (0x11C, saved (rw (fun m => (tenOf m (t m)).routeCap) (fun v m =>
       if within 1 2097152 (v % 2 ^ 22) then updTen m (t m) (fun h => { h with routeCap := v % 2 ^ 22 }) else m))),
     (0x120, saved (rw (fun m => (tenOf m (t m)).recCap) (fun v m =>
       if within 1 65536 (v % 2 ^ 17) then updTen m (t m) (fun h => { h with recCap := v % 2 ^ 17 }) else m))),
     (0x124, ro (fun m => (r m).active.routes.length)),
     (0x128, ro (fun m => (viewOf (r m)).routes.length + bitAt 31 (differs (r m)))),
     (0x12C, ro (fun m => (r m).epoch.toNat)),
     (0x130, ro (fun m => tenantWords m (t m))),
     (0x138, ro64 (fun m => m.rtb.lookups)),
     (0x140, ro64 (fun m => m.rtb.noRoute)),
     (0x148, ro64 (fun m => m.rtb.full))] off

end Sys2Proof.Machine
end

