-- ==== Sys2Proof/Machine/RegsGuard.lean ====
section
/-! DEFINITION. Registers of DCU, TIM, TLK, JNL, SSV, LCC, EVR, PMC and HLT (11 Table 11.9, 13 Table 13.9, 14 Table 14.10,
15 Table 15.11, 16 Table 16.9, 17 Tables 17.8 to 17.10, 19 Table 19.8). -/

namespace Sys2Proof.Machine

/-! ### DCU and TIM -/

/-- DCU_PORT_CTL's fields: EN, DEVICE and the tenant. -/
def portCtl (v : Nat) : W32 := BitVec.ofNat 32 v &&& 0x0FFF0003

/-- DCU_PORT_STAT. -/
def portStat (x : CustPort) : Nat := bitAt 0 x.link + bitAt 1 x.session.isSome + min 255 x.dropped * 2 ^ 8

/-- The domain DCU_TSEL selects. -/
def dcuSel (m : Mod) : Domain := domainIn m.dur (if m.dcu.tsel.testBit 15 then deviceDomain else m.dcu.tsel % 4096)

/-- Enrolled slots of a domain, a bit each. -/
def custSlots (x : Domain) : Nat := x.cust.foldl (fun a p => a + 2 ^ (p.1 % 16)) 0

/-- The registers of DCU page 1. -/
def dcuRegs (off : Nat) : Option Reg :=
  match rowOf 0x100 8 8 off with
  | some (p, 0) => some (rw (fun m => (custPortOf m p).ctl.toNat) (fun v m => updCust m p (fun x => { x with ctl := portCtl v })))
  | some (p, 4) => some (ro (fun m => portStat (custPortOf m p)))
  | _ =>
  tblFind
    [(0x140, ro (fun m => openAll m.dur (nowT m))),
     (0x144, ro (fun m => m.dcu.cer.length)),
     (0x148, ro (fun m => m.dcu.sess.length)),
     (0x14C, ro (fun m => bitAt 0 m.dcu.maint.isSome)),
     (0x150, ro64 (fun m => m.dcu.maint.elim 0 (fun w => w.2))),
     (0x158, rw (fun m => m.dcu.tsel) (fun v m => { m with dcu := { m.dcu with tsel := v % 4096 + v / 2 ^ 15 % 2 * 2 ^ 15 } })),
     (0x15C, ro (fun m => custSlots (dcuSel m))),
     (0x160, ro (fun m => openChals (dcuSel m) (nowT m))),
     (0x168, ro64 (fun m => m.dcu.approvals)),
     (0x170, ro64 (fun m => m.dcu.sigFail)),
     (0x178, ro64 (fun m => m.dcu.quorum))] off

/-- TIM_STAT. -/
def timStat (m : Mod) : Nat :=
  let mode := match m.tim.mode with
    | .unset => 0
    | .locked => 1
    | .holdover => 2
    | .expired => 3
  mode + m.tim.inUse.elim 0 srcClass * 2 ^ 4 + bitAt 6 (m.tim.inUse == some .ptp1) + bitAt 8 (trustedNow m) + bitAt 9 m.tim.twinAlign

/-- TIM_SRC_STAT. -/
def timSrcStat (m : Mod) : Nat :=
  bitAt 0 (srcOf m .ptp0).qualified + bitAt 1 (srcOf m .ptp1).qualified + bitAt 2 (srcOf m .pps).qualified +
    bitAt 3 (srcOf m .pps).refOk + bitAt 4 (srcOf m .tod).qualified

/-- TIM_FREQ: the slew's rate while it runs (log 42). -/
def timFreq (m : Mod) : Nat :=
  m.tim.slew.elim 0 (fun x =>
    if slewDone m = x.2.1 then 0 else (BitVec.ofInt 32 (if x.2.1 < 0 then -(x.2.2 : Int) else x.2.2)).toNat)

/-- The registers of TIM page 1. -/
def timRegs (off : Nat) : Option Reg :=
  match rowOf 0x200 0x40 2 off with
  | some (e, o) => if 0x30 ≤ o ∨ o % 4 ≠ 0 then none else some (ro (fun m => word32 (ptpEntry m.dur.tcfg e) o))
  | none =>
  tblFind
    [(0x100, ro64 nowT),
     (0x108, ro timStat),
     (0x10C, ro timSrcStat),
     (0x110, ro (fun m => m.dur.tcfg.holdLimit.toNat % 2 ^ 18)),
     (0x114, ro (fun m => min 0x3FFFF (holdAgeS m))),
     (0x118, ro (fun m => m.tim.lastOffset.toNat)),
     (0x11C, ro timFreq),
     (0x120, ro64 (fun m => m.tim.stepCnt)),
     (0x128, ro64 (fun m => m.tim.lastStep)),
     (0x130, ro64 (fun m => m.tim.floor)),
     (0x138, ro (fun m => m.tim.twinOffset.toNat)),
     (0x13C, ro (fun m => m.dur.tcfg.slewMax.toNat % 2 ^ 20)),
     (0x140, ro (fun m => m.dur.tcfg.stepGuard.toNat % 2 ^ 24))] off

/-! ### TLK and JNL -/

/-- TWIN_LINK_STAT. -/
def linkStat (x : Link) : Nat := bitAt 0 x.up + bitAt 1 x.keys.isSome + x.lanes % 256 * 2 ^ 4 + min 65535 x.tagFail * 2 ^ 16

/-- TWIN_HB_AGE. -/
def hbAge (m : Mod) : Nat :=
  let age := fun (p : Nat) => min 1023 ((m.clk - heardAt m p) / 1000)
  age 0 + age 1 * 2 ^ 10 + age 2 * 2 ^ 20

/-- The registers of TLK page 1. -/
def tlkRegs (off : Nat) : Option Reg :=
  if 0x200 ≤ off ∧ off < 0x300 ∧ off % 4 = 0 then some (ro (fun m => word32 m.tlk.health (off - 0x200))) else
  tblFind
    [(0x100, ro (fun m => (twinStat m).toNat)),
     (0x104, ro (fun m => bitAt 0 m.dur.revertEn + bitAt 1 m.tlk.home)),
     (0x108, ro (fun m => m.dur.revertHold)),
     (0x10C, rw (fun m => bitAt 0 m.tlk.allBlobs) (fun v m => { m with tlk := { m.tlk with allBlobs := v.testBit 0 } })),
     (0x110, ro64 (fun m => m.tlk.peerUid)),
     (0x118, ro64 (fun m => m.tlk.roleEpoch)),
     (0x120, ro64 (fun m => m.tlk.jsnAcked)),
     (0x128, ro64 jsnReport),
     (0x130, ro (fun m => linkStat (linkOf m 0))),
     (0x134, ro (fun m => linkStat (linkOf m 1))),
     (0x138, ro hbAge),
     (0x140, ro64 (fun m => m.tlk.resyncBytes)),
     (0x148, w1cAll (fun m => m.tlk.ackMax) (fun m => { m with tlk := { m.tlk with ackMax := 0 } })),
     (0x150, ro64 (fun m => m.tlk.switchCnt)),
     (0x158, ro64 (fun m => BitVec.ofNat 64 m.tlk.divHeld)),
     (0x160, pop64 divLogRead)] off

/-- The registers of JNL page 1: those of the restored journal read 0 until it is (19 Table 19.8, log 48). -/
def jnlRegs (off : Nat) : Option Reg :=
  let live := fun (g : Mod → W64) => ro64 (fun m => if m.jnl.started then g m else 0)
  tblFind
    [(0x100, ro (fun m => m.jnl.boot.toNat)),
     (0x104, ro (fun m => m.jnl.bootMs)),
     (0x108, ro (fun m => m.jnl.holdup)),
     (0x110, live (fun m => m.jnl.jsnCommit)),
     (0x118, live (fun m => m.jnl.ckptJsn)),
     (0x120, live (fun m => m.jnl.ringOldest)),
     (0x128, ro bufLevel),
     (0x12C, w1cAll (fun m => min 4095 m.jnl.bufWait) (fun m => { m with jnl := { m.jnl with bufWait := 0 } })),
     (0x130, ro (fun m => m.jnl.pfStat.toNat)),
     (0x134, ro (fun m => m.jnl.pfFlushUs)),
     (0x138, ro64 (fun m => m.jnl.pfCnt)),
     (0x140, ro (fun m => m.jnl.replayBytes)),
     (0x144, ro (fun m => m.jnl.wear)),
     (0x148, live (fun m => m.jnl.reclaim)),
     (0x150, ro64 (fun m => m.jnl.flashEcc))] off

/-! ### SSV and LCC -/

/-- SSV_STAT (15 Table 15.12). -/
def ssvStat (m : Mod) : Nat :=
  bitAt 3 m.ssv.cold + bitAt 4 m.ssv.esh.isSome + bitAt 5 m.ssv.squalled + bitAt 6 (m.ssv.tamper == .erased) +
    bitAt 7 (m.ssv.tamper == .hold || m.ssv.tamper == .readmitted) + bitAt 8 m.ssv.tempAOk + bitAt 9 m.ssv.tempBOk +
    bitAt 10 (cellUsable m.ssv.cellA) + bitAt 11 (cellUsable m.ssv.cellB) + bitAt 12 m.ssv.cellA.low +
    bitAt 13 m.ssv.cellB.low + bitAt 14 m.ssv.maintSeen + bitAt 15 m.ssv.calDefault

/-- A word of the record SSV_REC_SEL shows; 0 where the slot holds none. -/
def recShown (m : Mod) (f : TamperRec → W64) : W64 := (tblFind m.ssv.recs m.ssv.recSel).elim 0 f

/-- A 32-bit word of a 128-bit field, a bit a source. -/
def srcWord (v : BitVec 128) (i : Nat) : Nat := v.toNat / 2 ^ (32 * i) % 2 ^ 32

/-- The registers of SSV page 1. -/
def ssvRegs (e : RegEnv) (off : Nat) : Option Reg :=
  match rowOf 0x110 4 4 off, rowOf 0x120 4 4 off with
  | some (i, 0), _ => some (w1c (fun m => srcWord m.ssv.latch i) (fun v m => latchClear i (low32 v) e.still m))
  | _, some (i, 0) => some (ro (fun m => srcWord m.ssv.stfail i))
  | _, _ =>
  tblFind
    [(0x100, ro ssvStat),
     (0x104, ro (fun m => m.ssv.tempA.toNat + m.ssv.tempB.toNat * 2 ^ 16)),
     (0x108, ro (fun m => m.ssv.cellA.milliVolt % 65536 + m.ssv.cellB.milliVolt % 65536 * 2 ^ 16)),
     (0x10C, ro (fun m => min 2 (recentFi m).length + min 0xFFFFFF m.ssv.fiTotal * 2 ^ 8)),
     (0x130, ro (fun m => m.ssv.recs.length + min 65535 m.ssv.lost * 2 ^ 16)),
     (0x134, rw (fun m => m.ssv.recSel) (fun v m => { m with ssv := { m.ssv with recSel := v % 64 } })),
     (0x138, ro64 (fun m => recShown m recW0)),
     (0x140, ro64 (fun m => recShown m (fun r => r.stamp))),
     (0x148, ro64 (fun m => recShown m recW2)),
     (0x150, ro64 (fun m => recShown m recW3)),
     (0x158, wo (fun v m => recClear (low32 v) m)),
     (0x160, ro (fun m => m.ssv.calWrites)),
     (0x168, ro64 (fun m => m.ssv.lastSt))] off

/-- SSV page 2: the calibration set in use. -/
def calRegs (off : Nat) : Option Reg := if off % 4 ≠ 0 then none else some (ro (fun m => word32 (calSet m) off))

/-- Words of a kind, a bit each. -/
def wordBits (p : Nat → Bool) : Nat := (List.range 6).foldl (fun a w => a + bitAt w (p w)) 0

/-- LCC_STAT (16 Table 16.10). -/
def lccStat (m : Mod) : Nat :=
  lcState m % 8 + bitAt 3 (lccBusy m) + bitAt 4 m.lcc.progFail +
    bitAt 5 ((List.range 6).any (wordPartial m)) + bitAt 6 (anyForeign m) + bitAt 7 m.lcc.intent.isSome +
    bitAt 8 m.lcc.dbgOpen + bitAt 9 m.lcc.bscan + bitAt 10 m.lcc.chal.isSome

/-- A write to LCC_MBOX, LCC_MBOX_LEN or LCC_CMD, ignored while LCC is BUSY (16 R426). -/
def lccIdle (f : Mod → Mod) (m : Mod) : Mod := if lccBusy m then m else f m

/-- A write to LCC_CMD: its operation, then DBG_CLOSE. -/
def lccCmd (e : RegEnv) (v : W64) (m : Mod) : Mod :=
  let m1 := match v.toNat % 4 with
    | 1 => lcTransition e.ok e.agree m
    | 2 => makeChallenge m
    | 3 => debugResponse e.agree m
    | _ => m
  if v.getLsbD 8 then closeDebug m1 else m1

/-- 32 bits of the mailbox or the certificate page. -/
def memReg (get : Mod → Memory) (set : Memory → Mod → Mod) (a : Nat) : Reg :=
  rw (fun m => leNat (memReadBytes (get m) a 4)) (fun v m => set (memWriteBytes (get m) a (natLe 4 v)) m)

/-- The registers of LCC page 1. -/
def lccRegs (e : RegEnv) (off : Nat) : Option Reg :=
  if 0x800 ≤ off ∧ off < 0x910 ∧ off % 4 = 0 then
    some (memReg (fun m => m.lcc.mbox) (fun x => lccIdle (fun m => { m with lcc := { m.lcc with mbox := x } })) (off - 0x800))
  else if 0x110 ≤ off ∧ off < 0x130 ∧ off % 4 = 0 then some (ro (fun m => word32 m.lcc.nonce (off - 0x110)))
  else if 0x140 ≤ off ∧ off < 0x180 ∧ off % 4 = 0 then some (ro (fun m => word32 m.lcc.scope (off - 0x140)))
  else
  tblFind
    [(0x100, ro lccStat),
     (0x104, ro (fun m => wordBits (wordValid m) + wordBits (wordPartial m) * 2 ^ 8 + wordBits (wordForeign m) * 2 ^ 16)),
     (0x108, wo (fun v => lccIdle (lccCmd e v))),
     (0x10C, ro (fun m => m.lcc.result.toNat + bitAt 31 m.lcc.done)),
     (0x130, rw (fun m => m.lcc.mboxLen) (fun v => lccIdle (fun m =>
       if v % 512 ≤ 272 then { m with lcc := { m.lcc with mboxLen := v % 512 } } else m)))] off

/-- LCC page 2: the certificate attachment. -/
def lccCertRegs (off : Nat) : Option Reg :=
  if off % 4 ≠ 0 then none
  else some (memReg (fun m => m.lcc.cert) (fun x m => { m with lcc := { m.lcc with cert := x } }) off)

/-! ### EVR, PMC and HLT -/

/-- The staged configuration of the channel selected, and a change to it. -/
def evrStaged (m : Mod) : EvrCfg := (evrChanOf m m.evr.sel).staged
def evrStage (f : EvrCfg → EvrCfg) (m : Mod) : Mod := updChan m m.evr.sel (fun x => { x with staged := f x.staged })

/-- EVR_CCFG. -/
def evrCcfg (c : EvrCfg) : Nat :=
  c.source % 65536 + bitAt 16 c.log + bitAt 17 c.en + bitAt 18 c.tfilt + c.tenant % 4096 * 2 ^ 20
def evrCcfgSet (v : Nat) (c : EvrCfg) : EvrCfg :=
  { c with
    source := v % 65536, log := v.testBit 16, en := v.testBit 17, tfilt := v.testBit 18, tenant := v / 2 ^ 20 % 4096 }

/-- The registers of EVR page 1. -/
def evrRegs (off : Nat) : Option Reg :=
  let open_ := fun (m : Mod) => (evrChanOf m m.evr.sel).epoch
  tblFind
    [(0x100, rw (fun m => bitAt 0 m.evr.en) (fun v m => evrSetEn (v.testBit 0) m)),
     (0x104, ro (fun m => bitAt 0 m.evr.full + bitAt 1 m.evr.writing + m.evr.buffer.length * 2 ^ 16)),
     (0x108, wo (fun v m => if v.getLsbD 0 then evrFlush m else m)),
     (0x110, ro64 (fun m => BitVec.ofNat 64 m.evr.log.length)),
     (0x118, ro64 (fun m => m.evr.seq)),
     (0x120, ro64 (fun m => m.evr.lost)),
     (0x128, rw (fun m => m.evr.sel) (fun v m => { m with evr := { m.evr with sel := v % 64 } })),
     (0x12C, rw (fun m => evrCcfg (evrStaged m)) (fun v m => evrStage (evrCcfgSet v) m)),
     (0x130, rw (fun m => (evrStaged m).base) (fun v m => evrStage (fun c => { c with base := v }) m)),
     (0x134, rw (fun m => (evrStaged m).width) (fun v m => evrStage (fun c => { c with width := v }) m)),
     (0x138, rw (fun m => (evrStaged m).epoch) (fun v m => evrStage (fun c => { c with epoch := v % 2 ^ 17 }) m)),
     (0x13C, wo (fun v m => if v.getLsbD 0 then noteSealed (evrCapply m) else m)),
     (0x140, ro64 (fun m => (open_ m).elim 0 (fun x => x.start))),
     (0x148, ro64 (fun m => (open_ m).elim 0 (fun x => BitVec.ofNat 64 x.count)))] off

/-- Overflow bits of a word cleared. -/
def pmcOvfClear (i : Nat) (v : W32) (m : Mod) : Mod :=
  { m with pmc := { m.pmc with ovf := m.pmc.ovf &&& ~~~(BitVec.ofNat 256 (v.toNat * 2 ^ (32 * i))) } }

/-- PMC_CTL. -/
def pmcCtl (v : Nat) (m : Mod) : Mod :=
  let m1 := pmcFreeze (v.testBit 0) m
  if v.testBit 1 then pmcSnap m1 else m1

/-- The registers of PMC page 1. -/
def pmcRegs (off : Nat) : Option Reg :=
  match rowOf 0x110 4 8 off with
  | some (i, 0) => some (w1c (fun m => m.pmc.ovf.toNat / 2 ^ (32 * i) % 2 ^ 32) (fun v m => pmcOvfClear i (low32 v) m))
  | _ =>
  tblFind
    [(0x100, rw (fun m => bitAt 0 m.pmc.freeze) pmcCtl),
     (0x130, rw (fun m => m.pmc.tsel) (fun v m => { m with pmc := { m.pmc with tsel := v % 4096 } })),
     (0x134, saved (rw (fun m => bitAt 0 (tblGet false m.pmc.allow m.pmc.tsel)) (fun v m =>
       { m with pmc := { m.pmc with allow := tblSet m.pmc.allow m.pmc.tsel (v.testBit 0) } })))] off

/-- PMC page 2: counters and selectors. -/
def pmcCntRegs (off : Nat) : Option Reg :=
  if off < 0x800 ∧ off % 8 = 0 then
    some (rw64 (fun m => BitVec.ofNat 64 (tblGet 0 m.pmc.cnt (off / 8))) (fun v m => pmcWrite (off / 8) v m))
  else if 0x800 ≤ off ∧ off < 0xC00 ∧ off % 4 = 0 then
    let n := (off - 0x800) / 4
    some (rw (fun m => (pmcSel m n).toNat)
      (fun v m => { m with pmc := { m.pmc with sel := tblSet m.pmc.sel n (BitVec.ofNat 32 v &&& 0x7FFFFFFF) } }))
  else none

/-- PMC page 3: the snapshot. -/
def pmcSnapRegs (off : Nat) : Option Reg :=
  if off < 0x800 ∧ off % 8 = 0 then some (ro64 (fun m => BitVec.ofNat 64 (tblGet 0 m.pmc.snap (off / 8)))) else none

/-- The registers of HLT page 1. -/
def hltRegs (off : Nat) : Option Reg :=
  if 0x200 ≤ off ∧ off < 0x300 ∧ off % 4 = 0 then some (ro (fun m => word32 m.hlt.report (off - 0x200))) else
  tblFind
    [(0x100, ro64 (fun m => m.hlt.runs)),
     (0x108, ro64 (fun m => m.hlt.fails)),
     (0x110, ro hltOldest),
     (0x114, ro (fun m => m.hlt.scrubPass.toNat)),
     (0x118, ro64 (fun m => m.hlt.corr)),
     (0x120, ro64 (fun m => m.hlt.uncorr)),
     (0x128, ro64 (fun m => m.hlt.seq))] off

end Sys2Proof.Machine
end

