-- ==== Sys2Proof/Machine/Acu.lean ====
section
/-! DEFINITION. Access control: addresses, page grants, the decision, violation records, and the access itself
(02 R33, R41 to R60, R483, R484). -/

namespace Sys2Proof.Machine

/-! ### Page grants -/

/-- Colours as a mask. -/
def colours (l : List Nat) : Nat := l.foldl (fun a c => a + 2 ^ c) 0

/-- The usual grants of a block's page 0 and page 1. -/
def headGrant : Nat × Nat := (colours [0, 1, 15], colours [1])
def openGrant : Nat × Nat := (colours [0, 1, 6, 15], colours [1])

/-- Key-bearing pages (02 Table 2.14). -/
def keyPage (slot page : Nat) : Bool :=
  (slot == Blk.kch.idx && decide (8 ≤ page)) || (slot == Blk.pke.idx && decide (8 ≤ page)) ||
    (slot == Blk.khs.idx && page == 4) || (slot == Blk.txp.idx && page == 6) || (slot == Blk.ssv.idx && page == 3)

/-- Grants of a block's page as each image carries them: read mask and write mask; none where the page is unmapped. -/
def blkGrant (b : Blk) (page : Nat) : Option (Nat × Nat) :=
  match b, page with
  | .lcc, 0 => some (colours [0, 1, 8, 15], colours [1])
  | _, 0 => some headGrant
  | .hif, 1 => some headGrant
  | .nif, 1 => some (colours [0, 1, 6, 15], colours [1, 6])
  | .nif, 2 => some (colours [0, 1, 6, 15], colours [1, 6])
  | .nif, 3 => some (colours [0, 1, 6, 15], colours [1, 6])
  | .nif, 4 => some (colours [0, 1, 6, 15], colours [1, 6])
  | .tlk, 1 => some openGrant
  | .cmq, 1 => some headGrant
  | .sch, 1 => some openGrant
  | .txp, 1 => some headGrant
  | .txp, 2 => some (colours [0, 15], 0)
  | .sce, 1 => some openGrant
  | .dge, 1 => some openGrant
  | .pke, 1 => some openGrant
  | .khs, 1 => some openGrant
  | .khs, 2 => some (colours [0, 1, 2, 3, 6, 15], 0)
  | .kch, 1 => some openGrant
  | .bsx, 1 => some openGrant
  | .rtb, 1 => some openGrant
  | .rng, 1 => some headGrant
  | .rng, 2 => some (colours [14], colours [14])
  | .acu, 1 => some (colours [0, 1], colours [1])
  | .acu, 2 => some (colours [0, 1, 15], 0)
  | .tim, 1 => some (colours [0, 1, 6, 15], 0)
  | .dcu, 1 => some openGrant
  | .jnl, 1 => some openGrant
  | .ssv, 1 => some headGrant
  | .ssv, 2 => some (colours [0, 1, 15], 0)
  | .lcc, 1 => some (colours [0, 1, 8, 14, 15], colours [1, 14])
  | .lcc, 2 => some (colours [0, 1, 14], colours [1, 14])
  | .evr, 1 => some openGrant
  | .pmc, 1 => some headGrant
  | .pmc, 2 => some headGrant
  | .pmc, 3 => some (colours [0, 1, 15], 0)
  | .hlt, 1 => some (colours [0, 1, 6, 15], 0)
  | b, p => if keyPage b.idx p then some (0, colours [0]) else none

/-- Grants of a slot's page as each image carries them (02 R51, Table 2.17). -/
def loadedGrant (slot page : Nat) : Option (Nat × Nat) :=
  if slot = 31 then
    match page with
    | 0 => some (colours [0, 1, 8, 14, 15], colours [1])
    | 8 => some headGrant
    | 12 => some (colours [0, 1, 15], 0)
    | _ => none
  else (blkList[slot]?).bind (fun b => blkGrant b page)

/-- The boot grant set (02 R54). -/
def bootGrant (slot page : Nat) : Nat × Nat :=
  if slot = 31 ∧ page = 0 then (colours [0, 1, 8, 14, 15], colours [1])
  else if slot = Blk.jnl.idx ∧ page ≤ 1 then (colours [0, 1, 14, 15], 0)
  else if slot = Blk.lcc.idx ∧ page ≤ 2 then (loadedGrant slot page).getD (0, 0)
  else (0, 0)

/-- Whether the scope of a debug reopening in force holds a page (16 Table 16.5). -/
def inScope (m : Mod) (slot page : Nat) : Bool :=
  let n := slot * 16 + page
  m.lcc.dbgOpen && (getNat8 m.lcc.scope (n / 8)).testBit (n % 8)

/-- A grant without a colour. -/
def dropColour (c : Nat) (b : Bool) (mask : Nat) : Nat := if b && mask.testBit c then mask - 2 ^ c else mask

/-- Whether the grants are narrowed to LCC's: a LOCKED decode, or a failed PUF (02 R54, Table 2.13). -/
def narrowed (m : Mod) : Bool := lcState m == 7 || (m.khs.pufFail && !m.txp.imageLoaded)

/-- The entry in force for a page (02 R54, Table 2.13, 04 R124). -/
def grantOf (m : Mod) (slot page : Nat) : Nat × Nat :=
  let lc := lcState m
  let g := if m.txp.imageLoaded then (loadedGrant slot page).getD (0, 0) else bootGrant slot page
  let keep := slot == Blk.lcc.idx && decide (page ≤ 1)
  if narrowed m then
    if keep then (g.1 &&& colours [1, 8], g.2 &&& colours [1, 8]) else (0, 0)
  else
    let limited := decide (2 ≤ lc) || (slot == Blk.txp.idx && page == 2)
    let no15r := limited && !inScope m slot page
    let no15w := limited && !(inScope m slot page && !m.lcc.readOnly)
    let no14 := lc != 1
    (dropColour 14 no14 (dropColour 15 no15r g.1), dropColour 14 no14 (dropColour 15 no15w g.2))

/-- Whether a page is mapped at all. -/
def mapped (slot page : Nat) : Bool := (loadedGrant slot page).isSome

/-- Places where a page grants a write although it grants the rest of the page none (02 R59, 05 R167). -/
def writePlaces (slot page : Nat) : Option (List Nat) :=
  if slot = Blk.acu.idx ∧ page = 1 then some [0x20, 0x28]
  else if slot = Blk.rng.idx ∧ page = 2 then some [0x108]
  else none

/-! ### The space an access is in -/

/-- The space of an access: the internal map, a tenant's window, the window of an unbound VF, the alias of a tenant bound
to a VF, a disabled BAR2, or a VF's own MSI-X structures. -/
inductive Space where
  | inner
  | window (t : Nat)
  | unbound
  | aliased (t : Nat)
  | off
  | vfBar2 (p : Port) (n : Nat)
  deriving DecidableEq, Repr

/-- Where the tenant windows begin for the network interface, above the internal map (log 50). -/
def netWindows : Nat := 0x10000000

/-- The space, and the offset in it. The network interface uses the offsets of the internal map like any internal initiator
(02 R40), and reaches tenant windows above it. -/
def spaceOf (m : Mod) (a : Access) : Space × Nat :=
  match a.ini with
  | .vf p n =>
    if a.vfTable then (.vfBar2 p n, a.addr)
    else ((tenantOfVf m p n).elim .unbound .window, a.addr % 2 ^ 16)
  | .bar2 p =>
    let t := a.addr / 2 ^ 16 % 4096
    let s := if !(portOf m p).bar2En then .off else if vfOf (tenOf m t) p ≠ 0 then .aliased t else .window t
    (s, a.addr % 2 ^ 16)
  | .net _ =>
    if a.addr < netWindows then (.inner, a.addr) else (.window (a.addr / 2 ^ 16 % 4096), a.addr % 2 ^ 16)
  | _ => (.inner, a.addr)

/-- The port of a host initiator. -/
def hostPort : Initiator → Option Port
  | .pf p => some p
  | .vf p _ => some p
  | .bar2 p => some p
  | _ => none

/-- The tenant tag an initiator carries (02 R52). -/
def tagOf (ini : Initiator) (s : Space) : Nat :=
  match ini, s with
  | .net t, _ => t
  | .txp t, _ => t.getD 0
  | .dma t, _ => t.getD 0
  | _, .window t => t
  | _, .aliased t => t
  | _, _ => 0

/-- The place of a page for a violation record (02 R484). -/
def slotOf (s : Space) (n : Nat) : Nat :=
  match s with
  | .inner => if n < 0x100 then 31 else (n - 0x100) / 16 % 32
  | _ => if n = 3 then Blk.pmc.idx else if n = 8 then Blk.sce.idx else Blk.cmq.idx

/-- Whether a page of the internal map, by its number, is mapped. -/
def innerMapped (n : Nat) : Bool :=
  if n < 0x100 then decide (n < 16) && mapped 31 n else decide (n < 0x270) && mapped ((n - 0x100) / 16) (n % 16)

/-- Whether a page of a tenant window is mapped (02 Table 2.10). -/
def winMapped (n : Nat) : Bool := decide (n ≤ 3) || n == 8

/-! ### Violations -/

/-- The flags of a violation (02 Table 2.16). -/
structure VioFlags where
  straddle : Bool
  key : Bool
  unmapped : Bool
  tag : Bool
  unbound : Bool
  aliased : Bool
  port : Bool
  deriving DecidableEq, Repr

/-- No flag. -/
def VioFlags.none : VioFlags :=
  { straddle := false, key := false, unmapped := false, tag := false, unbound := false, aliased := false, port := false }

/-- The flags of two refusals. -/
def VioFlags.or (a b : VioFlags) : VioFlags :=
  { straddle := a.straddle || b.straddle, key := a.key || b.key, unmapped := a.unmapped || b.unmapped, tag := a.tag || b.tag,
    unbound := a.unbound || b.unbound, aliased := a.aliased || b.aliased, port := a.port || b.port }

/-- FLAGS. -/
def VioFlags.code (f : VioFlags) (portB : Bool) : Nat :=
  bitAt 0 f.straddle + bitAt 1 f.key + bitAt 2 f.unmapped + bitAt 3 f.tag + bitAt 4 f.unbound + bitAt 5 f.aliased +
    bitAt 6 f.port + bitAt 7 portB

/-- The record of a refusal (02 R58, Table 2.16). -/
def vioRecord (m : Mod) (a : Access) (s : Space) (f : VioFlags) (slot page : Nat) : Violation :=
  { w0 := BitVec.ofNat 64 (2 ^ 63 + a.ini.colour * 2 ^ 56 + tagOf a.ini s % 4096 * 2 ^ 44 + bitAt 40 a.write +
      f.code (hostPort a.ini == some .b) * 2 ^ 32 + m.acu.seq.toNat)
    w1 := nowT m
    w2 := BitVec.ofNat 64 a.addr
    w3 := BitVec.ofNat 64 (page % 16 * 2 ^ 24 + slot % 32 * 2 ^ 16 + a.len % 65536) }

/-- A record stored, or counted as lost where the store is full; SEQ advances either way (02 R60). -/
def AcuState.store (q : AcuState) (v : Violation) : AcuState :=
  if q.fifo.length < 1024 then { q with fifo := q.fifo ++ [v], seq := q.seq + 1 }
  else { q with lost := if q.lost = 0xFFFFFFFF then q.lost else q.lost + 1, seq := q.seq + 1 }

/-- The SSV is told of a refusal (02 R57, R58). -/
def tellSsv (m : Mod) (f : VioFlags) : Mod := trigger m (if f.key then 0x6B else 0x6A) 0 0

/-! ### The decision (02 R55, R56) -/

/-- Whether a byte of an access is enabled. -/
def byteOn (a : Access) (i : Nat) : Bool := (a.be[i]?).getD true

/-- The doublewords an access touches with an enabled byte: the address in the space, and its place in the data less the
offset in the doubleword. -/
def dwords (a : Access) (off : Nat) : List Nat :=
  let n := (off % 4 + a.len + 3) / 4
  ((List.range n).map (fun i => off / 4 * 4 + 4 * i)).filter (fun d =>
    (List.range 4).any (fun k => decide (off ≤ d + k) && decide (d + k < off + a.len) && byteOn a (d + k - off)))

/-- The pages an access touches. -/
def pagesOf (a : Access) (off : Nat) : List Nat :=
  if a.len = 0 then [] else (List.range ((off % 4096 + a.len + 4095) / 4096)).map (fun i => off / 4096 + i)

/-- Whether two ports are attached, so that queue pairs and the FIFO page belong to one of them (02 R48). -/
def bothPorts (m : Mod) (t : Nat) : Bool := (tenOf m t).attA && (tenOf m t).attB

/-- Whether a doubleword of a window falls to the other port (02 R48). -/
def otherPort (m : Mod) (a : Access) (t d : Nat) : Bool :=
  match hostPort a.ini with
  | none => false
  | some p =>
    let q := d % 4096 / 256
    if !bothPorts m t then false
    else if d / 4096 = 1 ∧ q < 4 then
      let base := d % 256 = 0 ∨ d % 256 = 4
      (qpOf m t q).owner != p && !(a.write && decide base && !qpActive m t q)
    else if d / 4096 = 2 then (tenOf m t).fifoPort != p
    else false

/-- Whether a tenant window grants a page's access to a tenant colour (03 R98, 08 R246, 17 Table 17.7): nothing under the
boot set, or where the grants are narrowed (02 R54, Table 2.13). -/
def winGrants (m : Mod) (a : Access) (off n : Nat) : Bool :=
  if !m.txp.imageLoaded || narrowed m then false
  else if !a.write then true
  else if a.ini.colour ≠ 2 then false
  else if n ≤ 2 then true
  else if n = 8 then ((dwords a off).filter (fun d => d / 4096 == 8)).all (fun d => d % 0x200 == 0x28 || d % 0x200 == 0x2C)
  else false

/-- Why a page refuses an access; none where it grants it. -/
def pageRefuses (m : Mod) (a : Access) (s : Space) (off n : Nat) : Option VioFlags :=
  let no := VioFlags.none
  match s with
  | .unbound => some { no with unbound := true, unmapped := !winMapped n }
  | .aliased _ => some { no with aliased := true, unmapped := !winMapped n }
  | .window t =>
    let wrongTag := match a.ini with
      | .net x => x != t
      | _ => false
    let wrongPort := (dwords a off).any (fun d => d / 4096 == n && otherPort m a t d)
    if !winMapped n then some { no with unmapped := true, tag := wrongTag }
    else if !winGrants m a off n || wrongTag || wrongPort then some { no with tag := wrongTag, port := wrongPort }
    else none
  | .inner =>
    let slot := slotOf s n
    let g := grantOf m slot (n % 16)
    let places := if a.write then writePlaces slot (n % 16) else none
    let atPlace := places.elim true (fun l => ((dwords a off).filter (fun d => d / 4096 == n)).all (fun d => l.contains (d % 4096)))
    if !innerMapped n then some { no with unmapped := true }
    else if (if a.write then g.2 else g.1).testBit a.ini.colour && atPlace then none
    else some { no with key := keyPage slot (n % 16) }
  | _ => none

/-- The refusal of an access: its flags and the first refused page. -/
def refusal (m : Mod) (a : Access) (s : Space) (off : Nat) : Option (VioFlags × Nat) :=
  let pages := pagesOf a off
  match pages.filterMap (fun n => (pageRefuses m a s off n).map (fun f => (f, n))) with
  | [] => none
  | (f, n) :: rest =>
    some ({ (rest.foldl (fun g x => g.or x.1) f) with straddle := decide (1 < pages.length) }, n)

/-! ### The registers of a space -/

/-- ACU page 2: the page entries as the image carries them (02 R51, R53; log 50). -/
def grantRegs (off : Nat) : Option Reg :=
  if 0x100 ≤ off ∧ off < 0x900 ∧ off % 4 = 0 then
    some (ro (fun _ => let g := (loadedGrant ((off - 0x100) / 64) ((off - 0x100) % 64 / 4)).getD (0, 0); g.1 * 2 ^ 16 + g.2))
  else none

/-- The registers of a block's region. -/
def blkRegs (e : RegEnv) (b : Blk) (page off : Nat) : Option Reg :=
  match b, page with
  | b, 0 => headRegs b off
  | .hif, 1 => hifRegs off
  | .nif, 1 => nifPortRegs off
  | .nif, 2 => nifAddrRegs off
  | .nif, 3 => nifHopRegs off
  | .nif, 4 => nctRegs off
  | .tlk, 1 => tlkRegs off
  | .cmq, 1 => cmqRegs off
  | .sch, 1 => schRegs off
  | .txp, 1 => txpRegs off
  | .txp, 2 => txpWinRegs off
  | .sce, 1 => sceRegs off
  | .dge, 1 => dgeRegs off
  | .pke, 1 => pkeRegs off
  | .khs, 1 => khsRegs off
  | .khs, 2 => certRegs off
  | .kch, 1 => kchRegs off
  | .bsx, 1 => bsxRegs off
  | .rtb, 1 => rtbRegs off
  | .rng, 1 => rngRegs off
  | .rng, 2 => rngTapRegs off
  | .acu, 1 => vioRegs off
  | .acu, 2 => grantRegs off
  | .tim, 1 => timRegs off
  | .dcu, 1 => dcuRegs off
  | .jnl, 1 => jnlRegs off
  | .ssv, 1 => ssvRegs e off
  | .ssv, 2 => calRegs off
  | .lcc, 1 => lccRegs e off
  | .lcc, 2 => lccCertRegs off
  | .evr, 1 => evrRegs off
  | .pmc, 1 => pmcRegs off
  | .pmc, 2 => pmcCntRegs off
  | .pmc, 3 => pmcSnapRegs off
  | .hlt, 1 => hltRegs off
  | _, _ => none

/-- The register at an address of a space; none at a reserved offset. -/
def regAt (e : RegEnv) (s : Space) (d : Nat) : Option Reg :=
  match s with
  | .inner =>
    if d < 0x1000 then devRegs e d
    else if 0x8000 ≤ d ∧ d < 0x9000 then msixRegs e (d - 0x8000)
    else if 0xC000 ≤ d ∧ d < 0xD000 then pbaRegs e (d - 0xC000)
    else if d < 0x100000 then none
    else (blkList[(d - 0x100000) / 0x10000]?).bind (fun b => blkRegs e b (d / 4096 % 16) (d % 4096))
  | .window t => winRegs e t (d / 4096) (d % 4096)
  | .vfBar2 p n => vfMsixRegs p n d
  | _ => none

/-- A 32-bit access to a 64-bit register: ACC_WIDTH of the owning block (00 R11, 02 Table 2.5, 03 Table 3.13). -/
def accWidth (s : Space) (d : Nat) (m : Mod) : Mod :=
  match s with
  | .inner => ((blkList[(d - 0x100000) / 0x10000]?).elim m (fun b => if d < 0x100000 then m else raiseInt m b 0x80000000))
  | .window t => raiseTen (raiseInt m .cmq 0x80000000) t 8
  | _ => m

/-! ### The access itself -/

/-- The enabled bytes of an access as a mask, and its data, over `n` bytes from an address. -/
def laneMask (a : Access) (off d n : Nat) : W64 :=
  BitVec.ofNat 64 (leNat ((List.range n).map (fun k =>
    if off ≤ d + k ∧ d + k < off + a.len ∧ byteOn a (d + k - off) then 0xFF else 0)))
def laneData (a : Access) (off d n : Nat) : W64 :=
  BitVec.ofNat 64 (leNat ((List.range n).map (fun k =>
    if off ≤ d + k ∧ d + k < off + a.len then a.data.getD (d + k - off) 0 else 0)))

/-- One register read or written over `n` bytes at an address: the bytes read. -/
def touch (r : Reg) (a : Access) (off d n : Nat) (m : Mod) : Bytes × Mod :=
  if a.write then ([], r.put (laneMask a off d n) (laneData a off d n) m)
  else let x := r.read m; (natLe n x.1.toNat, x.2)

/-- Doublewords taken one after the other; an aligned pair that covers a 64-bit register is one access (02 R33). The
bytes read come with their addresses. -/
def perform (e : RegEnv) (s : Space) (a : Access) (off : Nat) : List Nat → Mod → List (Nat × Bytes) × Mod
  | [], m => ([], m)
  | d :: rest, m =>
    match (regAt e s (d / 8 * 8)).filter (fun r => r.wide), rest with
    | some r, d2 :: rest2 =>
      if d % 8 = 0 ∧ d2 = d + 4 then
        let x := touch r a off d 8 m
        let y := perform e s a off rest2 x.2
        ((d, x.1) :: y.1, y.2)
      else perform e s a off (d2 :: rest2) (accWidth s d m)
    | some _, [] => ([], accWidth s d m)
    | none, rest =>
      match regAt e s d with
      | none => perform e s a off rest m
      | some r =>
        let x := touch r a off d 4 m
        let y := perform e s a off rest x.2
        ((d, x.1) :: y.1, y.2)

/-- The data of a read: the bytes enabled, zero where no register answers. -/
def readBytes (a : Access) (off : Nat) (parts : List (Nat × Bytes)) : Bytes :=
  (List.range a.len).map (fun i =>
    let at' := off + i
    if byteOn a i then
      (parts.find? (fun p => decide (p.1 ≤ at') && decide (at' < p.1 + p.2.length))).elim 0 (fun p => p.2.getD (at' - p.1) 0)
    else 0)

/-- Whether an access arrives at all: the core die runs, and the port it comes through has link. -/
def arrives (m : Mod) (ini : Initiator) : Bool :=
  m.powered && (hostPort ini).elim true (fun p => (portOf m p).linkUp)

/-- The registers' view of an access. -/
def envOf (ini : Initiator) (still : W32) (ok agree : Bool) : RegEnv :=
  { port := (hostPort ini).getD .a, colour := ini.colour, still := still, ok := ok, agree := agree }

/-- The data of a read handed back. -/
def reply (a : Access) (b : Bytes) (m : Mod) : Mod := if a.write then m else emit m (.readData b)

/-- Whether an access reads TXP's local memory where a context holds a command (04 R124). -/
def heldWindow (m : Mod) (a : Access) (s : Space) (off : Nat) : Bool :=
  s == .inner && !a.write && (pagesOf a off).contains (0x100 + Blk.txp.idx * 16 + 2) && winHeld m

/-- What the ACU decides of an access that arrives: nothing recorded (a disabled BAR2), refused, or granted. -/
inductive Verdict where
  | silent
  | refused (f : VioFlags) (slot page : Nat)
  | granted
  deriving DecidableEq, Repr

/-- The decision on an access (02 R44, R55, 04 R124). -/
def judge (m : Mod) (a : Access) (s : Space) (off : Nat) : Verdict :=
  match s with
  | .off => .silent
  | s =>
    match refusal m a s off with
    | some (f, n) => .refused f (slotOf s n) (n % 16)
    | none => if heldWindow m a s off then .refused VioFlags.none Blk.txp.idx 2 else .granted

/-- An access decided by the ACU and, where it is granted, carried out (02 R55). The store of violations is left to
`acuNext`. -/
def regAccess (e : RegEnv) (a : Access) (m : Mod) : Mod :=
  if !arrives m a.ini then m
  else
    let x := spaceOf m a
    match judge m a x.1 x.2 with
    | .silent => reply a (zeroBytes a.len) m
    | .refused f _ _ => reply a (zeroBytes a.len) (tellSsv m f)
    | .granted =>
      let y := perform e x.1 a x.2 (dwords a x.2) m
      reply a (readBytes a x.2 y.1) y.2

/-- A granted write as ACU_VIO_NEXT and ACU_VIO_LOST take it (02 Table 2.15): bit 0 of either. -/
def acuWrite (a : Access) (off : Nat) (q : AcuState) : AcuState :=
  let base := 0x1E1000
  (dwords a off).foldl (fun q d =>
    if !(laneMask a off d 4 &&& laneData a off d 4).getLsbD 0 then q
    else if d = base + 0x20 then { q with fifo := q.fifo.drop 1 }
    else if d = base + 0x28 then { q with lost := 0 }
    else q) q

/-- The store of violations after an access: the only commands that change it are accesses (02 R60). -/
def acuNext (a : Access) (m : Mod) : AcuState :=
  if !arrives m a.ini then m.acu
  else
    let x := spaceOf m a
    match judge m a x.1 x.2 with
    | .silent => m.acu
    | .refused f slot page => m.acu.store (vioRecord m a x.1 f slot page)
    | .granted => if x.1 == .inner && a.write then acuWrite a x.2 m.acu else m.acu

end Sys2Proof.Machine
end

