-- ==== Sys2Proof/Machine/RegRows.lean ====
section
/-! DEFINITION. Accesses that the table lists as commands of their own: each goes through the ACU like any other
(02 R55), with the address and data its register gives it. -/

namespace Sys2Proof.Machine

/-- Writes of 32 and 64 bits, and a read of 64. -/
def write32 (ini : Initiator) (addr : Nat) (v : W32) : Access :=
  { ini := ini, vfTable := false, addr := addr, write := true, len := 4, data := natLe 4 v.toNat, be := [] }
def write64 (ini : Initiator) (addr : Nat) (v : W64) : Access :=
  { ini := ini, vfTable := false, addr := addr, write := true, len := 8, data := natLe 8 v.toNat, be := [] }
def read64 (ini : Initiator) (addr : Nat) : Access :=
  { ini := ini, vfTable := false, addr := addr, write := false, len := 8, data := [], be := [] }

/-- The internal address of a register of a block. -/
def blkAddr (b : Blk) (page off : Nat) : Nat := 0x100000 + b.idx * 0x10000 + page * 0x1000 + off

/-- The access a row makes in the state it finds; none where it has no way to. -/
abbrev Row := Mod → Option (RegEnv × Access)

/-- An access with nothing physical about it. -/
def plainAccess (a : Access) : Row := fun _ => some (envOf a.ini 0 true true, a)

/-- No access. -/
def noAccess : Row := fun _ => none

/-- A 32-bit write to a block's register. -/
def blkWrite (ini : Initiator) (b : Blk) (page off : Nat) (v : W32) : Row :=
  plainAccess (write32 ini (blkAddr b page off) v)

/-- The address of a place in a tenant's window as its initiator issues it; none where it has no path to windows. -/
def windowAddr (ini : Initiator) (ten off : Nat) : Option Nat :=
  match ini with
  | .vf _ _ => some off
  | .bar2 _ => some (ten % 4096 * 2 ^ 16 + off)
  | .net _ => some (netWindows + ten % 4096 * 2 ^ 16 + off)
  | _ => none

/-- An access to a tenant's window: a VF reaches its own tenant's window alone (log 50). -/
def windowAccess (ini : Initiator) (ten off : Nat) (f : Nat → Access) : Row := fun m =>
  (windowAddr ini ten off).bind (fun addr =>
    let other := match (spaceOf m (f addr)).1 with
      | .window t => t != ten
      | _ => false
    if other then none else plainAccess (f addr) m)

/-- A 32-bit write to a tenant's window. -/
def windowWrite (ini : Initiator) (ten off : Nat) (v : W32) : Row := windowAccess ini ten off (fun a => write32 ini a v)

/-! ### Block headers -/

/-- BLK_CTL with some bits changed. -/
def rowBlkCtl (ini : Initiator) (b : Blk) (f : W32 → W32) : Row := fun m => blkWrite ini b 0 0x08 (f (ctlRead m b)) m
def rowBlkQuiesce (ini : Initiator) (b : Blk) (v : Bool) : Row :=
  rowBlkCtl ini b (fun x => (x &&& ~~~2#32) ||| (if v then 2 else 0))
def rowBlkEnable (ini : Initiator) (b : Blk) (v : Bool) : Row :=
  rowBlkCtl ini b (fun x => (x &&& ~~~1#32) ||| (if v then 1 else 0))
def rowSelftestReq (ini : Initiator) (b : Blk) : Row := rowBlkCtl ini b (fun x => x ||| 4)
def rowIntStatClear (ini : Initiator) (b : Blk) (v : W32) : Row := blkWrite ini b 0 0x10 v
def rowIntTest (ini : Initiator) (b : Blk) (v : W32) : Row := blkWrite ini b 0 0x18 v

/-! ### DEV and the tenant windows -/

/-- Registers of a port's admin queue (02 Table 2.8). -/
def admqWrite (p : Port) (off : Nat) (v : W32) : Row := plainAccess (write32 (.pf p) off v)
def rowAdmqSqTail (p : Port) (v : W32) : Row := admqWrite p 0x4C v
def rowAdmqCqHead (p : Port) (v : W32) : Row := admqWrite p 0x5C v
def rowAdmqSqSize (p : Port) (v : W32) : Row := admqWrite p 0x48 v
def rowAdmqCqSize (p : Port) (v : W32) : Row := admqWrite p 0x58 v

/-- Registers of a queue pair (03 Table 3.6). -/
def qpWrite (ini : Initiator) (ten q off : Nat) (v : W32) : Row :=
  if q < 4 then windowWrite ini ten (0x1000 + 0x100 * q + off) v else noAccess
def rowQpSqTail (ini : Initiator) (ten q : Nat) (v : W32) : Row := qpWrite ini ten q 0x0C v
def rowQpCqHead (ini : Initiator) (ten q : Nat) (v : W32) : Row := qpWrite ini ten q 0x1C v
def rowQpEnable (ini : Initiator) (ten q : Nat) (intEn : Bool) : Row := qpWrite ini ten q 0x20 (if intEn then 3 else 1)
def rowQpDisable (ini : Initiator) (ten q : Nat) (intEn : Bool) : Row := qpWrite ini ten q 0x20 (if intEn then 2 else 0)
def rowQpSqBase (ini : Initiator) (ten q : Nat) (hi : Bool) (v : W32) : Row := qpWrite ini ten q (if hi then 0x04 else 0x00) v

/-- Registers of the FIFO page (03 Table 3.9). -/
def rowCmdPush (ini : Initiator) (ten : Nat) (w : W64) : Row := windowAccess ini ten 0x2000 (fun a => write64 ini a w)
def rowCplPop (ini : Initiator) (ten : Nat) : Row := windowAccess ini ten 0x2010 (fun a => read64 ini a)
def rowCplFlush (ini : Initiator) (ten : Nat) : Row := windowWrite ini ten 0x2018 1
def rowCmdDrop (ini : Initiator) (ten : Nat) : Row := windowWrite ini ten 0x2018 2

/-! ### Registers of the blocks -/

def rowVioNext (ini : Initiator) : Row := blkWrite ini .acu 1 0x20 1
def rowSchAge (ini : Initiator) (v : W32) : Row := blkWrite ini .sch 1 0x120 v
def rowRehashStart (ini : Initiator) : Row := blkWrite ini .kch 1 0x120 1
def rowBsxWin (ini : Initiator) (reg : WinReg) (v : W64) : Row :=
  match reg with
  | .base => plainAccess (write64 ini (blkAddr .bsx 1 0x108) v)
  | .size => blkWrite ini .bsx 1 0x110 (low32 v)
  | .ctl => blkWrite ini .bsx 1 0x114 (low32 v)
def rowVfBind (ini : Initiator) (p : Port) (v : W32) : Row := blkWrite ini .cmq 1 (0x180 + 4 * p.idx) v
def rowTcfg (ini : Initiator) (v : W32) : Row := blkWrite ini .cmq 1 0x110 v
def rowRngRaw (ini : Initiator) : Row := plainAccess (read64 ini (blkAddr .rng 2 0x100))
def rowDivLogRead (ini : Initiator) : Row := plainAccess (read64 ini (blkAddr .tlk 1 0x160))
def rowRecClear (ini : Initiator) (v : W32) : Row := blkWrite ini .ssv 1 0x158 v
def rowLatchClear (ini : Initiator) (word : Nat) (v still : W32) : Row := fun _ =>
  if word < 4 then some (envOf ini still true true, write32 ini (blkAddr .ssv 1 (0x110 + 4 * word)) v) else none

/-- LCC_CMD (16 Table 16.9). -/
def rowLccCmd (ini : Initiator) (v : W32) (ok agree : Bool) : Row := fun _ =>
  some (envOf ini 0 ok agree, write32 ini (blkAddr .lcc 1 0x108) v)

def rowEvrFlush (ini : Initiator) : Row := blkWrite ini .evr 1 0x108 1
def rowEvrCapply (ini : Initiator) : Row := blkWrite ini .evr 1 0x13C 1
def rowEvrCtlEn (ini : Initiator) (v : Bool) : Row := blkWrite ini .evr 1 0x100 (if v then 1 else 0)
def rowPmcSnap (ini : Initiator) : Row := fun m => blkWrite ini .pmc 1 0x100 (if m.pmc.freeze then 3 else 2) m
def rowPmcFreeze (ini : Initiator) (v : Bool) : Row := blkWrite ini .pmc 1 0x100 (if v then 1 else 0)
def rowPmcCounter (ini : Initiator) (c : Nat) (v : W64) : Row :=
  if c < 256 then plainAccess (write64 ini (blkAddr .pmc 2 (8 * c)) v) else noAccess

/-- REGISTER_WRITE: any access. What a register's physical outcome is stays free (log 50). -/
def rowRegister (a : Access) : Row := fun m =>
  let n := choice m
  some (envOf a.ini (BitVec.ofNat 32 n) (n / 2 ^ 32 % 2 == 1) (n / 2 ^ 33 % 2 == 1), a)

end Sys2Proof.Machine
end

