-- ==== Sys2Proof/Machine/Time.lean ====
section
/-! DEFINITION. The commands and events of the time unit (chapter 13). -/

namespace Sys2Proof.Machine

/-! ### PTP (13 R347, Table 13.7) -/

/-- The transport of an entry. -/
def ptpTransport (b : Bytes) : Nat := getNat8 b 0 / 4 % 4

/-- Bytes of a master's address that count. -/
def ptpAddrLen (b : Bytes) : Nat := if ptpTransport b = 0 then 6 else if ptpTransport b = 1 then 4 else 16

/-- P2P and UNICAST of an entry. -/
def ptpP2p (b : Bytes) : Bool := (getNat8 b 0).testBit 1
def ptpUnicast (b : Bytes) : Bool := (getNat8 b 0).testBit 4

/-- Whether a message arrives on the port and VLAN of an entry, in its transport and domain. -/
def ptpPlace (b : Bytes) (x : PtpMsg) : Bool :=
  getNat8 b 1 == x.port && (getLe16 b 2).toNat == x.vlan && ptpTransport b == x.transport && getNat8 b 4 == x.domain

/-- Whether a message comes from an entry's master. -/
def ptpFrom (b : Bytes) (x : PtpMsg) : Bool :=
  ptpPlace b x && ptpUnicast b == x.unicast && sliceOf b 8 8 == x.clockId && beNat (sliceOf b 0x10 2) == x.portNo &&
    (sliceOf b 0x18 16).take (ptpAddrLen b) == x.src.take (ptpAddrLen b)

/-- The entry a message belongs to: enabled, and its master's. -/
def ptpEntryOf (m : Mod) (x : PtpMsg) : Option TimeSrc :=
  [TimeSrc.ptp0, .ptp1].find? (fun s =>
    srcEnabled m.dur.tcfg s && ptpFrom (ptpEntry m.dur.tcfg (srcIdx s)) x)

/-- A PTP timestamp as TIME64 counts it, in ns: truncated to 4 ns (13 R349, 00 R14). -/
def ptpStamp (x : PtpMsg) : Int := (x.secs : Int) * nsPerS + (x.nanos / 4 * 4 : Nat)

/-- The time a message states, in ns since the epoch. -/
def ptpNs (x : PtpMsg) : Int := ptpStamp x + x.correction

/-- The interval of an entry's delay requests, in ns: 2 to the power LOG_DELAY, in s (13 Table 13.7). -/
def ptpInterval (b : Bytes) : Nat :=
  let d := getNat8 b 6
  nsPerS * 2 ^ ((d + 7) % 256) / 128

/-- Whether two samples of PTP agree within 1 µs. -/
def ptpAgrees (m : Mod) (s : TimeSrc) (ext : Int) : Bool :=
  match srcTime m s with
  | none => false
  | some e => decide ((ext - e).natAbs ≤ 1000)

/-- PTP_SYNC_RX: a sample of the master's time, its path delay added; a timestamp of 2^34 s or more disqualifies the
master (13 R347, R349). -/
def opPtpSync (x : PtpMsg) (m : Mod) : Mod :=
  match ptpEntryOf m x with
  | none => m
  | some s =>
    if 2 ^ 34 ≤ x.secs ∨ 999999999 < x.nanos then loseSrc m s
    else
      let raw := ptpNs x
      let ext := raw + tblGet 0 m.tim.pathDelay (srcIdx s)
      takeSample { m with tim := { m.tim with sync := tblSet m.tim.sync (srcIdx s) (m.clk, raw) } } s ext (ptpAgrees m s ext)

/-- PTP_ANNOUNCE_RX: it qualifies its master, or loses it (13 R347, Table 13.1). -/
def opPtpAnnounce (x : PtpMsg) (m : Mod) : Mod :=
  match ptpEntryOf m x with
  | none => m
  | some s =>
    if x.ptpTimescale ∧ x.clockClass ≤ getNat8 (ptpEntry m.dur.tcfg (srcIdx s)) 5 then
      updSrc m s (fun y => { y with announced := true, qualified := y.qualified || decide (16 ≤ y.samples) })
    else loseSrc m s

/-- PDELAY_REQ_RX: answered on a port whose entry uses peer delay (13 R347). -/
def opPdelayReq (x : PtpMsg) (m : Mod) : Mod :=
  let on := [TimeSrc.ptp0, .ptp1].any (fun s =>
    let b := ptpEntry m.dur.tcfg (srcIdx s)
    srcEnabled m.dur.tcfg s && ptpP2p b && ptpPlace b x)
  if on && netPortSends m x.port then emit m (.pdelayResp x.port) else m

/-- DELAY_REQ_SEND: at the entry's interval the module asks for its path delay (13 R347). -/
def opDelayReq (e : Nat) (m : Mod) : Mod :=
  let s : TimeSrc := if e = 0 then .ptp0 else .ptp1
  let b := ptpEntry m.dur.tcfg e
  let due := (tblFind m.tim.reqAt e).elim true (fun a => decide (a + ptpInterval b ≤ m.clk))
  if e ≤ 1 ∧ srcEnabled m.dur.tcfg s ∧ netPortSends m (getNat8 b 1) ∧ due = true then
    let m1 := { m with tim := { m.tim with
      reqSent := tblSet m.tim.reqSent e m.clk, reqAt := tblSet m.tim.reqAt e m.clk } }
    emit m1 (.ptpDelayReq (getNat8 b 1) (ptpP2p b))
  else m

/-- DELAY_RESP_RX: the path delay of IEEE 1588 (PRESUMED, log 42): half of what the exchange took less what the master
took of it, end to end with the last Sync, or peer to peer with the turnaround in the correction field. -/
def opDelayResp (x : PtpMsg) (m : Mod) : Mod :=
  match ptpEntryOf m x with
  | none => m
  | some s =>
    let e := srcIdx s
    let b := ptpEntry m.dur.tcfg e
    match tblFind m.tim.reqSent e with
    | none => m
    | some t3 =>
      let m1 := { m with tim := { m.tim with reqSent := tblErase m.tim.reqSent e } }
      let put := fun (d : Int) => { m1 with tim := { m1.tim with pathDelay := tblSet m1.tim.pathDelay e d } }
      if ptpP2p b then put (((m.clk : Int) - (t3 : Int) - x.correction) / 2)
      else match tblFind m.tim.sync e with
        | none => m1
        | some (t2, t1) =>
          let t4 := ptpStamp x - x.correction
          put ((t4 - t1 - ((t3 : Int) - (t2 : Int))) / 2)

/-! ### PPS and TOD (13 R346, R348) -/

/-- Whether two instants lie 1 s ± 1 µs apart. -/
def secondApart (a b : Nat) : Bool := decide (((b : Int) - (a : Int) - (nsPerS : Int)).natAbs ≤ 1000)

/-- PPS_EDGE: an edge within 1 s after a TOD message is named by it, once. An edge with REF10M_IN outside its limits
loses the class; one with no name breaks the run. -/
def opPpsEdge (refOk : Bool) (m : Mod) : Mod :=
  let apart := m.tim.pps.elim false (fun a => secondApart a m.clk)
  let m0 := updSrc m .pps (fun x => { x with refOk := refOk })
  let m1 := { m0 with tim := { m0.tim with pps := some m.clk } }
  if !refOk then loseSrc m1 .pps
  else match m1.tim.tod with
    | some (at', secs) =>
      let m2 := { m1 with tim := { m1.tim with tod := none } }
      if m.clk ≤ at' + nsPerS then takeSample m2 .pps ((secs : Int) * nsPerS) apart
      else updSrc m2 .pps (fun x => { x with samples := 0 })
    | none => updSrc m1 .pps (fun x => { x with samples := 0 })

/-- Time from the start bit of byte 0 of a TOD message to the end of its last byte: 160 bits at 115,200 baud, in ns. -/
def todSpan : Nat := 1388889

/-- Whether a TOD message is well formed (13 Table 13.2). -/
def todOk (b : Bytes) : Bool :=
  b.length == 16 && getNat8 b 0 == 0xA5 && getNat8 b 1 == 0x5A && getNat8 b 2 == 1 && getLe32 b 12 == crc32c (b.take 12)

/-- TOD_MESSAGE_RX: a message received whole at this instant. One with VALID = 0 counts as missing. -/
def opTodMessage (b : Bytes) (m : Mod) : Mod :=
  if !todOk b || !(getNat8 b 3).testBit 0 then m
  else
    let secs : Nat := (getLe64 b 4).toNat % 2 ^ 34
    let m1 := { m with tim := { m.tim with tod := some (m.clk, secs) } }
    let apart := (srcOf m .tod).last.elim false (fun p => secondApart p.1 m.clk)
    takeSample m1 .tod ((secs : Int) * nsPerS + todSpan) apart

/-! ### Loss, expiry and the end of a refusal -/

/-- How long a source is silent before it is lost (13 Table 13.1). -/
def lossAfter : TimeSrc → Nat
  | .ptp0 | .ptp1 => nsPerS
  | .pps | .tod => 2 * nsPerS

/-- TIME_SOURCE_LOST: a source has shown nothing for its time. -/
def opSourceLost (s : TimeSrc) (m : Mod) : Mod :=
  let seen := if s = .pps then m.tim.pps else (srcOf m s).last.map Prod.fst
  match seen with
  | none => m
  | some p => if p + lossAfter s ≤ m.clk then loseSrc m s else m

/-- HOLDOVER_EXPIRED: the holdover age has reached its limit (13 R352). -/
def opHoldoverExpired (m : Mod) : Mod :=
  match m.tim.mode, m.tim.lossAt with
  | .holdover, some s =>
    if (holdEnd m s).toNat ≤ (nowT m).toNat then raiseInt { m with tim := { m.tim with mode := .expired } } .tim 8 else m
  | _, _ => m

/-- SOURCE_REJECT_END: the hour of a refusal is over (13 R355). -/
def opRejectEnd (s : TimeSrc) (m : Mod) : Mod :=
  match (srcOf m s).rejected with
  | none => m
  | some h => if h < hourNow m then updSrc m s (fun x => { x with rejected := none }) else m

/-! ### Commands (13 R358) -/

/-- Whether an entry's fields stand in their ranges. -/
def ptpEntryOk (b : Bytes) : Bool :=
  let d := getNat8 b 6
  decide (getNat8 b 0 < 32) && decide (ptpTransport b ≤ 2) && decide (getNat8 b 1 ≤ 7) &&
    decide ((getLe16 b 2).toNat < 4096) && decide (getNat8 b 4 ≤ 127) && (decide (d ≤ 4) || decide (249 ≤ d)) &&
    decide (getNat8 b 7 ≤ 31) && allZero (sliceOf b 0x12 6) && allZero (sliceOf b 0x28 8)

/-- TIME_CONFIG_SET. -/
def progTimeConfigSet : Prog := fun m tag c => do
  bodyLen c 112
  needBlk m .tim
  range (decide (f32 c 0 ≤ 259200 ∧ f32 c 4 ≤ 1000000 ∧ 1 ≤ f32 c 8 ∧ f32 c 8 ≤ 10000000 ∧ f8 c 12 ≤ 7))
  reserved c 13 3
  range (ptpEntryOk (fBytes c 0x10 48) && ptpEntryOk (fBytes c 0x40 48))
  let q ← quorum m tag c clsTimeConfig
  let cfg : TimeCfg :=
    { holdLimit := getLe32 c.body 0, slewMax := getLe32 c.body 4, stepGuard := getLe32 c.body 8,
      srcEn := BitVec.ofNat 3 (f8 c 12), ptp0 := fBytes c 0x10 48, ptp1 := fBytes c 0x40 48 }
  pure (.journal m (q ++ [.timeCfg cfg]) stOk [] false)

/-- TIME_ACCEPT: the refused source of highest priority. -/
def progTimeAccept : Prog := fun m tag c => do
  bodyLen c 0
  needBlk m .tim
  let s ← orStop (timeSrcs.find? (srcRefused m)) stRetryLater
  let e ← orStop (srcTime m s) stRetryLater
  let q ← quorum m tag c clsTimeConfig
  let off := e - (extNs m : Int)
  pure (.journal m (q ++ [.timeSet (srcIdx s) off]) stOk (natLe 8 (BitVec.ofInt 64 off).toNat) false)

end Sys2Proof.Machine
end

