-- ==== Sys2Proof/Machine/Programs.lean ====
section
/-! DEFINITION. Which program an opcode runs, its dispatch, what resumes after an event, and the frame of every command:
time passes, the effect, then what follows from it at the same instant (04 R113, logs 1, 3, 14). -/

namespace Sys2Proof.Machine

/-! ### The programs by family -/

/-- Keys (chapters 5, 9): family 0x01. -/
def programs01 : Nat → Option Prog
  | 0x01 => some progKeyGenerate
  | 0x02 => some progKeyImportBlock
  | 0x03 => some progKeyExport
  | 0x04 => some progKeyImportPublic
  | 0x05 => some progKeyDerive
  | 0x06 => some progKeyRotate
  | 0x07 => some progKeyRetire
  | 0x08 => some progKeyDestroy
  | 0x09 => some progKeyInfo
  | 0x0A => some progWrapAdvance
  | _ => none

/-- PINs: family 0x02. -/
def programs02 : Nat → Option Prog
  | 0x01 => some (progPinTranslate false)
  | 0x02 => some (progPinTranslate true)
  | 0x03 => some progPinVerifyOffset
  | 0x04 => some progPinVerifyRef
  | 0x05 => some progPinChange
  | 0x06 => some progPinOffset
  | 0x10 => some progBudgetSet
  | 0x11 => some progBudgetGet
  | _ => none

/-- DUKPT, MACs, EMV, card codes and tokens: families 0x03 to 0x07. -/
def programsPay : Nat → Option Prog
  | 0x0301 => some (progDukptTranslate false)
  | 0x0302 => some (progDukptTranslate true)
  | 0x0303 => some progDukptMac
  | 0x0310 => some progDukptExport
  | 0x0401 => some progMacGenerate
  | 0x0402 => some progMacVerify
  | 0x0403 => some progMacVerifyRouted
  | 0x0501 => some progEmvArqc
  | 0x0502 => some progEmvMac
  | 0x0503 => some progEmvEncrypt
  | 0x0601 => some (progCsc false)
  | 0x0602 => some (progCsc true)
  | 0x0701 => some (progToken false)
  | 0x0702 => some (progToken true)
  | _ => none

/-- Jobs and streams: families 0x08, 0x0A, 0x0B. -/
def programsBulk : Nat → Option Prog
  | 0x0801 => some (progJob false)
  | 0x0802 => some (progJob true)
  | 0x0803 => some (progJob false)
  | 0x0804 => some (progJob true)
  | 0x0810 => some progStreamOpen
  | 0x0811 => some progStreamUpdate
  | 0x0812 => some progStreamFinal
  | 0x0813 => some progStreamAbort
  | 0x0A01 => some progDigest
  | 0x0A02 => some (progHmac false)
  | 0x0A03 => some (progHmac true)
  | 0x0B01 => some progRandom
  | _ => none

/-- Public keys: family 0x09. -/
def programs09 : Nat → Option Prog
  | 0x01 => some progPk
  | 0x02 => some progPk
  | 0x03 => some progPk
  | 0x04 => some progPk
  | 0x05 => some progPk
  | 0x06 => some progPk
  | 0x07 => some progPk
  | 0x10 => some progPkCancel
  | _ => none

/-- The route table: family 0x0C. -/
def programs0C : Nat → Option Prog
  | 0x01 => some progRecordSet
  | 0x02 => some progRouteUpdate
  | 0x03 => some progRtCommit
  | 0x04 => some progRtAbort
  | 0x05 => some progRtLookup
  | 0x06 => some progRtStatus
  | 0x10 => some progRtCompact
  | _ => none

/-- Tenants and sessions: family 0x0D. -/
def programs0D : Nat → Option Prog
  | 0x01 => some progSessionHello
  | 0x02 => some progSessionClose
  | 0x03 => some progSessionStatus
  | 0x04 => some progCredEnrol
  | 0x05 => some progCredRemove
  | 0x06 => some progTenantPolicySet
  | 0x07 => some progTenantInfo
  | 0x10 => some progTenantCreate
  | 0x11 => some progTenantClose
  | 0x12 => some progTenantReroot
  | 0x13 => some progTenantFreeze
  | 0x14 => some progTenantResume
  | 0x15 => some progMigratePrepare
  | 0x16 => some progMigrateSave
  | 0x17 => some progMigrateRestore
  | _ => none

/-- Custodians and ceremonies: family 0x0E. -/
def programs0E : Nat → Option Prog
  | 0x01 => some progQuorumOpen
  | 0x02 => some progQuorumApprove
  | 0x03 => some progQuorumStatus
  | 0x04 => some progQuorumClose
  | 0x10 => some progCustEnrol
  | 0x11 => some progCustRemove
  | 0x12 => some progPolicySet
  | 0x13 => some progCustList
  | 0x20 => some progCeremonyOpen
  | 0x21 => some progCeremonyComponent
  | 0x22 => some progCeremonyClose
  | 0x30 => some progMaintOpen
  | 0x31 => some progMaintClose
  | _ => none

/-- Device and twin administration: families 0x0F and 0x10. -/
def programsDev : Nat → Option Prog
  | 0x0F10 => some progSsvReadmit
  | 0x0F11 => some progSsvRestart
  | 0x0F12 => some progCalWrite
  | 0x0F13 => some progCalRead
  | 0x0F14 => some progSsvRelease
  | 0x0F20 => some progTimeConfigSet
  | 0x0F21 => some progTimeAccept
  | 0x0F40 => some progEvrRead
  | 0x0F41 => some progEvrClear
  | 0x0F50 => some progImgAccept
  | 0x1001 => some progTwinPair
  | 0x1002 => some progTwinUnpair
  | 0x1003 => some progTwinStatus
  | 0x1004 => some progTwinPromote
  | 0x1005 => some progTwinHandover
  | 0x1006 => some progTwinRevertSet
  | 0x1007 => some progTwinRestart
  | _ => none

/-- The program of an opcode; none where the opcode is undefined. -/
def programOf (op : Nat) : Option Prog :=
  match op / 256 with
  | 0x01 => programs01 (op % 256)
  | 0x02 => programs02 (op % 256)
  | 0x03 => programsPay op
  | 0x04 => programsPay op
  | 0x05 => programsPay op
  | 0x06 => programsPay op
  | 0x07 => programsPay op
  | 0x08 => programsBulk op
  | 0x09 => programs09 (op % 256)
  | 0x0A => programsBulk op
  | 0x0B => programsBulk op
  | 0x0C => programs0C (op % 256)
  | 0x0D => programs0D (op % 256)
  | 0x0E => programs0E (op % 256)
  | 0x0F => programsDev op
  | 0x10 => programsDev op
  | _ => none

/-! ### Dispatch (04 R113) -/

/-- A command's program at a dispatch; while TXP is quiescing or disabled it ends with ST_RETRY_LATER (02 R36). -/
def dispatch (prog : Prog) (m : Mod) (tag : Nat) : Mod :=
  if blkServes m .txp then runCmd prog m tag else endCmd m tag stRetryLater []

/-- The program an opcode names, or that of no opcode. -/
def dispatchNamed (m : Mod) (tag : Nat) : Mod :=
  match (cmdOf m tag).bind (fun c => programOf c.opcode) with
  | some prog => dispatch prog m tag
  | none => endCmd m tag stBadOpcode []

/-- Opcodes whose work may be longer than one dispatch's budget (04 R117). -/
def isLong (op : Nat) : Bool := op == 0x0C02 || op == 0x0F40

/-- What a grant comes to: the program of the tag's opcode runs; one whose work may be long is at work, and its opcode's
own row brings it to its end (log 61). -/
def runGrant (m : Mod) (tag : Nat) : Mod :=
  if (cmdOf m tag).elim false (fun c => isLong c.opcode) && blkServes m .txp then m else dispatchNamed m tag

/-- GETWORK: the context waits, and SCH makes its next grant where a tag is ready. -/
def opGetwork (core ctx : Nat) (m : Mod) : Mod :=
  let m1 := if ctxFree m core ctx then ctxWait m core ctx else m
  match nextGrant m1 with
  | none => m1
  | some (tag, m2) => runGrant m2 tag

/-- A row of an opcode: the command at a tag, where it has that opcode and SCH's next grant is of it, runs in the context
granted; one already at work in a context goes on (log 14). -/
def runOpcode (op : Nat) (prog : Prog) (tag : Nat) (m : Mod) : Mod :=
  match cmdOf m tag with
  | none => m
  | some c =>
    if c.opcode ≠ op then m
    else match c.phase with
      | .ready _ _ =>
        match grantOfTag m tag with
        | none => m
        | some m1 => dispatch prog m1 tag
      | .running => dispatch prog m tag
      | _ => m

/-! ### What goes on after a wait -/

/-- A program goes on after a wait: no new dispatch. -/
def resumeCmd (m : Mod) (tag : Nat) : Mod :=
  match (cmdOf m tag).bind (fun c => programOf c.opcode) with
  | some prog => runProg prog (64 + m.dur.kst.length) (updCmd m tag (fun c => { c with phase := .running })) tag
  | none => m

/-- Whether a key of a command's request is still being fetched. -/
def keysOut (m : Mod) (tag : Nat) (c : Cmd) : Bool :=
  m.kch.lines.any (fun p => p.2.state == .fetching && p.2.pins.contains tag) ||
    c.slots.any (fun n => (tblFind m.bsx.slots n).elim false (fun f => f.blob.isNone))

/-- Whether a command can go on now: its keys are in, or it asks again for a line or slot it did not get (06 R173); or
approvals it waits for are decided (11 R307). -/
def goesOn (m : Mod) (p : Nat × Cmd) : Bool :=
  match p.2.phase with
  | .keys => !keysOut m p.1 p.2
  | .verify => decides p.2
  | _ => false

/-- One pass over the commands that wait, in tag order (log 14). -/
def settleOnce (m : Mod) : Mod :=
  m.cmq.cmds.foldl (fun m p =>
    match cmdOf m p.1 with
    | none => m
    | some c => if goesOn m (p.1, c) then resumeCmd m p.1 else m) m

/-- Passes until nothing goes on, as many as there are commands at most. -/
def settleKeys : Nat → Mod → Mod
  | 0, m => m
  | f + 1, m => if m.cmq.cmds.any (goesOn m) then settleKeys f (settleOnce m) else m

/-- Everything that waited for what an event brought goes on. -/
def settle (m : Mod) : Mod := resumeLcc (resumeImages (resumePk (settleKeys m.cmq.cmds.length m)))

/-- TENANT_DRAIN_DONE: the commands that waited for a tenant's drain go on once no tag is left (12 R337). -/
def opDrainDone (t : Nat) (m : Mod) : Mod :=
  if tagsOf m t ≠ 0 then m
  else (m.cmq.cmds.filter (fun p => p.2.phase == .drain && f16 p.2 0 == t)).foldl (fun m p => resumeCmd m p.1) m

/-- JOB_END: the data of a job has come, or will not. -/
def opJobEnd (tag : Nat) (io : JobIo) (m : Mod) : Mod :=
  match cmdOf m tag with
  | none => m
  | some c =>
    if c.opcode = 0x0F50 then imgEnd m tag c io
    else if c.phase ≠ .job then m
    else if c.opcode = 0x0D16 ∨ c.opcode = 0x0D17 then migrateEnd m tag c io
    else if c.opcode = 0x0F40 then evrReadEnd m tag c io
    else jobEndData m tag c io

/-- HOST_READ_TIMEOUT (03 R486): a read whose completion has not come 50 µs after its issue failed. -/
def opReadTimeout (src : ReadSrc) (m : Mod) : Mod :=
  match src with
  | .entry q => if (readingOf m q).elim false (readLate m) then entryFailed q m else m
  | .capsule id =>
    if (tblFind m.cmq.ptr id).elim true (fun r => !readLate m r.issued) then m
    else opPointerRead id (.failed .completerAbort) m
  | .blob slot => blobTimeout slot m
  | .job tag a =>
    if (cmdOf m tag).elim true (fun c => decide (m.clk < c.readAt + readLimit)) then m else opJobEnd tag (.readFailed a) m

/-! ### The frame of every command -/

/-- READY fell: capsules still at the gate end unsealed with ST_RETRY_LATER (03 Table 3.2 step 1, 14 R368; log 58). -/
def noteReadyClear (old m : Mod) : Mod :=
  if old.devReady && !m.devReady then
    (m.cmq.cmds.filter (fun p => p.2.phase == .gate)).foldl (fun m p =>
      endCmd (updCmd m p.1 (fun c => { c with sealKey := none })) p.1 stRetryLater []) m
  else m

/-- A Squall while the core die ran: open epochs close; a flush under way follows it (15 R397, 17 R432). -/
def noteErase (old m : Mod) : Mod :=
  if !old.ssv.squalled && m.ssv.squalled && m.powered then
    let m1 := closeEpochs m
    if m1.jnl.flushing then { m1 with jnl := { m1.jnl with pfStat := m1.jnl.pfStat ||| 8 } } else m1
  else m

/-- A block's FAULT rose: the recorder's buffer is written out (17 R431). -/
def noteFault (old m : Mod) : Mod :=
  if blkList.any (fun b => !(blkOf old b).fault && (blkOf m b).fault) then evrFlush m else m

/-- What follows from an effect at the same instant; at its end whatever stood held is accepted where it may be, and free
tags go to the paths that wait. -/
def follow (old m : Mod) : Mod :=
  serveTags (acceptHeld (withdrawCores
    (noteReadmitted (noteRevert (noteServeLoss (noteProgress (noteFault old (noteErase old (noteReadyClear old (settle m))))))))))

/-- What time alone has brought by an instant: the rehash walker's buckets (06 R184), and the ends of public-key
commands past their deadlines (10 R282). The store of violations knows neither. -/
def elapse (m : Mod) : Mod := { expirePk (walk m) with acu := m.acu }

/-- A command of the table at an instant (log 1): time passes, its effect, what follows. Nothing but time moves the
clock; the store of violations is what `acu` makes of it, or empty once the core die was reset (02 R60). -/
def happens (t : Nat) (f : Mod → Mod) (acu : Mod → AcuState) (m : Mod) : Mod :=
  let m1 := atInstant t (fun m => follow m (f (elapse m))) m
  { m1 with clk := max m.clk t, acu := if m1.resets = m.resets then acu (elapse (advance t m)) else AcuState.reset }

/-- What a command comes to. -/
abbrev Result := Host.Outcome State Fault Refusal

/-- A command's effect on the block at its instant; the queue is left alone. -/
def acts (t : Nat) (f : Mod → Mod) (s : State) : Result := .next { s with mod := happens t f (fun m => m.acu) s.mod }

/-- What a row's access makes of the store of violations. -/
def rowAcu (row : Row) (m : Mod) : AcuState := (row m).elim m.acu (fun x => acuNext x.2 m)

/-- A command that is a register access. -/
def accesses (t : Nat) (row : Row) (s : State) : Result :=
  let f := fun (m : Mod) => (row m).elim m (fun x => regAccess x.1 x.2 m)
  .next { s with mod := happens t f (rowAcu row) s.mod }

/-- REGISTER_WRITE: an access whose free value is drawn first. -/
def accessesFree (t : Nat) (row : Row) (s : State) : Result :=
  let f := fun (m : Mod) => (row m).elim m (fun x => regAccess x.1 x.2 (afterChoice m))
  .next { s with mod := happens t f (rowAcu row) s.mod }

end Sys2Proof.Machine
end

