-- ==== Sys2Proof/Machine/ExecBulk.lean ====
section
/-! DEFINITION. Meanings of the commands of a family: bulk data, streams and digests (chapter 8). Each is its
operation at its instant (log 1). -/

namespace Sys2Proof.Machine

/-- AEAD_ENCRYPT (R222). -/
def execAeadEncrypt (t tag : Nat) (s : State) : Result := acts t (runOpcode 0x0801 (progJob false) tag) s

/-- AEAD_DECRYPT (R227). -/
def execAeadDecrypt (t tag : Nat) (s : State) : Result := acts t (runOpcode 0x0802 (progJob true) tag) s

/-- CIPHER_ENCRYPT (R222). -/
def execCipherEncrypt (t tag : Nat) (s : State) : Result := acts t (runOpcode 0x0803 (progJob false) tag) s

/-- CIPHER_DECRYPT (R222). -/
def execCipherDecrypt (t tag : Nat) (s : State) : Result := acts t (runOpcode 0x0804 (progJob true) tag) s

/-- STREAM_OPEN (R229). -/
def execStreamOpen (t tag : Nat) (s : State) : Result := acts t (runOpcode 0x0810 progStreamOpen tag) s

/-- STREAM_UPDATE (R230). -/
def execStreamUpdate (t tag : Nat) (s : State) : Result := acts t (runOpcode 0x0811 progStreamUpdate tag) s

/-- STREAM_FINAL (R230). -/
def execStreamFinal (t tag : Nat) (s : State) : Result := acts t (runOpcode 0x0812 progStreamFinal tag) s

/-- STREAM_ABORT (R229). -/
def execStreamAbort (t tag : Nat) (s : State) : Result := acts t (runOpcode 0x0813 progStreamAbort tag) s

/-- STREAM_IDLE_EXPIRY (R232). -/
def execStreamIdleExpiry (t ten c : Nat) (s : State) : Result := acts t (opStreamIdleExpiry ten c) s

/-- RANDOM_GET (R161). -/
def execRandomGet (t tag : Nat) (s : State) : Result := acts t (runOpcode 0x0B01 progRandom tag) s

/-- DIGEST (R235). -/
def execDigest (t tag : Nat) (s : State) : Result := acts t (runOpcode 0x0A01 progDigest tag) s

/-- HMAC_GENERATE (R235). -/
def execHmacGenerate (t tag : Nat) (s : State) : Result := acts t (runOpcode 0x0A02 (progHmac false) tag) s

/-- HMAC_VERIFY (R235). -/
def execHmacVerify (t tag : Nat) (s : State) : Result := acts t (runOpcode 0x0A03 (progHmac true) tag) s

/-- JOB_SLOT_GRANT (R223). -/
def execJobSlotGrant (t tag : Nat) (s : State) : Result := acts t (opJobSlotGrant tag) s

/-- JOB_SLOT_TIMEOUT (R223). -/
def execJobSlotTimeout (t tag : Nat) (s : State) : Result := acts t (opJobSlotTimeout tag) s

/-- JOB_END (R222). -/
def execJobEnd (t tag : Nat) (io : JobIo) (s : State) : Result := acts t (opJobEnd tag io) s

/-- JOB_TIMEOUT (R224). -/
def execJobTimeout (t : Nat) (j : JobStop) (s : State) : Result := acts t (opJobTimeout j.tag j.io j.segs) s

end Sys2Proof.Machine
end

