-- ==== Sys2Proof/Machine/ExecControl.lean ====
section
/-! DEFINITION. Meanings of the commands of a family: dual control, tenants and sessions (chapters 11 and 12). Each is
its operation at its instant (log 1). -/

namespace Sys2Proof.Machine

/-- QUORUM_OPEN (R304). -/
def execQuorumOpen (t tag : Nat) (s : State) : Result := acts t (runOpcode 0x0E01 progQuorumOpen tag) s

/-- QUORUM_APPROVE (R305). -/
def execQuorumApprove (t tag : Nat) (s : State) : Result := acts t (runOpcode 0x0E02 progQuorumApprove tag) s

/-- APPROVAL_VERIFY_DONE (R305). -/
def execApprovalVerifyDone (t id : Nat) (agree : Bool) (s : State) : Result := acts t (opApprovalVerifyDone id agree) s

/-- QUORUM_STATUS (R317). -/
def execQuorumStatus (t tag : Nat) (s : State) : Result := acts t (runOpcode 0x0E03 progQuorumStatus tag) s

/-- QUORUM_CLOSE (R308). -/
def execQuorumClose (t tag : Nat) (s : State) : Result := acts t (runOpcode 0x0E04 progQuorumClose tag) s

/-- CHALLENGE_WINDOW_END (R308). -/
def execChallengeWindowEnd (t dom id : Nat) (s : State) : Result := acts t (opChallengeWindowEnd dom id) s

/-- CUST_ENROL (R299). -/
def execCustEnrol (t tag : Nat) (s : State) : Result := acts t (runOpcode 0x0E10 progCustEnrol tag) s

/-- CUST_REMOVE (R303). -/
def execCustRemove (t tag : Nat) (s : State) : Result := acts t (runOpcode 0x0E11 progCustRemove tag) s

/-- POLICY_SET (R303). -/
def execPolicySet (t tag : Nat) (s : State) : Result := acts t (runOpcode 0x0E12 progPolicySet tag) s

/-- CUST_LIST (R317). -/
def execCustList (t tag : Nat) (s : State) : Result := acts t (runOpcode 0x0E13 progCustList tag) s

/-- CEREMONY_OPEN (R311). -/
def execCeremonyOpen (t tag : Nat) (s : State) : Result := acts t (runOpcode 0x0E20 progCeremonyOpen tag) s

/-- CEREMONY_COMPONENT (R312). -/
def execCeremonyComponent (t tag : Nat) (s : State) : Result := acts t (runOpcode 0x0E21 progCeremonyComponent tag) s

/-- CEREMONY_CLOSE (R313). -/
def execCeremonyClose (t tag : Nat) (s : State) : Result := acts t (runOpcode 0x0E22 progCeremonyClose tag) s

/-- CEREMONY_WINDOW_END (R313). -/
def execCeremonyWindowEnd (t id : Nat) (s : State) : Result := acts t (opCeremonyWindowEnd id) s

/-- MAINT_OPEN (R314). -/
def execMaintOpen (t tag : Nat) (s : State) : Result := acts t (runOpcode 0x0E30 progMaintOpen tag) s

/-- MAINT_CLOSE (R314). -/
def execMaintClose (t tag : Nat) (s : State) : Result := acts t (runOpcode 0x0E31 progMaintClose tag) s

/-- MAINT_WINDOW_END (R314). -/
def execMaintWindowEnd (t : Nat) (s : State) : Result := acts t opMaintWindowEnd s

/-- CUST_APPROVAL_FRAME (R305). -/
def execCustApprovalFrame (t : Nat) (f : CustFrame) (s : State) : Result := acts t (opCustApproval f) s

/-- CUST_COMPONENT_FRAME (R312). -/
def execCustComponentFrame (t : Nat) (f : CustFrame) (s : State) : Result := acts t (opCustComponent f) s

/-- CUST_HANDSHAKE_FRAME (R310). -/
def execCustHandshakeFrame (t : Nat) (f : CustFrame) (s : State) : Result := acts t (opCustHandshake f) s

/-- CUST_LIST_FRAME (R315). -/
def execCustListFrame (t : Nat) (f : CustFrame) (s : State) : Result := acts t (opCustList f) s

/-- CUST_ACK_FRAME (R316). -/
def execCustAckFrame (t : Nat) (f : CustFrame) (s : State) : Result := acts t (opCustAck f) s

/-- CUST_FRAME_RETRANSMIT (R316). -/
def execCustFrameRetransmit (t port seq : Nat) (s : State) : Result := acts t (opCustRetransmit port seq) s

/-- CUST_PORT_LINK_CHANGE (R319). -/
def execCustPortLinkChange (t port : Nat) (up : Bool) (s : State) : Result := acts t (opCustLink port up) s

/-- SESSION_HELLO (R330). -/
def execSessionHello (t tag : Nat) (s : State) : Result := acts t (runOpcode 0x0D01 progSessionHello tag) s

/-- SESSION_CLOSE (R332). -/
def execSessionClose (t tag : Nat) (s : State) : Result := acts t (runOpcode 0x0D02 progSessionClose tag) s

/-- SESSION_STATUS (R343). -/
def execSessionStatus (t tag : Nat) (s : State) : Result := acts t (runOpcode 0x0D03 progSessionStatus tag) s

/-- SESSION_HALF_OPEN_TIMEOUT (R331). -/
def execSessionHalfOpenTimeout (t ten sid : Nat) (s : State) : Result := acts t (opHalfOpenTimeout ten sid) s

/-- SESSION_MARK_SEND (R334). -/
def execSessionMarkSend (t ten sid : Nat) (s : State) : Result := acts t (opMarkSend ten sid) s

/-- SESSION_MARK_ACK (R334). -/
def execSessionMarkAck (t ten sid mark : Nat) (s : State) : Result := acts t (opMarkAck ten sid mark) s

/-- CRED_ENROL (R327). -/
def execCredEnrol (t tag : Nat) (s : State) : Result := acts t (runOpcode 0x0D04 progCredEnrol tag) s

/-- CRED_REMOVE (R327). -/
def execCredRemove (t tag : Nat) (s : State) : Result := acts t (runOpcode 0x0D05 progCredRemove tag) s

/-- TENANT_POLICY_SET (R328). -/
def execTenantPolicySet (t tag : Nat) (s : State) : Result := acts t (runOpcode 0x0D06 progTenantPolicySet tag) s

/-- TENANT_INFO (R343). -/
def execTenantInfo (t tag : Nat) (s : State) : Result := acts t (runOpcode 0x0D07 progTenantInfo tag) s

/-- TENANT_CREATE (R321). -/
def execTenantCreate (t tag : Nat) (s : State) : Result := acts t (runOpcode 0x0D10 progTenantCreate tag) s

/-- TENANT_CLOSE (R324). -/
def execTenantClose (t tag : Nat) (s : State) : Result := acts t (runOpcode 0x0D11 progTenantClose tag) s

/-- TENANT_REROOT (R323). -/
def execTenantReroot (t tag : Nat) (s : State) : Result := acts t (runOpcode 0x0D12 progTenantReroot tag) s

/-- REROOT_ARMING_LAPSE (R323). -/
def execRerootArmingLapse (t ten : Nat) (s : State) : Result := acts t (opArmingLapse ten) s

/-- TENANT_FREEZE (R337). -/
def execTenantFreeze (t tag : Nat) (s : State) : Result := acts t (runOpcode 0x0D13 progTenantFreeze tag) s

/-- TENANT_DRAIN_DONE (R337). -/
def execTenantDrainDone (t ten : Nat) (s : State) : Result := acts t (opDrainDone ten) s

/-- TENANT_RESUME (R341). -/
def execTenantResume (t tag : Nat) (s : State) : Result := acts t (runOpcode 0x0D14 progTenantResume tag) s

/-- MIGRATE_PREPARE (R340). -/
def execMigratePrepare (t tag : Nat) (s : State) : Result := acts t (runOpcode 0x0D15 progMigratePrepare tag) s

/-- MIGRATE_SAVE (R338). -/
def execMigrateSave (t tag : Nat) (s : State) : Result := acts t (runOpcode 0x0D16 progMigrateSave tag) s

/-- MIGRATE_RESTORE (R341). -/
def execMigrateRestore (t tag : Nat) (s : State) : Result := acts t (runOpcode 0x0D17 progMigrateRestore tag) s

/-- MIGRATION_OFFER_EXPIRY (R340). -/
def execMigrationOfferExpiry (t ten : Nat) (s : State) : Result := acts t (opOfferExpiry ten) s

end Sys2Proof.Machine
end

