-- ==== Sys2Proof/Machine/ExecGuard.lean ====
section
/-! DEFINITION. Meanings of the commands of a family: the security supervisor, life cycle, records, health and
supplies (chapters 15 to 19). Each is its operation at its instant (log 1). -/

namespace Sys2Proof.Machine

/-- SENSOR_TRIGGER (R388). -/
def execSensorTrigger (t src : Nat) (value : W32) (detail : Nat) (s : State) : Result := acts t (opSensorTrigger src value detail) s

/-- CELL_EVENT (R391). -/
def execCellEvent (t cell : Nat) (ev : CellEv) (s : State) : Result := acts t (opCellEvent cell ev) s

/-- SSV_POWER_STATE_CHANGE (R386). -/
def execSsvPowerStateChange (t : Nat) (p : SsvPower) (s : State) : Result := acts t (opSsvPower p) s

/-- SSV_COLD_START (R387). -/
def execSsvColdStart (t : Nat) (s : State) : Result := acts t opColdStart s

/-- DETECTOR_SELFTEST (R392). -/
def execDetectorSelftest (t src : Nat) (pass : Bool) (s : State) : Result := acts t (opDetectorSelftest src pass) s

/-- SSV_RECORD_COPY (R399). -/
def execSsvRecordCopy (t : Nat) (s : State) : Result := acts t opRecordCopy s

/-- SSV_READMIT (R401). -/
def execSsvReadmit (t tag : Nat) (s : State) : Result := acts t (runOpcode 0x0F10 progSsvReadmit tag) s

/-- SSV_RESTART (R408). -/
def execSsvRestart (t tag : Nat) (s : State) : Result := acts t (runOpcode 0x0F11 progSsvRestart tag) s

/-- SSV_RELEASE (R402). -/
def execSsvRelease (t tag : Nat) (s : State) : Result := acts t (runOpcode 0x0F14 progSsvRelease tag) s

/-- CAL_WRITE (R406). -/
def execCalWrite (t tag : Nat) (s : State) : Result := acts t (runOpcode 0x0F12 progCalWrite tag) s

/-- CAL_READ (R405). -/
def execCalRead (t tag : Nat) (s : State) : Result := acts t (runOpcode 0x0F13 progCalRead tag) s

/-- IMG_ACCEPT (R125). -/
def execImgAccept (t tag : Nat) (s : State) : Result := acts t (runOpcode 0x0F50 progImgAccept tag) s

/-- LC_TRANSITION_RESET (R417). -/
def execLcTransitionReset (t : Nat) (s : State) : Result := acts t opTransitionReset s

/-- TAP_INSTRUCTION (R424). -/
def execTapInstruction (t : Nat) (ir : TapIr) (s : State) : Result := acts t (opTapInstruction ir) s

/-- EVR_EPOCH_END (R429). -/
def execEvrEpochEnd (t ch : Nat) (s : State) : Result := acts t (opEpochEnd ch) s

/-- EVR_READ (R433). -/
def execEvrRead (t tag : Nat) (s : State) : Result := acts t (runOpcode 0x0F40 progEvrRead tag) s

/-- EVR_CLEAR (R433). -/
def execEvrClear (t tag : Nat) (s : State) : Result := acts t (runOpcode 0x0F41 progEvrClear tag) s

/-- KAT_RUN (R440). -/
def execKatRun (t : Nat) (u : KatUnit) (pass : Bool) (s : State) : Result := acts t (opKatRun u pass) s

/-- SRAM_SCRUB (R441). -/
def execSramScrub (t : Nat) (b : Blk) (addr : Nat) (e : EccErr) (s : State) : Result := acts t (opSramScrub b addr e) s

/-- HLT_EPOCH_END (R441). -/
def execHltEpochEnd (t : Nat) (s : State) : Result := acts t opHltEpochEnd s

/-- HEALTH_REPORT_PUBLISH (R442). -/
def execHealthReportPublish (t : Nat) (s : State) : Result := acts t opHealthCadence s

/-- I3C_ADDRESS_ASSIGN (R467). -/
def execI3cAddressAssign (t addr : Nat) (s : State) : Result := acts t (opI3cAssign addr) s

/-- SUPPLIES_VALID (R448). -/
def execSuppliesValid (t : Nat) (s : State) : Result := acts t opSuppliesValid s

/-- MODULE_START (R469). -/
def execModuleStart (t : Nat) (o : StartOutcome) (s : State) : Result := acts t (opModuleStart o) s

/-- HOLDUP_CHARGED (R449). -/
def execHoldupCharged (t mJ : Nat) (s : State) : Result := acts t (opHoldupCharged mJ) s

/-- MOD_RESET_ASSERT (R461). -/
def execModResetAssert (t : Nat) (s : State) : Result := acts t opModResetAssert s

/-- MOD_RESET_RELEASE (R461). -/
def execModResetRelease (t : Nat) (s : State) : Result := acts t opModResetRelease s

/-- POWER_FAIL_TRIGGER (R463). -/
def execPowerFailTrigger (t src : Nat) (s : State) : Result := acts t (opPowerFail src) s

/-- FLUSH_COMPLETE (R477). -/
def execFlushComplete (t us : Nat) (supplies torn : Bool) (s : State) : Result := acts t (opFlushComplete us supplies torn) s

/-- HOLDUP_LOW (R478). -/
def execHoldupLow (t mJ : Nat) (s : State) : Result := acts t (opHoldupLow mJ) s

/-- THERMAL_TRIP (R466). -/
def execThermalTrip (t : Nat) (s : State) : Result := acts t opThermalTrip s

/-- STORE_RECLAIM (R474). -/
def execStoreReclaim (t n : Nat) (s : State) : Result := acts t (opStoreReclaim n) s

/-- TABLE_CHECKPOINT (R476). -/
def execTableCheckpoint (t : Nat) (s : State) : Result := acts t opTableCheckpoint s

/-- EVR_LOG_WRITE_DONE (R431). -/
def execEvrLogWriteDone (t n : Nat) (s : State) : Result := acts t (opLogWriteDone n) s

end Sys2Proof.Machine
end

