-- ==== Sys2Proof/Machine/ExecHost.lean ====
section
/-! DEFINITION. Meanings of the commands of a family: commands that arrive, their queues and FIFOs, and the ports
(chapter 3). Each is its operation at its instant (log 1). -/

namespace Sys2Proof.Machine

/-- SQ_ENTRY_FETCH (R70). -/
def execSqEntryFetch (t : Nat) (q : QId) (entry : Bytes) (s : State) : Result := acts t (opSqEntry q entry) s

/-- SQ_ENTRY_READ_FAIL (R71). -/
def execSqEntryReadFail (t : Nat) (q : QId) (_k : ReadFail) (s : State) : Result := acts t (opEntryFail q) s

/-- POINTER_CAPSULE_READ (R71). -/
def execPointerCapsuleRead (t id : Nat) (r : ReadResult) (s : State) : Result := acts t (opPointerRead id r) s

/-- HOST_READ_TIMEOUT (R486). -/
def execHostReadTimeout (t : Nat) (src : ReadSrc) (s : State) : Result := acts t (opReadTimeout src) s

/-- FIFO_COMMAND_TAKE (R77). -/
def execFifoCommandTake (t ten : Nat) (s : State) : Result := acts t (opFifoTake ten) s

/-- NCT_DATA_RX (R89). -/
def execNctDataRx (t : Nat) (f : NetFrame) (s : State) : Result := acts t (opNctDataRx f) s

/-- NCT_ACK_RX (R91). -/
def execNctAckRx (t : Nat) (f : NetFrame) (s : State) : Result := acts t (opNctAckRx f) s

/-- NCT_ACK_DELAY_EXPIRY (R91). -/
def execNctAckDelayExpiry (t ten sid : Nat) (s : State) : Result := acts t (opAckDelay ten sid) s

/-- NCT_RETRANSMIT (R91). -/
def execNctRetransmit (t ten sid dsn : Nat) (s : State) : Result := acts t (opNctRetransmit ten sid dsn) s

/-- NCT_COALESCE_EXPIRY (R92). -/
def execNctCoalesceExpiry (t ten sid : Nat) (s : State) : Result := acts t (opNctCoalesce ten sid) s

/-- ARP_REQUEST_RX (R93). -/
def execArpRequestRx (t : Nat) (f : NetFrame) (s : State) : Result := acts t (opArpRequest f) s

/-- NEIGHBOR_SOLICITATION_RX (R93). -/
def execNeighborSolicitationRx (t : Nat) (f : NetFrame) (s : State) : Result := acts t (opNeighborSol f) s

/-- ICMP_ECHO_REQUEST_RX (R93). -/
def execIcmpEchoRequestRx (t : Nat) (f : NetFrame) (s : State) : Result := acts t (opEchoRequest f) s

/-- PCIE_ATOMIC_IO_REQUEST (R33). -/
def execPcieAtomicIoRequest (t : Nat) (p : Port) (_addr : Nat) (s : State) : Result := acts t (opAtomicIo p) s

/-- PCIE_CONFIG_REQUEST (R470). -/
def execPcieConfigRequest (t : Nat) (f : PcieFn) (write : Bool) (reg : Nat) (v : W32) (s : State) : Result :=
  acts t (opConfigRequest f.port f.fn write reg v) s

/-- PERST_ASSERT (R462). -/
def execPerstAssert (t : Nat) (p : Port) (s : State) : Result := acts t (opPerstAssert p) s

/-- PERST_RELEASE (R462). -/
def execPerstRelease (t : Nat) (p : Port) (s : State) : Result := acts t (opPerstRelease p) s

/-- PORT_LINK_UP (R176). -/
def execPortLinkUp (t : Nat) (p : Port) (width gen : Nat) (s : State) : Result := acts t (opLinkUp p width gen) s

/-- PORT_LINK_LOSS (R176). -/
def execPortLinkLoss (t : Nat) (p : Port) (s : State) : Result := acts t (opLinkLoss p) s

/-- NET_PORT_LINK_CHANGE (R97). -/
def execNetPortLinkChange (t n : Nat) (link fec : Bool) (s : State) : Result := acts t (opNetLink n link fec) s

/-- REQID_ENTRY_EXPIRY (R82). -/
def execReqidEntryExpiry (t key : Nat) (reqId : W64) (s : State) : Result := acts t (opReqIdExpiry key reqId) s

end Sys2Proof.Machine
end

