-- ==== Sys2Proof/Machine/ExecKeys.lean ====
section
/-! DEFINITION. Meanings of the commands of a family: keys, the key cache and the blob store (chapters 5 and 6). Each
is its operation at its instant (log 1). -/

namespace Sys2Proof.Machine

/-- KEY_GENERATE (R266). -/
def execKeyGenerate (t tag : Nat) (s : State) : Result := acts t (runOpcode 0x0101 progKeyGenerate tag) s

/-- KEY_IMPORT_BLOCK (R148). -/
def execKeyImportBlock (t tag : Nat) (s : State) : Result := acts t (runOpcode 0x0102 progKeyImportBlock tag) s

/-- KEY_EXPORT_BLOCK (R156). -/
def execKeyExportBlock (t tag : Nat) (s : State) : Result := acts t (runOpcode 0x0103 progKeyExport tag) s

/-- KEY_IMPORT_PUBLIC (R155). -/
def execKeyImportPublic (t tag : Nat) (s : State) : Result := acts t (runOpcode 0x0104 progKeyImportPublic tag) s

/-- KEY_DERIVE (R267). -/
def execKeyDerive (t tag : Nat) (s : State) : Result := acts t (runOpcode 0x0105 progKeyDerive tag) s

/-- KEY_ROTATE (R154). -/
def execKeyRotate (t tag : Nat) (s : State) : Result := acts t (runOpcode 0x0106 progKeyRotate tag) s

/-- KEY_RETIRE (R151). -/
def execKeyRetire (t tag : Nat) (s : State) : Result := acts t (runOpcode 0x0107 progKeyRetire tag) s

/-- KEY_DESTROY (R152). -/
def execKeyDestroy (t tag : Nat) (s : State) : Result := acts t (runOpcode 0x0108 progKeyDestroy tag) s

/-- KEY_INFO (R268). -/
def execKeyInfo (t tag : Nat) (s : State) : Result := acts t (runOpcode 0x0109 progKeyInfo tag) s

/-- WRAP_ADVANCE (R144). -/
def execWrapAdvance (t tag : Nat) (s : State) : Result := acts t (runOpcode 0x010A progWrapAdvance tag) s

/-- BLOB_READ_COMPLETE (R174). -/
def execBlobReadComplete (t slot : Nat) (r : ReadResult) (s : State) : Result := acts t (opBlobRead slot r) s

/-- BLOB_READ_RETRY (R174). -/
def execBlobReadRetry (t slot : Nat) (s : State) : Result := acts t (opBlobRetry slot) s

/-- BLOB_FETCH_DEADLINE (R174). -/
def execBlobFetchDeadline (t slot : Nat) (s : State) : Result := acts t (opBlobDeadline slot) s

/-- LINE_REMASK (R178). -/
def execLineRemask (t line : Nat) (s : State) : Result := acts t (opLineRemask line) s

/-- AGE_EVICT_VISIT (R187). -/
def execAgeEvictVisit (t ten : Nat) (s : State) : Result := acts t (opAgeEvict ten) s

/-- LINE_ECC_ERROR (R179). -/
def execLineEccError (t line : Nat) (s : State) : Result := acts t (opLineEcc line) s

/-- REHASH_DONE (R184). -/
def execRehashDone (t : Nat) (s : State) : Result := acts t opRehashDone s

/-- RNG_HEALTH_TEST_FAIL (R160). -/
def execRngHealthTestFail (t : Nat) (r : SourceRuns) (s : State) : Result :=
  acts t (opRngHealthTest r.src r.runs) s

/-- DRBG_RESEED (R161). -/
def execDrbgReseed (t d : Nat) (s : State) : Result := acts t (opDrbgReseed d) s

/-- MASK_SEED_RENEW (R163). -/
def execMaskSeedRenew (t pipe : Nat) (s : State) : Result := acts t (opMaskSeedRenew pipe) s

end Sys2Proof.Machine
end

