-- ==== Sys2Proof/Machine/ExecPayment.lean ====
section
/-! DEFINITION. Meanings of the commands of a family: payment commands (chapter 9). Each is its operation at its
instant (log 1). -/

namespace Sys2Proof.Machine

/-- PIN_TRANSLATE (R248). -/
def execPinTranslate (t tag : Nat) (s : State) : Result := acts t (runOpcode 0x0201 (progPinTranslate false) tag) s

/-- PIN_TRANSLATE_ROUTED (R248). -/
def execPinTranslateRouted (t tag : Nat) (s : State) : Result := acts t (runOpcode 0x0202 (progPinTranslate true) tag) s

/-- PIN_VERIFY_OFFSET (R249). -/
def execPinVerifyOffset (t tag : Nat) (s : State) : Result := acts t (runOpcode 0x0203 progPinVerifyOffset tag) s

/-- PIN_VERIFY_REFERENCE (R250). -/
def execPinVerifyReference (t tag : Nat) (s : State) : Result := acts t (runOpcode 0x0204 progPinVerifyRef tag) s

/-- PIN_CHANGE (R251). -/
def execPinChange (t tag : Nat) (s : State) : Result := acts t (runOpcode 0x0205 progPinChange tag) s

/-- PIN_OFFSET_GENERATE (R249). -/
def execPinOffsetGenerate (t tag : Nat) (s : State) : Result := acts t (runOpcode 0x0206 progPinOffset tag) s

/-- PIN_BUDGET_SET (R252). -/
def execPinBudgetSet (t tag : Nat) (s : State) : Result := acts t (runOpcode 0x0210 progBudgetSet tag) s

/-- PIN_BUDGET_GET (R256). -/
def execPinBudgetGet (t tag : Nat) (s : State) : Result := acts t (runOpcode 0x0211 progBudgetGet tag) s

/-- DUKPT_PIN_TRANSLATE (R260). -/
def execDukptPinTranslate (t tag : Nat) (s : State) : Result := acts t (runOpcode 0x0301 (progDukptTranslate false) tag) s

/-- DUKPT_PIN_TRANSLATE_ROUTED (R260). -/
def execDukptPinTranslateRouted (t tag : Nat) (s : State) : Result := acts t (runOpcode 0x0302 (progDukptTranslate true) tag) s

/-- DUKPT_MAC_VERIFY (R260). -/
def execDukptMacVerify (t tag : Nat) (s : State) : Result := acts t (runOpcode 0x0303 progDukptMac tag) s

/-- DUKPT_IK_EXPORT (R260). -/
def execDukptIkExport (t tag : Nat) (s : State) : Result := acts t (runOpcode 0x0310 progDukptExport tag) s

/-- MAC_GENERATE (R261). -/
def execMacGenerate (t tag : Nat) (s : State) : Result := acts t (runOpcode 0x0401 progMacGenerate tag) s

/-- MAC_VERIFY (R261). -/
def execMacVerify (t tag : Nat) (s : State) : Result := acts t (runOpcode 0x0402 progMacVerify tag) s

/-- MAC_VERIFY_ROUTED (R261). -/
def execMacVerifyRouted (t tag : Nat) (s : State) : Result := acts t (runOpcode 0x0403 progMacVerifyRouted tag) s

/-- EMV_ARQC_VERIFY (R263). -/
def execEmvArqcVerify (t tag : Nat) (s : State) : Result := acts t (runOpcode 0x0501 progEmvArqc tag) s

/-- EMV_SCRIPT_MAC (R263). -/
def execEmvScriptMac (t tag : Nat) (s : State) : Result := acts t (runOpcode 0x0502 progEmvMac tag) s

/-- EMV_SCRIPT_ENCRYPT (R263). -/
def execEmvScriptEncrypt (t tag : Nat) (s : State) : Result := acts t (runOpcode 0x0503 progEmvEncrypt tag) s

/-- CSC_GENERATE (R264). -/
def execCscGenerate (t tag : Nat) (s : State) : Result := acts t (runOpcode 0x0601 (progCsc false) tag) s

/-- CSC_VERIFY (R264). -/
def execCscVerify (t tag : Nat) (s : State) : Result := acts t (runOpcode 0x0602 (progCsc true) tag) s

/-- TOKENISE (R265). -/
def execTokenise (t tag : Nat) (s : State) : Result := acts t (runOpcode 0x0701 (progToken false) tag) s

/-- DETOKENISE (R265). -/
def execDetokenise (t tag : Nat) (s : State) : Result := acts t (runOpcode 0x0702 (progToken true) tag) s

end Sys2Proof.Machine
end

