-- ==== Sys2Proof/Machine/ExecPublic.lean ====
section
/-! DEFINITION. Meanings of the commands of a family: the public-key engine and the route table (chapters 10 and 7).
Each is its operation at its instant (log 1). -/

namespace Sys2Proof.Machine

/-- PK_SIGN (R289). -/
def execPkSign (t tag : Nat) (s : State) : Result := acts t (runOpcode 0x0901 progPk tag) s

/-- PK_VERIFY (R281). -/
def execPkVerify (t tag : Nat) (s : State) : Result := acts t (runOpcode 0x0902 progPk tag) s

/-- PK_ENCRYPT (R291). -/
def execPkEncrypt (t tag : Nat) (s : State) : Result := acts t (runOpcode 0x0903 progPk tag) s

/-- PK_DECRYPT (R291). -/
def execPkDecrypt (t tag : Nat) (s : State) : Result := acts t (runOpcode 0x0904 progPk tag) s

/-- PK_KEYGEN (R292). -/
def execPkKeygen (t tag : Nat) (s : State) : Result := acts t (runOpcode 0x0905 progPk tag) s

/-- PK_AGREE (R293). -/
def execPkAgree (t tag : Nat) (s : State) : Result := acts t (runOpcode 0x0906 progPk tag) s

/-- PK_AGREE_CHECK (R291). -/
def execPkAgreeCheck (t tag : Nat) (s : State) : Result := acts t (runOpcode 0x0907 progPk tag) s

/-- PK_CANCEL (R294). -/
def execPkCancel (t tag : Nat) (s : State) : Result := acts t (runOpcode 0x0910 progPkCancel tag) s

/-- PKE_ENGINE_GRANT (R283). -/
def execPkeEngineGrant (t : Nat) (e : EngLoad) (s : State) : Result := acts t (opEngineGrant e.eng e.load) s

/-- PK_DISPATCH_DEADLINE (R282). -/
def execPkDispatchDeadline (t tag : Nat) (s : State) : Result := acts t (opDispatchDeadline tag) s

/-- PK_LATEST_START_EXPIRY (R282). -/
def execPkLatestStartExpiry (t tag : Nat) (s : State) : Result := acts t (opLatestStart tag) s

/-- PKE_OPERATION_COMPLETE (R285). -/
def execPkeOperationComplete (t eng : Nat) (fault : Bool) (s : State) : Result := acts t (opOperationComplete eng fault) s

/-- PKE_ZEROING_DONE (R285). -/
def execPkeZeroingDone (t eng : Nat) (s : State) : Result := acts t (opZeroingDone eng) s

/-- PKE_ENGINE_TEST (R284). -/
def execPkeEngineTest (t eng : Nat) (pass : Bool) (s : State) : Result := acts t (opEngineTest eng pass) s

/-- RT_RECORD_SET (R190). -/
def execRtRecordSet (t tag : Nat) (s : State) : Result := acts t (runOpcode 0x0C01 progRecordSet tag) s

/-- RT_ROUTE_UPDATE (R202). -/
def execRtRouteUpdate (t tag : Nat) (s : State) : Result := acts t (runOpcode 0x0C02 progRouteUpdate tag) s

/-- RT_COMMIT (R199). -/
def execRtCommit (t tag : Nat) (s : State) : Result := acts t (runOpcode 0x0C03 progRtCommit tag) s

/-- RT_ABORT (R197). -/
def execRtAbort (t tag : Nat) (s : State) : Result := acts t (runOpcode 0x0C04 progRtAbort tag) s

/-- RT_LOOKUP (R203). -/
def execRtLookup (t tag : Nat) (s : State) : Result := acts t (runOpcode 0x0C05 progRtLookup tag) s

/-- RT_STATUS (R201). -/
def execRtStatus (t tag : Nat) (s : State) : Result := acts t (runOpcode 0x0C06 progRtStatus tag) s

/-- RT_COMPACT (R207). -/
def execRtCompact (t tag : Nat) (s : State) : Result := acts t (runOpcode 0x0C10 progRtCompact tag) s

/-- COMPACTION_DONE (R207). -/
def execCompactionDone (t : Nat) (s : State) : Result := acts t opCompactionDone s

/-- RTB_OLD_SET_FREE (R199). -/
def execRtbOldSetFree (t ten : Nat) (s : State) : Result := acts t (opOldSetFree ten) s

end Sys2Proof.Machine
end

