-- ==== Sys2Proof/Machine/ExecRegs.lean ====
section
/-! DEFINITION. Meanings of the commands of a family: register accesses (chapters 2 and 3). Each is its operation at
its instant (log 1). -/

namespace Sys2Proof.Machine

/-- REGISTER_WRITE (R55). -/
def execRegisterWrite (t : Nat) (a : Access) (s : State) : Result := accessesFree t (rowRegister a) s

/-- BLK_QUIESCE (R36). -/
def execBlkQuiesce (t : Nat) (ini : Initiator) (b : Blk) (v : Bool) (s : State) : Result := accesses t (rowBlkQuiesce ini b v) s

/-- BLK_ENABLE (R36). -/
def execBlkEnable (t : Nat) (ini : Initiator) (b : Blk) (v : Bool) (s : State) : Result := accesses t (rowBlkEnable ini b v) s

/-- SELFTEST_REQ (R35). -/
def execSelftestReq (t : Nat) (ini : Initiator) (b : Blk) (s : State) : Result := accesses t (rowSelftestReq ini b) s

/-- INT_STAT_CLEAR (R38). -/
def execIntStatClear (t : Nat) (ini : Initiator) (b : Blk) (v : W32) (s : State) : Result := accesses t (rowIntStatClear ini b v) s

/-- INT_TEST (R35). -/
def execIntTest (t : Nat) (ini : Initiator) (b : Blk) (v : W32) (s : State) : Result := accesses t (rowIntTest ini b v) s

/-- ACU_VIO_NEXT (R60). -/
def execAcuVioNext (t : Nat) (ini : Initiator) (s : State) : Result := accesses t (rowVioNext ini) s

/-- QP_SQ_TAIL_DOORBELL (R75). -/
def execQpSqTailDoorbell (t : Nat) (ini : Initiator) (ten q : Nat) (v : W32) (s : State) : Result := accesses t (rowQpSqTail ini ten q v) s

/-- QP_CQ_HEAD_DOORBELL (R74). -/
def execQpCqHeadDoorbell (t : Nat) (ini : Initiator) (ten q : Nat) (v : W32) (s : State) : Result := accesses t (rowQpCqHead ini ten q v) s

/-- QP_ENABLE (R73). -/
def execQpEnable (t : Nat) (ini : Initiator) (ten q : Nat) (intEn : Bool) (s : State) : Result := accesses t (rowQpEnable ini ten q intEn) s

/-- QP_DISABLE (R73). -/
def execQpDisable (t : Nat) (ini : Initiator) (ten q : Nat) (intEn : Bool) (s : State) : Result :=
  accesses t (rowQpDisable ini ten q intEn) s

/-- QP_SQ_BASE_WRITE (R48). -/
def execQpSqBaseWrite (t : Nat) (ini : Initiator) (ten q : Nat) (hi : Bool) (v : W32) (s : State) : Result :=
  accesses t (rowQpSqBase ini ten q hi v) s

/-- ADMQ_SQ_TAIL_DOORBELL (R487). -/
def execAdmqSqTailDoorbell (t : Nat) (p : Port) (v : W32) (s : State) : Result := accesses t (rowAdmqSqTail p v) s

/-- ADMQ_CQ_HEAD_DOORBELL (R487). -/
def execAdmqCqHeadDoorbell (t : Nat) (p : Port) (v : W32) (s : State) : Result := accesses t (rowAdmqCqHead p v) s

/-- ADMQ_SQ_SIZE_WRITE (R487). -/
def execAdmqSqSizeWrite (t : Nat) (p : Port) (v : W32) (s : State) : Result := accesses t (rowAdmqSqSize p v) s

/-- ADMQ_CQ_SIZE_WRITE (R487). -/
def execAdmqCqSizeWrite (t : Nat) (p : Port) (v : W32) (s : State) : Result := accesses t (rowAdmqCqSize p v) s

/-- CMD_PUSH (R78). -/
def execCmdPush (t : Nat) (ini : Initiator) (ten : Nat) (w : W64) (s : State) : Result := accesses t (rowCmdPush ini ten w) s

/-- CPL_POP (R79). -/
def execCplPop (t : Nat) (ini : Initiator) (ten : Nat) (s : State) : Result := accesses t (rowCplPop ini ten) s

/-- CPL_FLUSH (R80). -/
def execCplFlush (t : Nat) (ini : Initiator) (ten : Nat) (s : State) : Result := accesses t (rowCplFlush ini ten) s

/-- CMD_DROP (R80). -/
def execCmdDrop (t : Nat) (ini : Initiator) (ten : Nat) (s : State) : Result := accesses t (rowCmdDrop ini ten) s

/-- SCH_AGE_WRITE (R104). -/
def execSchAgeWrite (t : Nat) (ini : Initiator) (v : W32) (s : State) : Result := accesses t (rowSchAge ini v) s

/-- REHASH_START (R183). -/
def execRehashStart (t : Nat) (ini : Initiator) (s : State) : Result := accesses t (rowRehashStart ini) s

/-- BSX_WIN_WRITE (R169). -/
def execBsxWinWrite (t : Nat) (ini : Initiator) (reg : WinReg) (v : W64) (s : State) : Result := accesses t (rowBsxWin ini reg v) s

/-- VF_BIND_WRITE (R325). -/
def execVfBindWrite (t : Nat) (ini : Initiator) (p : Port) (v : W32) (s : State) : Result := accesses t (rowVfBind ini p v) s

/-- CMQ_TCFG_WRITE (R96). -/
def execCmqTcfgWrite (t : Nat) (ini : Initiator) (v : W32) (s : State) : Result := accesses t (rowTcfg ini v) s

/-- SSV_REC_CLEAR (R399). -/
def execSsvRecClear (t : Nat) (ini : Initiator) (v : W32) (s : State) : Result := accesses t (rowRecClear ini v) s

/-- SSV_LATCH_CLEAR (R393). -/
def execSsvLatchClear (t : Nat) (ini : Initiator) (word : Nat) (v still : W32) (s : State) : Result :=
  accesses t (rowLatchClear ini word v still) s

/-- LC_TRANSITION (R417). -/
def execLcTransition (t : Nat) (ini : Initiator) (ok agree : Bool) (s : State) : Result := accesses t (rowLccCmd ini 1 ok agree) s

/-- DBG_CHALLENGE (R421). -/
def execDbgChallenge (t : Nat) (ini : Initiator) (s : State) : Result := accesses t (rowLccCmd ini 2 true true) s

/-- DEBUG_RESPONSE (R422). -/
def execDebugResponse (t : Nat) (ini : Initiator) (agree : Bool) (s : State) : Result := accesses t (rowLccCmd ini 3 true agree) s

/-- DBG_CLOSE (R423). -/
def execDbgClose (t : Nat) (ini : Initiator) (s : State) : Result := accesses t (rowLccCmd ini 0x100 true true) s

/-- EVR_FLUSH (R431). -/
def execEvrFlush (t : Nat) (ini : Initiator) (s : State) : Result := accesses t (rowEvrFlush ini) s

/-- EVR_CAPPLY (R430). -/
def execEvrCapply (t : Nat) (ini : Initiator) (s : State) : Result := accesses t (rowEvrCapply ini) s

/-- EVR_CTL_EN_WRITE (R430). -/
def execEvrCtlEnWrite (t : Nat) (ini : Initiator) (v : Bool) (s : State) : Result := accesses t (rowEvrCtlEn ini v) s

/-- PMC_SNAP (R438). -/
def execPmcSnap (t : Nat) (ini : Initiator) (s : State) : Result := accesses t (rowPmcSnap ini) s

/-- PMC_FREEZE (R434). -/
def execPmcFreeze (t : Nat) (ini : Initiator) (v : Bool) (s : State) : Result := accesses t (rowPmcFreeze ini v) s

/-- PMC_COUNTER_WRITE (R434). -/
def execPmcCounterWrite (t : Nat) (ini : Initiator) (c : Nat) (v : W64) (s : State) : Result := accesses t (rowPmcCounter ini c v) s

/-- RNG_RAW_READ (R167). -/
def execRngRawRead (t : Nat) (ini : Initiator) (s : State) : Result := accesses t (rowRngRaw ini) s

/-- TWIN_DIV_LOG_READ (R374). -/
def execTwinDivLogRead (t : Nat) (ini : Initiator) (s : State) : Result := accesses t (rowDivLogRead ini) s

end Sys2Proof.Machine
end

