-- ==== Sys2Proof/Machine/ExecSched.lean ====
section
/-! DEFINITION. Meanings of the commands of a family: the scheduler and its timers (chapter 4). Each is its operation
at its instant (log 1). -/

namespace Sys2Proof.Machine

/-- GETWORK (R113). -/
def execGetwork (t core ctx : Nat) (s : State) : Result := acts t (opGetwork core ctx) s

/-- TAG_AGE_PROMOTE (R101). -/
def execTagAgePromote (t tag : Nat) (s : State) : Result := acts t (opAgePromote tag) s

/-- YIELD (R117). -/
def execYieldTag (t tag : Nat) (s : State) : Result := acts t (opYield tag) s

/-- CYCLE_BUDGET_EXHAUSTED (R117). -/
def execCycleBudgetExhausted (t tag : Nat) (s : State) : Result := acts t (opBudgetExhausted tag) s

/-- KEY_SCHEDULE_TIMER (R151). -/
def execKeyScheduleTimer (t : Nat) (s : State) : Result := acts t opKeyTimer s

/-- BUDGET_ROLLOVER_TIMER (R111). -/
def execBudgetRolloverTimer (t : Nat) (s : State) : Result := acts t opBudgetRollover s

/-- BUDGET_SNAPSHOT (R254). -/
def execBudgetSnapshot (t : Nat) (s : State) : Result := acts t opBudgetSnapshot s

end Sys2Proof.Machine
end

