-- ==== Sys2Proof/Machine/ExecTime.lean ====
section
/-! DEFINITION. Meanings of the commands of a family: external time (chapter 13). Each is its operation at its instant
(log 1). -/

namespace Sys2Proof.Machine

/-- PTP_SYNC_RX (R347). -/
def execPtpSyncRx (t : Nat) (m : PtpMsg) (s : State) : Result := acts t (opPtpSync m) s

/-- PTP_ANNOUNCE_RX (R347). -/
def execPtpAnnounceRx (t : Nat) (m : PtpMsg) (s : State) : Result := acts t (opPtpAnnounce m) s

/-- PDELAY_REQ_RX (R347). -/
def execPdelayReqRx (t : Nat) (m : PtpMsg) (s : State) : Result := acts t (opPdelayReq m) s

/-- DELAY_REQ_SEND (R347). -/
def execDelayReqSend (t e : Nat) (s : State) : Result := acts t (opDelayReq e) s

/-- DELAY_RESP_RX (R347). -/
def execDelayRespRx (t : Nat) (m : PtpMsg) (s : State) : Result := acts t (opDelayResp m) s

/-- PPS_EDGE (R346). -/
def execPpsEdge (t : Nat) (refOk : Bool) (s : State) : Result := acts t (opPpsEdge refOk) s

/-- TOD_MESSAGE_RX (R348). -/
def execTodMessageRx (t : Nat) (msg : Bytes) (s : State) : Result := acts t (opTodMessage msg) s

/-- TIME_SOURCE_LOST (R346). -/
def execTimeSourceLost (t : Nat) (src : TimeSrc) (s : State) : Result := acts t (opSourceLost src) s

/-- HOLDOVER_EXPIRED (R352). -/
def execHoldoverExpired (t : Nat) (s : State) : Result := acts t opHoldoverExpired s

/-- SOURCE_REJECT_END (R355). -/
def execSourceRejectEnd (t : Nat) (src : TimeSrc) (s : State) : Result := acts t (opRejectEnd src) s

/-- TIME_CONFIG_SET (R358). -/
def execTimeConfigSet (t tag : Nat) (s : State) : Result := acts t (runOpcode 0x0F20 progTimeConfigSet tag) s

/-- TIME_ACCEPT (R358). -/
def execTimeAccept (t tag : Nat) (s : State) : Result := acts t (runOpcode 0x0F21 progTimeAccept tag) s

end Sys2Proof.Machine
end

