-- ==== Sys2Proof/Machine/ExecTwin.lean ====
section
/-! DEFINITION. Meanings of the commands of a family: twin operation and the journal (chapters 14 and 1). Each is its
operation at its instant (log 1). -/

namespace Sys2Proof.Machine

/-- TWIN_PAIR (R362). -/
def execTwinPair (t tag : Nat) (s : State) : Result := acts t (runOpcode 0x1001 progTwinPair tag) s

/-- TWIN_PAIR_TIMEOUT (R362). -/
def execTwinPairTimeout (t tag : Nat) (s : State) : Result := acts t (opPairTimeout tag) s

/-- TWIN_UNPAIR (R382). -/
def execTwinUnpair (t tag : Nat) (s : State) : Result := acts t (runOpcode 0x1002 progTwinUnpair tag) s

/-- TWIN_STATUS (R383). -/
def execTwinStatus (t tag : Nat) (s : State) : Result := acts t (runOpcode 0x1003 progTwinStatus tag) s

/-- TWIN_PROMOTE (R376). -/
def execTwinPromote (t tag : Nat) (s : State) : Result := acts t (runOpcode 0x1004 progTwinPromote tag) s

/-- TWIN_HANDOVER (R379). -/
def execTwinHandover (t tag : Nat) (s : State) : Result := acts t (runOpcode 0x1005 progTwinHandover tag) s

/-- TWIN_REVERT_SET (R379). -/
def execTwinRevertSet (t tag : Nat) (s : State) : Result := acts t (runOpcode 0x1006 progTwinRevertSet tag) s

/-- TWIN_RESTART (R380). -/
def execTwinRestart (t tag : Nat) (s : State) : Result := acts t (runOpcode 0x1007 progTwinRestart tag) s

/-- LINK_HANDSHAKE (R364). -/
def execLinkHandshake (t l : Nat) (h : LinkHello) (s : State) : Result := acts t (opLinkHandshake l h) s

/-- LINK_REKEY (R364). -/
def execLinkRekey (t l : Nat) (s : State) : Result := acts t (opLinkRekey l) s

/-- JOURNAL_RECORD_RX (R365). -/
def execJournalRecordRx (t : Nat) (f : LinkFrame) (r : JRecord) (s : State) : Result :=
  acts t (onLink f (fun l => opRecordRx l r)) s

/-- JOURNAL_ACK_RX (R365). -/
def execJournalAckRx (t : Nat) (f : LinkFrame) (jsn : W64) (s : State) : Result :=
  acts t (onLink f (fun l => opAckRx l jsn)) s

/-- JOURNAL_ACK_TIMEOUT (R367). -/
def execJournalAckTimeout (t : Nat) (jsn : W64) (s : State) : Result := acts t (opAckTimeout jsn) s

/-- COMMIT_NOTICE_RX (R488). -/
def execCommitNoticeRx (t : Nat) (f : LinkFrame) (stamps : List (W64 × W64)) (s : State) : Result :=
  acts t (onLink f (fun l => opCommitNotice l stamps)) s

/-- DESYNC_NOTICE_RX (R367). -/
def execDesyncNoticeRx (t : Nat) (f : LinkFrame) (s : State) : Result :=
  acts t (onLink f (fun l => opDesyncRx l)) s

/-- IMAGE_STAGE_RX (R125). -/
def execImageStageRx (t : Nat) (f : LinkFrame) (img : Bytes) (agree : Bool) (s : State) : Result :=
  acts t (onLink f (fun l => opImageStage l img agree)) s

/-- HEARTBEAT_SEND (R369). -/
def execHeartbeatSend (t : Nat) (s : State) : Result := acts t opHeartbeatSend s

/-- HEARTBEAT_RX (R369). -/
def execHeartbeatRx (t : Nat) (f : LinkFrame) (h : Heartbeat) (s : State) : Result :=
  acts t (if f.link < 2 then onLink f (fun l => opHeartbeatRx l h) else opHeartbeatRx f.link h) s

/-- PATH_SILENT (R369). -/
def execPathSilent (t path : Nat) (s : State) : Result := acts t (opPathSilent path) s

/-- PROMOTION_ADMISSION (R371). -/
def execPromotionAdmission (t : Nat) (s : State) : Result := acts t opPromotionAdmission s

/-- RESYNC_COMPLETE (R377). -/
def execResyncComplete (t : Nat) (d : Option ResyncData) (s : State) : Result := acts t (opResyncComplete d) s

/-- HANDOVER_START (R378). -/
def execHandoverStart (t : Nat) (s : State) : Result := acts t opHandoverStart s

/-- HANDOVER_CUTOFF (R378). -/
def execHandoverCutoff (t : Nat) (s : State) : Result := acts t opHandoverCutoff s

/-- HANDOVER_RECORD_RX (R378). -/
def execHandoverRecordRx (t : Nat) (f : LinkFrame) (jsn : W64) (hs : List (Nat × Nat)) (s : State) : Result :=
  acts t (onLink f (fun l => opHandoverRx l jsn hs)) s

/-- REVERT_HOLD_MET (R379). -/
def execRevertHoldMet (t : Nat) (s : State) : Result := acts t opRevertHoldMet s

/-- START_HANDSHAKE_TIMEOUT (R375). -/
def execStartHandshakeTimeout (t : Nat) (s : State) : Result := acts t opStartTimeout s

/-- JOURNAL_BUFFER_SPACE (R476). -/
def execJournalBufferSpace (t : Nat) (s : State) : Result := acts t opBufferSpace s

/-- SERVE_OK_PROGRESS_TIMEOUT (R368). -/
def execServeOkProgressTimeout (t : Nat) (s : State) : Result := acts t opProgressTimeout s

/-- HEALTH_REPORT_RX (R442). -/
def execHealthReportRx (t : Nat) (f : LinkFrame) (rep : Bytes) (s : State) : Result :=
  acts t (onLink f (fun l => opHealthRx l rep)) s

end Sys2Proof.Machine
end

