-- ==== Sys2Proof/Machine/Dispatch.lean ====
section
/-! DEFINITION. The dispatch: one arm per command, each a direct call of its meaning. -/

namespace Sys2Proof.Machine

/-- What a command does to everything but the queue. -/
def exec (i : Instr) (s : State) : Host.Outcome State Fault Refusal :=
  match i with
  | .sqEntryFetch t q entry => Sys2Proof.Machine.execSqEntryFetch t q entry s
  | .sqEntryReadFail t q k => Sys2Proof.Machine.execSqEntryReadFail t q k s
  | .pointerCapsuleRead t id r => Sys2Proof.Machine.execPointerCapsuleRead t id r s
  | .hostReadTimeout t src => Sys2Proof.Machine.execHostReadTimeout t src s
  | .fifoCommandTake t ten => Sys2Proof.Machine.execFifoCommandTake t ten s
  | .nctDataRx t f => Sys2Proof.Machine.execNctDataRx t f s
  | .nctAckRx t f => Sys2Proof.Machine.execNctAckRx t f s
  | .nctAckDelayExpiry t ten sid => Sys2Proof.Machine.execNctAckDelayExpiry t ten sid s
  | .nctRetransmit t ten sid dsn => Sys2Proof.Machine.execNctRetransmit t ten sid dsn s
  | .nctCoalesceExpiry t ten sid => Sys2Proof.Machine.execNctCoalesceExpiry t ten sid s
  | .arpRequestRx t f => Sys2Proof.Machine.execArpRequestRx t f s
  | .neighborSolicitationRx t f => Sys2Proof.Machine.execNeighborSolicitationRx t f s
  | .icmpEchoRequestRx t f => Sys2Proof.Machine.execIcmpEchoRequestRx t f s
  | .pcieAtomicIoRequest t p addr => Sys2Proof.Machine.execPcieAtomicIoRequest t p addr s
  | .pcieConfigRequest t f write reg v => Sys2Proof.Machine.execPcieConfigRequest t f write reg v s
  | .perstAssert t p => Sys2Proof.Machine.execPerstAssert t p s
  | .perstRelease t p => Sys2Proof.Machine.execPerstRelease t p s
  | .portLinkUp t p width gen => Sys2Proof.Machine.execPortLinkUp t p width gen s
  | .registerWrite t a => Sys2Proof.Machine.execRegisterWrite t a s
  | .blkQuiesce t ini b v => Sys2Proof.Machine.execBlkQuiesce t ini b v s
  | .blkEnable t ini b v => Sys2Proof.Machine.execBlkEnable t ini b v s
  | .selftestReq t ini b => Sys2Proof.Machine.execSelftestReq t ini b s
  | .intStatClear t ini b v => Sys2Proof.Machine.execIntStatClear t ini b v s
  | .intTest t ini b v => Sys2Proof.Machine.execIntTest t ini b v s
  | .acuVioNext t ini => Sys2Proof.Machine.execAcuVioNext t ini s
  | .qpSqTailDoorbell t ini ten q v => Sys2Proof.Machine.execQpSqTailDoorbell t ini ten q v s
  | .qpCqHeadDoorbell t ini ten q v => Sys2Proof.Machine.execQpCqHeadDoorbell t ini ten q v s
  | .qpEnable t ini ten q intEn => Sys2Proof.Machine.execQpEnable t ini ten q intEn s
  | .qpDisable t ini ten q intEn => Sys2Proof.Machine.execQpDisable t ini ten q intEn s
  | .qpSqBaseWrite t ini ten q hi v => Sys2Proof.Machine.execQpSqBaseWrite t ini ten q hi v s
  | .admqSqTailDoorbell t p v => Sys2Proof.Machine.execAdmqSqTailDoorbell t p v s
  | .admqCqHeadDoorbell t p v => Sys2Proof.Machine.execAdmqCqHeadDoorbell t p v s
  | .admqSqSizeWrite t p v => Sys2Proof.Machine.execAdmqSqSizeWrite t p v s
  | .admqCqSizeWrite t p v => Sys2Proof.Machine.execAdmqCqSizeWrite t p v s
  | .cmdPush t ini ten w => Sys2Proof.Machine.execCmdPush t ini ten w s
  | .cplPop t ini ten => Sys2Proof.Machine.execCplPop t ini ten s
  | .cplFlush t ini ten => Sys2Proof.Machine.execCplFlush t ini ten s
  | .cmdDrop t ini ten => Sys2Proof.Machine.execCmdDrop t ini ten s
  | .getwork t core ctx => Sys2Proof.Machine.execGetwork t core ctx s
  | .tagAgePromote t tag => Sys2Proof.Machine.execTagAgePromote t tag s
  | .yieldTag t tag => Sys2Proof.Machine.execYieldTag t tag s
  | .cycleBudgetExhausted t tag => Sys2Proof.Machine.execCycleBudgetExhausted t tag s
  | .schAgeWrite t ini v => Sys2Proof.Machine.execSchAgeWrite t ini v s
  | .keyScheduleTimer t => Sys2Proof.Machine.execKeyScheduleTimer t s
  | .budgetRolloverTimer t => Sys2Proof.Machine.execBudgetRolloverTimer t s
  | .budgetSnapshot t => Sys2Proof.Machine.execBudgetSnapshot t s
  | .keyGenerate t tag => Sys2Proof.Machine.execKeyGenerate t tag s
  | .keyImportBlock t tag => Sys2Proof.Machine.execKeyImportBlock t tag s
  | .keyExportBlock t tag => Sys2Proof.Machine.execKeyExportBlock t tag s
  | .keyImportPublic t tag => Sys2Proof.Machine.execKeyImportPublic t tag s
  | .keyDerive t tag => Sys2Proof.Machine.execKeyDerive t tag s
  | .keyRotate t tag => Sys2Proof.Machine.execKeyRotate t tag s
  | .keyRetire t tag => Sys2Proof.Machine.execKeyRetire t tag s
  | .keyDestroy t tag => Sys2Proof.Machine.execKeyDestroy t tag s
  | .keyInfo t tag => Sys2Proof.Machine.execKeyInfo t tag s
  | .wrapAdvance t tag => Sys2Proof.Machine.execWrapAdvance t tag s
  | .pinTranslate t tag => Sys2Proof.Machine.execPinTranslate t tag s
  | .pinTranslateRouted t tag => Sys2Proof.Machine.execPinTranslateRouted t tag s
  | .pinVerifyOffset t tag => Sys2Proof.Machine.execPinVerifyOffset t tag s
  | .pinVerifyReference t tag => Sys2Proof.Machine.execPinVerifyReference t tag s
  | .pinChange t tag => Sys2Proof.Machine.execPinChange t tag s
  | .pinOffsetGenerate t tag => Sys2Proof.Machine.execPinOffsetGenerate t tag s
  | .pinBudgetSet t tag => Sys2Proof.Machine.execPinBudgetSet t tag s
  | .pinBudgetGet t tag => Sys2Proof.Machine.execPinBudgetGet t tag s
  | .dukptPinTranslate t tag => Sys2Proof.Machine.execDukptPinTranslate t tag s
  | .dukptPinTranslateRouted t tag => Sys2Proof.Machine.execDukptPinTranslateRouted t tag s
  | .dukptMacVerify t tag => Sys2Proof.Machine.execDukptMacVerify t tag s
  | .dukptIkExport t tag => Sys2Proof.Machine.execDukptIkExport t tag s
  | .macGenerate t tag => Sys2Proof.Machine.execMacGenerate t tag s
  | .macVerify t tag => Sys2Proof.Machine.execMacVerify t tag s
  | .macVerifyRouted t tag => Sys2Proof.Machine.execMacVerifyRouted t tag s
  | .emvArqcVerify t tag => Sys2Proof.Machine.execEmvArqcVerify t tag s
  | .emvScriptMac t tag => Sys2Proof.Machine.execEmvScriptMac t tag s
  | .emvScriptEncrypt t tag => Sys2Proof.Machine.execEmvScriptEncrypt t tag s
  | .cscGenerate t tag => Sys2Proof.Machine.execCscGenerate t tag s
  | .cscVerify t tag => Sys2Proof.Machine.execCscVerify t tag s
  | .tokenise t tag => Sys2Proof.Machine.execTokenise t tag s
  | .detokenise t tag => Sys2Proof.Machine.execDetokenise t tag s
  | .blobReadComplete t slot r => Sys2Proof.Machine.execBlobReadComplete t slot r s
  | .blobReadRetry t slot => Sys2Proof.Machine.execBlobReadRetry t slot s
  | .blobFetchDeadline t slot => Sys2Proof.Machine.execBlobFetchDeadline t slot s
  | .lineRemask t line => Sys2Proof.Machine.execLineRemask t line s
  | .ageEvictVisit t ten => Sys2Proof.Machine.execAgeEvictVisit t ten s
  | .lineEccError t line => Sys2Proof.Machine.execLineEccError t line s
  | .rehashStart t ini => Sys2Proof.Machine.execRehashStart t ini s
  | .rehashDone t => Sys2Proof.Machine.execRehashDone t s
  | .bsxWinWrite t ini reg v => Sys2Proof.Machine.execBsxWinWrite t ini reg v s
  | .aeadEncrypt t tag => Sys2Proof.Machine.execAeadEncrypt t tag s
  | .aeadDecrypt t tag => Sys2Proof.Machine.execAeadDecrypt t tag s
  | .cipherEncrypt t tag => Sys2Proof.Machine.execCipherEncrypt t tag s
  | .cipherDecrypt t tag => Sys2Proof.Machine.execCipherDecrypt t tag s
  | .streamOpen t tag => Sys2Proof.Machine.execStreamOpen t tag s
  | .streamUpdate t tag => Sys2Proof.Machine.execStreamUpdate t tag s
  | .streamFinal t tag => Sys2Proof.Machine.execStreamFinal t tag s
  | .streamAbort t tag => Sys2Proof.Machine.execStreamAbort t tag s
  | .streamIdleExpiry t ten c => Sys2Proof.Machine.execStreamIdleExpiry t ten c s
  | .randomGet t tag => Sys2Proof.Machine.execRandomGet t tag s
  | .digest t tag => Sys2Proof.Machine.execDigest t tag s
  | .hmacGenerate t tag => Sys2Proof.Machine.execHmacGenerate t tag s
  | .hmacVerify t tag => Sys2Proof.Machine.execHmacVerify t tag s
  | .jobSlotGrant t tag => Sys2Proof.Machine.execJobSlotGrant t tag s
  | .jobSlotTimeout t tag => Sys2Proof.Machine.execJobSlotTimeout t tag s
  | .jobEnd t tag io => Sys2Proof.Machine.execJobEnd t tag io s
  | .jobTimeout t j => Sys2Proof.Machine.execJobTimeout t j s
  | .pkSign t tag => Sys2Proof.Machine.execPkSign t tag s
  | .pkVerify t tag => Sys2Proof.Machine.execPkVerify t tag s
  | .pkEncrypt t tag => Sys2Proof.Machine.execPkEncrypt t tag s
  | .pkDecrypt t tag => Sys2Proof.Machine.execPkDecrypt t tag s
  | .pkKeygen t tag => Sys2Proof.Machine.execPkKeygen t tag s
  | .pkAgree t tag => Sys2Proof.Machine.execPkAgree t tag s
  | .pkAgreeCheck t tag => Sys2Proof.Machine.execPkAgreeCheck t tag s
  | .pkCancel t tag => Sys2Proof.Machine.execPkCancel t tag s
  | .pkeEngineGrant t e => Sys2Proof.Machine.execPkeEngineGrant t e s
  | .pkDispatchDeadline t tag => Sys2Proof.Machine.execPkDispatchDeadline t tag s
  | .pkLatestStartExpiry t tag => Sys2Proof.Machine.execPkLatestStartExpiry t tag s
  | .pkeOperationComplete t eng fault => Sys2Proof.Machine.execPkeOperationComplete t eng fault s
  | .pkeZeroingDone t eng => Sys2Proof.Machine.execPkeZeroingDone t eng s
  | .pkeEngineTest t eng pass => Sys2Proof.Machine.execPkeEngineTest t eng pass s
  | .rtRecordSet t tag => Sys2Proof.Machine.execRtRecordSet t tag s
  | .rtRouteUpdate t tag => Sys2Proof.Machine.execRtRouteUpdate t tag s
  | .rtCommit t tag => Sys2Proof.Machine.execRtCommit t tag s
  | .rtAbort t tag => Sys2Proof.Machine.execRtAbort t tag s
  | .rtLookup t tag => Sys2Proof.Machine.execRtLookup t tag s
  | .rtStatus t tag => Sys2Proof.Machine.execRtStatus t tag s
  | .rtCompact t tag => Sys2Proof.Machine.execRtCompact t tag s
  | .compactionDone t => Sys2Proof.Machine.execCompactionDone t s
  | .rtbOldSetFree t ten => Sys2Proof.Machine.execRtbOldSetFree t ten s
  | .quorumOpen t tag => Sys2Proof.Machine.execQuorumOpen t tag s
  | .quorumApprove t tag => Sys2Proof.Machine.execQuorumApprove t tag s
  | .approvalVerifyDone t id agree => Sys2Proof.Machine.execApprovalVerifyDone t id agree s
  | .quorumStatus t tag => Sys2Proof.Machine.execQuorumStatus t tag s
  | .quorumClose t tag => Sys2Proof.Machine.execQuorumClose t tag s
  | .challengeWindowEnd t dom id => Sys2Proof.Machine.execChallengeWindowEnd t dom id s
  | .custEnrol t tag => Sys2Proof.Machine.execCustEnrol t tag s
  | .custRemove t tag => Sys2Proof.Machine.execCustRemove t tag s
  | .policySet t tag => Sys2Proof.Machine.execPolicySet t tag s
  | .custList t tag => Sys2Proof.Machine.execCustList t tag s
  | .ceremonyOpen t tag => Sys2Proof.Machine.execCeremonyOpen t tag s
  | .ceremonyComponent t tag => Sys2Proof.Machine.execCeremonyComponent t tag s
  | .ceremonyClose t tag => Sys2Proof.Machine.execCeremonyClose t tag s
  | .ceremonyWindowEnd t id => Sys2Proof.Machine.execCeremonyWindowEnd t id s
  | .maintOpen t tag => Sys2Proof.Machine.execMaintOpen t tag s
  | .maintClose t tag => Sys2Proof.Machine.execMaintClose t tag s
  | .maintWindowEnd t => Sys2Proof.Machine.execMaintWindowEnd t s
  | .custApprovalFrame t f => Sys2Proof.Machine.execCustApprovalFrame t f s
  | .custComponentFrame t f => Sys2Proof.Machine.execCustComponentFrame t f s
  | .custHandshakeFrame t f => Sys2Proof.Machine.execCustHandshakeFrame t f s
  | .custListFrame t f => Sys2Proof.Machine.execCustListFrame t f s
  | .custAckFrame t f => Sys2Proof.Machine.execCustAckFrame t f s
  | .custFrameRetransmit t port seq => Sys2Proof.Machine.execCustFrameRetransmit t port seq s
  | .sessionHello t tag => Sys2Proof.Machine.execSessionHello t tag s
  | .sessionClose t tag => Sys2Proof.Machine.execSessionClose t tag s
  | .sessionStatus t tag => Sys2Proof.Machine.execSessionStatus t tag s
  | .sessionHalfOpenTimeout t ten sid => Sys2Proof.Machine.execSessionHalfOpenTimeout t ten sid s
  | .sessionMarkSend t ten sid => Sys2Proof.Machine.execSessionMarkSend t ten sid s
  | .sessionMarkAck t ten sid mark => Sys2Proof.Machine.execSessionMarkAck t ten sid mark s
  | .credEnrol t tag => Sys2Proof.Machine.execCredEnrol t tag s
  | .credRemove t tag => Sys2Proof.Machine.execCredRemove t tag s
  | .tenantPolicySet t tag => Sys2Proof.Machine.execTenantPolicySet t tag s
  | .tenantInfo t tag => Sys2Proof.Machine.execTenantInfo t tag s
  | .tenantCreate t tag => Sys2Proof.Machine.execTenantCreate t tag s
  | .tenantClose t tag => Sys2Proof.Machine.execTenantClose t tag s
  | .tenantReroot t tag => Sys2Proof.Machine.execTenantReroot t tag s
  | .rerootArmingLapse t ten => Sys2Proof.Machine.execRerootArmingLapse t ten s
  | .tenantFreeze t tag => Sys2Proof.Machine.execTenantFreeze t tag s
  | .tenantDrainDone t ten => Sys2Proof.Machine.execTenantDrainDone t ten s
  | .tenantResume t tag => Sys2Proof.Machine.execTenantResume t tag s
  | .migratePrepare t tag => Sys2Proof.Machine.execMigratePrepare t tag s
  | .migrateSave t tag => Sys2Proof.Machine.execMigrateSave t tag s
  | .migrateRestore t tag => Sys2Proof.Machine.execMigrateRestore t tag s
  | .vfBindWrite t ini p v => Sys2Proof.Machine.execVfBindWrite t ini p v s
  | .cmqTcfgWrite t ini v => Sys2Proof.Machine.execCmqTcfgWrite t ini v s
  | .ptpSyncRx t m => Sys2Proof.Machine.execPtpSyncRx t m s
  | .ptpAnnounceRx t m => Sys2Proof.Machine.execPtpAnnounceRx t m s
  | .pdelayReqRx t m => Sys2Proof.Machine.execPdelayReqRx t m s
  | .ppsEdge t refOk => Sys2Proof.Machine.execPpsEdge t refOk s
  | .todMessageRx t msg => Sys2Proof.Machine.execTodMessageRx t msg s
  | .timeSourceLost t src => Sys2Proof.Machine.execTimeSourceLost t src s
  | .holdoverExpired t => Sys2Proof.Machine.execHoldoverExpired t s
  | .sourceRejectEnd t src => Sys2Proof.Machine.execSourceRejectEnd t src s
  | .timeConfigSet t tag => Sys2Proof.Machine.execTimeConfigSet t tag s
  | .timeAccept t tag => Sys2Proof.Machine.execTimeAccept t tag s
  | .twinPair t tag => Sys2Proof.Machine.execTwinPair t tag s
  | .twinPairTimeout t tag => Sys2Proof.Machine.execTwinPairTimeout t tag s
  | .twinUnpair t tag => Sys2Proof.Machine.execTwinUnpair t tag s
  | .twinStatus t tag => Sys2Proof.Machine.execTwinStatus t tag s
  | .twinPromote t tag => Sys2Proof.Machine.execTwinPromote t tag s
  | .twinHandover t tag => Sys2Proof.Machine.execTwinHandover t tag s
  | .twinRevertSet t tag => Sys2Proof.Machine.execTwinRevertSet t tag s
  | .twinRestart t tag => Sys2Proof.Machine.execTwinRestart t tag s
  | .linkHandshake t l h => Sys2Proof.Machine.execLinkHandshake t l h s
  | .linkRekey t l => Sys2Proof.Machine.execLinkRekey t l s
  | .journalRecordRx t l r => Sys2Proof.Machine.execJournalRecordRx t l r s
  | .journalAckRx t l jsn => Sys2Proof.Machine.execJournalAckRx t l jsn s
  | .journalAckTimeout t jsn => Sys2Proof.Machine.execJournalAckTimeout t jsn s
  | .commitNoticeRx t l stamps => Sys2Proof.Machine.execCommitNoticeRx t l stamps s
  | .desyncNoticeRx t l => Sys2Proof.Machine.execDesyncNoticeRx t l s
  | .imageStageRx t l img agree => Sys2Proof.Machine.execImageStageRx t l img agree s
  | .heartbeatSend t => Sys2Proof.Machine.execHeartbeatSend t s
  | .heartbeatRx t path h => Sys2Proof.Machine.execHeartbeatRx t path h s
  | .pathSilent t path => Sys2Proof.Machine.execPathSilent t path s
  | .promotionAdmission t => Sys2Proof.Machine.execPromotionAdmission t s
  | .resyncComplete t d => Sys2Proof.Machine.execResyncComplete t d s
  | .handoverStart t => Sys2Proof.Machine.execHandoverStart t s
  | .handoverCutoff t => Sys2Proof.Machine.execHandoverCutoff t s
  | .handoverRecordRx t l jsn hs => Sys2Proof.Machine.execHandoverRecordRx t l jsn hs s
  | .revertHoldMet t => Sys2Proof.Machine.execRevertHoldMet t s
  | .startHandshakeTimeout t => Sys2Proof.Machine.execStartHandshakeTimeout t s
  | .journalBufferSpace t => Sys2Proof.Machine.execJournalBufferSpace t s
  | .sensorTrigger t src value detail => Sys2Proof.Machine.execSensorTrigger t src value detail s
  | .cellEvent t cell ev => Sys2Proof.Machine.execCellEvent t cell ev s
  | .ssvPowerStateChange t p => Sys2Proof.Machine.execSsvPowerStateChange t p s
  | .ssvColdStart t => Sys2Proof.Machine.execSsvColdStart t s
  | .detectorSelftest t src pass => Sys2Proof.Machine.execDetectorSelftest t src pass s
  | .ssvRecordCopy t => Sys2Proof.Machine.execSsvRecordCopy t s
  | .ssvRecClear t ini v => Sys2Proof.Machine.execSsvRecClear t ini v s
  | .ssvLatchClear t ini word v still => Sys2Proof.Machine.execSsvLatchClear t ini word v still s
  | .ssvReadmit t tag => Sys2Proof.Machine.execSsvReadmit t tag s
  | .ssvRestart t tag => Sys2Proof.Machine.execSsvRestart t tag s
  | .ssvRelease t tag => Sys2Proof.Machine.execSsvRelease t tag s
  | .calWrite t tag => Sys2Proof.Machine.execCalWrite t tag s
  | .calRead t tag => Sys2Proof.Machine.execCalRead t tag s
  | .imgAccept t tag => Sys2Proof.Machine.execImgAccept t tag s
  | .lcTransition t ini ok agree => Sys2Proof.Machine.execLcTransition t ini ok agree s
  | .lcTransitionReset t => Sys2Proof.Machine.execLcTransitionReset t s
  | .dbgChallenge t ini => Sys2Proof.Machine.execDbgChallenge t ini s
  | .debugResponse t ini agree => Sys2Proof.Machine.execDebugResponse t ini agree s
  | .dbgClose t ini => Sys2Proof.Machine.execDbgClose t ini s
  | .tapInstruction t ir => Sys2Proof.Machine.execTapInstruction t ir s
  | .evrEpochEnd t ch => Sys2Proof.Machine.execEvrEpochEnd t ch s
  | .evrFlush t ini => Sys2Proof.Machine.execEvrFlush t ini s
  | .evrCapply t ini => Sys2Proof.Machine.execEvrCapply t ini s
  | .evrCtlEnWrite t ini v => Sys2Proof.Machine.execEvrCtlEnWrite t ini v s
  | .evrRead t tag => Sys2Proof.Machine.execEvrRead t tag s
  | .evrClear t tag => Sys2Proof.Machine.execEvrClear t tag s
  | .pmcSnap t ini => Sys2Proof.Machine.execPmcSnap t ini s
  | .pmcFreeze t ini v => Sys2Proof.Machine.execPmcFreeze t ini v s
  | .pmcCounterWrite t ini c v => Sys2Proof.Machine.execPmcCounterWrite t ini c v s
  | .katRun t u pass => Sys2Proof.Machine.execKatRun t u pass s
  | .sramScrub t b addr e => Sys2Proof.Machine.execSramScrub t b addr e s
  | .hltEpochEnd t => Sys2Proof.Machine.execHltEpochEnd t s
  | .healthReportPublish t => Sys2Proof.Machine.execHealthReportPublish t s
  | .rngHealthTestFail t r => Sys2Proof.Machine.execRngHealthTestFail t r s
  | .drbgReseed t d => Sys2Proof.Machine.execDrbgReseed t d s
  | .maskSeedRenew t pipe => Sys2Proof.Machine.execMaskSeedRenew t pipe s
  | .rngRawRead t ini => Sys2Proof.Machine.execRngRawRead t ini s
  | .twinDivLogRead t ini => Sys2Proof.Machine.execTwinDivLogRead t ini s
  | .i3cAddressAssign t addr => Sys2Proof.Machine.execI3cAddressAssign t addr s
  | .suppliesValid t => Sys2Proof.Machine.execSuppliesValid t s
  | .moduleStart t o => Sys2Proof.Machine.execModuleStart t o s
  | .holdupCharged t mJ => Sys2Proof.Machine.execHoldupCharged t mJ s
  | .modResetAssert t => Sys2Proof.Machine.execModResetAssert t s
  | .modResetRelease t => Sys2Proof.Machine.execModResetRelease t s
  | .powerFailTrigger t src => Sys2Proof.Machine.execPowerFailTrigger t src s
  | .flushComplete t us supplies torn => Sys2Proof.Machine.execFlushComplete t us supplies torn s
  | .holdupLow t mJ => Sys2Proof.Machine.execHoldupLow t mJ s
  | .thermalTrip t => Sys2Proof.Machine.execThermalTrip t s
  | .storeReclaim t n => Sys2Proof.Machine.execStoreReclaim t n s
  | .tableCheckpoint t => Sys2Proof.Machine.execTableCheckpoint t s
  | .portLinkLoss t p => Sys2Proof.Machine.execPortLinkLoss t p s
  | .netPortLinkChange t n link fec => Sys2Proof.Machine.execNetPortLinkChange t n link fec s
  | .custPortLinkChange t port up => Sys2Proof.Machine.execCustPortLinkChange t port up s
  | .reqidEntryExpiry t key reqId => Sys2Proof.Machine.execReqidEntryExpiry t key reqId s
  | .migrationOfferExpiry t ten => Sys2Proof.Machine.execMigrationOfferExpiry t ten s
  | .serveOkProgressTimeout t => Sys2Proof.Machine.execServeOkProgressTimeout t s
  | .evrLogWriteDone t n => Sys2Proof.Machine.execEvrLogWriteDone t n s
  | .healthReportRx t l rep => Sys2Proof.Machine.execHealthReportRx t l rep s
  | .delayReqSend t e => Sys2Proof.Machine.execDelayReqSend t e s
  | .delayRespRx t m => Sys2Proof.Machine.execDelayRespRx t m s

end Sys2Proof.Machine
end

