-- ==== Sys2Proof/Safety.lean ====
section
/-! DEFINITION. The terms in which claims about the block are made: how a command completes, when an access is granted,
and what holds in every state a step can leave. -/

namespace Sys2Proof.Machine

/-! ### How a command completes -/

/-- The block at a command's instant: time has passed up to it, and only time has acted. -/
def State.now (s : State) (t : Nat) : Mod := elapse (advance t s.mod)

/-- The next state where a command's own effect leaves the block as `m`: what follows from that at the same instant is
`happens`. The store of violations and the queue are as they were. -/
def left (t : Nat) (s : State) (m : Mod) : Result :=
  .next { s with mod := happens t (fun _ => m) (fun x => x.acu) s.mod }

/-- The command completes, and its own effect leaves the block as `m`. -/
def Leaves (i : Instr) (t : Nat) (s : State) (m : Mod) : Prop := exec i s = left t s m

/-- The block with a command's context found: it holds one already, or SCH's next grant is of its tag (04 R100, R102,
R113). -/
def contextFor (m : Mod) (tag : Nat) (c : Cmd) : Option Mod :=
  match c.phase with
  | .ready _ _ => grantOfTag m tag
  | .running => some m
  | _ => none

/-- The block and the command as an opcode's program finds them: the command at the tag has that opcode, a context to
run in and a result buffer that is long enough, and TXP serves. -/
def starts (op tag : Nat) (m : Mod) : Option (Mod × Cmd) :=
  (cmdOf m tag).bind (fun c =>
    if c.opcode ≠ op then none
    else (contextFor m tag c).bind (fun m0 =>
      (cmdOf m0 tag).bind (fun c0 =>
        if !blkServes m0 .txp || (blkOf m0 .txp).locked || (decide (c0.runs ≤ 1) && resultShort c0) then none
        else some (m0, c0))))

/-- What a program comes to, whether it says so early or at its end. -/
def actOf : Except Act Act → Act
  | .ok a => a
  | .error a => a

/-- A program comes, in a number of requests and stages, to run on the block `m` with its command as `c`: every request
for keys was met by lines the cache holds (06 R172), every stage left its keys, every chain of successors led to a key. -/
inductive Comes (prog : Prog) (tag : Nat) : Nat → Mod → Mod → Cmd → Prop where
  | here {m : Mod} {c : Cmd} : cmdOf m tag = some c → Comes prog tag 0 m m c
  | keys {n : Nat} {m m1 m2 : Mod} {c c2 : Cmd} {hs : List W64} : cmdOf m tag = some c →
      actOf (prog m tag c) = .need hs → askKeys m tag hs = (m1, .have) → Comes prog tag n m1 m2 c2 →
      Comes prog tag (n + 1) m m2 c2
  | stage {n : Nat} {m m1 m2 : Mod} {c c2 : Cmd} {mem : List Bytes} : cmdOf m tag = some c →
      actOf (prog m tag c) = .stage m1 mem →
      Comes prog tag n (updCmd (releaseKeys m1 tag) tag (fun c => { c with stage := c.stage + 1, mem := mem })) m2 c2 →
      Comes prog tag (n + 1) m m2 c2
  | reach {n : Nat} {m m2 : Mod} {c c2 : Cmd} {h : W64} : cmdOf m tag = some c → actOf (prog m tag c) = .reach h →
      Comes prog tag n (updCmd m tag (fun c => { c with reached := some h })) m2 c2 → Comes prog tag (n + 1) m m2 c2

/-- At an instant an opcode's program runs on the block `m` with its command as `c`: at its start, or once its keys are
held and its stages done, within the 64 that one dispatch takes at least. -/
def Starts (op t tag : Nat) (s : State) (m : Mod) (c : Cmd) : Prop :=
  ∃ prog m0 c0 n, programOf op = some prog ∧ starts op tag (s.now t) = some (m0, c0) ∧ n ≤ 63 ∧
    Comes prog tag n m0 m c

/-- The command ends with a status and a result; the program has left the block as `m`. -/
def Ends (i : Instr) (t : Nat) (s : State) (tag : Nat) (m : Mod) (st : W16) (res : Bytes) : Prop :=
  Leaves i t s (endCmd m tag st res)

/-- The command issues its journal record, with the status ST_OK and a result for its commit. -/
def Journals (i : Instr) (t : Nat) (s : State) (tag : Nat) (c : Cmd) (m : Mod) (effects : List Effect) (res : Bytes)
    (own : Bool) : Prop :=
  Leaves i t s (issueFor (releaseKeys m tag) tag effects stOk res own (takesEntry c))

/-- A failed attempt is counted in a budget (09 R253, R254): at once, or where the pair is synchronised the completion
waits for the twin to acknowledge the count. -/
def Counts (i : Instr) (t : Nat) (s : State) (tag : Nat) (m : Mod) (h : W64) (b : Budget) (st : W16) : Prop :=
  let m1 := { m with dur := { m.dur with bud := tblSet m.dur.bud h.toNat b } }
  if m.tlk.paired && m.tlk.sync then
    Leaves i t s (updCmd (sendTwin { m1 with tlk := { m1.tlk with countSeq := m.tlk.countSeq + 1 } } (.record
      { jsn := 0, effects := [.budget h (some b)], req := none, tag := none, unitOnly := false })) tag
      (fun c => { c with phase := .count m.tlk.countSeq m.clk, outcome := some (st, []) }))
  else Ends i t s tag m1 st []

/-- A command's job placed on a pipeline, or waiting for a slot (08 R223); `hold` is what the command does to its context
as it takes or waits for the slot. -/
def placed (m : Mod) (tag : Nat) (c : Cmd) (hold : Mod → Mod) : Mod :=
  match pipeFor m c with
  | some p => placeJob (hold m) tag p
  | none => updCmd (hold m) tag (fun c => { c with phase := .slot m.clk })

/-- The command's job is asked for: it is placed or waits for a slot. -/
def AsksJob (i : Instr) (t : Nat) (s : State) (tag : Nat) (c : Cmd) (m : Mod) (hold : Mod → Mod) : Prop :=
  Leaves i t s (placed m tag c hold)

/-- The command hands an internal operation to PKE on a program slot with operands, keeping values of its own; it goes on
with the operation's outcome (10 R272, R283). -/
def Hands (i : Instr) (t : Nat) (s : State) (tag : Nat) (c : Cmd) (m : Mod) (slot : Nat) (mem : Tbl Bytes)
    (kept : List Bytes) : Prop :=
  Leaves i t s (joinQueue (updCmd m tag (fun c => { c with phase := .pke, outcome := none, mem := kept }))
    { tag := tag, late := latestStart c (innerNs slot), slot := slot, nominal := innerNs slot, mem := mem
      draws := pkDraws slot 48 false })

/-! ### Accesses -/

/-- An access arrives, reaches a place of a space, and the ACU grants it (02 R44, R55). -/
def Granted (m : Mod) (a : Access) (sp : Space) (off : Nat) : Prop :=
  arrives m a.ini = true ∧ spaceOf m a = (sp, off) ∧ judge m a sp off = .granted

/-- An access arrives and the ACU refuses it. -/
def TurnedAway (m : Mod) (a : Access) (sp : Space) (off : Nat) (f : VioFlags) (slot page : Nat) : Prop :=
  arrives m a.ini = true ∧ spaceOf m a = (sp, off) ∧ judge m a sp off = .refused f slot page

/-- A 32-bit write to a register of a block is granted. -/
def WritesReg (m : Mod) (ini : Initiator) (b : Blk) (page off : Nat) : Prop :=
  Granted m (write32 ini (blkAddr b page off) 0) .inner (blkAddr b page off)

/-- An access to a place of a tenant's window is granted. -/
def ReachesWindow (m : Mod) (ini : Initiator) (ten off : Nat) (f : Nat → Access) : Prop :=
  ∃ addr, windowAddr ini ten off = some addr ∧ Granted m (f addr) (.window ten) off

/-- A 32-bit write to a place of a tenant's window is granted. -/
def WritesWindow (m : Mod) (ini : Initiator) (ten off : Nat) : Prop := ReachesWindow m ini ten off (fun a => write32 ini a 0)

/-! ### The invariant of the violation store -/

/-- A record as Table 2.16 lays it out: V set, TYPE read or write, every reserved bit 0. -/
def Violation.Fits (v : Violation) : Prop :=
  v.w0.getLsbD 63 = true ∧ v.w0.extractLsb' 60 3 = 0 ∧ v.w0.extractLsb' 41 3 = 0 ∧ v.w3.extractLsb' 28 36 = 0 ∧
    v.w3.extractLsb' 21 3 = 0

/-- The store of violations holds at most 1,024 records, each as Table 2.16 lays it out (02 R58, R60). -/
def Inv (m : Mod) : Prop := m.acu.fifo.length ≤ 1024 ∧ ∀ v ∈ m.acu.fifo, v.Fits

/-! ### Quiet states -/

/-- No path waits for a tag, and no tag is kept for a direct FIFO (04 R106). -/
def NoneHeld (m : Mod) : Prop :=
  (∀ p, queueWaits m (.admin p) = false) ∧
    ∀ t ∈ m.ten.map Prod.fst, (tenOf m t).fifo.granted = false ∧ ∀ k < 5, pathWaits m t k = false

/-- The pair asks for nothing: the unit is not paired, and no handover, revert or want of progress is under way. -/
def TwinRests (m : Mod) : Prop :=
  m.tlk.paired = false ∧ m.tlk.sync = false ∧ m.tlk.stalled = false ∧ m.tlk.holdFrom = none ∧ m.tlk.byRevert = false ∧
    m.tlk.handover = none

/-- Nothing waits that an event or passing time could let go on, and no follow-up of the twin is due. -/
def Quiet (m : Mod) : Prop :=
  m.cmq.cmds = [] ∧ m.cmq.ptr = [] ∧ TwinRests m ∧ NoneHeld m ∧ m.evr.chan = [] ∧ m.lcc.held = none ∧
    m.txp.leaving = 0 ∧ m.kch.busy = false

end Sys2Proof.Machine
end

