-- ==== Sys2Proof/Certificates/Slice0/Obligations.lean ====
section
/-! DEFINITION. The statements for the provers, from the rules R<n> of spec/. Each says what a command does in every
state and with all operands that meet its hypotheses; `Starts`, `Ends`, `Journals`, `Leaves` and `Granted` are those of
Safety; `Leaves` adds what follows at the same instant (log 1). A block's state at a command's instant is `s.now t`. A
statement whose clause rests on a choice of the model's own names the log in its docstring. -/

open Sys2Proof Sys2Proof.Machine

/-! ### Keys (chapters 5 and 9) -/

/-- A key is generated, imported, derived or rotated in one record: its blob and its tenant's cursor, its timers, and
for a rotation the successor link, the retirement and the budget (05 R143, R148, R154, R155; 09 R266 to R268). It says
that these complete: keyGenerate, keyImportBlock, keyImportPublic, keyDerive, keyRotate. -/
def Obligations.KeyCreationCompletes : Prop :=
  (∀ (t tag : Nat) (s : State) (m : Mod) (c : Cmd) (q effs : List Effect) (h : W64),
    Starts 0x0101 t tag s m c → c.body.length = 40 →
    let a := fBytes c 0 32
    let field := keyField (drawn m (aLen a / 8)) (if aDecLock a then fBytes c 32 8 else [])
    attrShape a 9 = .ok () → symShape (aAlg a) (aLen a) (aParam a) = true → symUsage a = .ok () →
    aUsage a ≠ ascii "B1" → decParams a (fBytes c 32 8) = .ok () → m.rng.halted = false →
    quorums m tag c (cmdDigest c) (createClasses c.tenant (aTrusted a)) (projDur m) = .ok q →
    createKey (afterDraw m (aLen a / 8)) (projDur (afterDraw m (aLen a / 8))) c.tenant 1 (attrKept a 0) field = .ok (effs, h) →
    Journals (.keyGenerate t tag) t s tag c (afterDraw m (aLen a / 8)) (q ++ effs)
      (createRes h (kcvAny 1 (attrKept a 0) field)) false) ∧
  (∀ (t tag : Nat) (s : State) (m : Mod) (c : Cmd) (q effs : List Effect) (h : W64) (m1 : Mod) (k : KeyBlock) (kind : Nat)
      (a field : Bytes),
    Starts 0x0102 t tag s m c → c.body.length = 40 + f16 c 0x20 → 48 ≤ f16 c 0x20 → f16 c 0x20 ≤ 4000 →
    beforeOk (f64 c 8) = true → afterOk (f64 c 0x10) = true → f8 c 0x22 ≤ 3 → allZero (fBytes c 0x23 5) = true →
    (f8 c 0x22 % 2 = 1 ∨ allZero (fBytes c 0x18 8) = true) →
    quorums m tag c (cmdDigest c) (createClasses c.tenant (f8 c 0x22 / 2 == 1)) (projDur m) = .ok q →
    openBlock m tag c [f64 c 0] (f64 c 0) (c.body.drop 40) = .ok (m1, k) →
    blockKey k ((if f8 c 0x22 / 2 = 1 then 1 else 0) + (if f8 c 0x22 % 2 = 1 then 8 else 0)) (keepTime (f64 c 8))
      (keepTime (f64 c 0x10)) (fBytes c 0x18 8) = .ok (kind, a, field) →
    kcAgrees k (kcvAny kind a field) = true →
    createKey m1 (projDur m1) c.tenant kind a field = .ok (effs, h) →
    Journals (.keyImportBlock t tag) t s tag c m1 (q ++ effs) (createRes h (kcvAny kind a field)) false) ∧
  (∀ (t tag : Nat) (s : State) (m : Mod) (c : Cmd) (q effs : List Effect) (h : W64) (k : PubKey),
    Starts 0x0104 t tag s m c → c.body.length = 40 + f16 c 0x20 →
    let a := fBytes c 0 32
    attrShape a 0 = .ok () → allZero (fBytes c 0x22 6) = true → asymShape a = true → pubUsage a = true →
    quorum m tag c clsKeyCreate = .ok q →
    (if aAlg a = chr 'R' then rsaPubOf (aLen a) (c.body.drop 40) else ecPubOf (aParam a) (c.body.drop 40)) = .ok k →
    createKey m (projDur m) c.tenant (kindFor a false) (attrKept a 0) k.field = .ok (effs, h) →
    Journals (.keyImportPublic t tag) t s tag c m (q ++ effs)
      (createRes h (kcvAny (kindFor a false) (attrKept a 0) k.field)) false) ∧
  (∀ (t tag : Nat) (s : State) (m m1 : Mod) (c : Cmd) (q effs : List Effect) (h : W64) (ap kp : Bytes),
    Starts 0x0105 t tag s m c → c.body.length = 80 → f8 c 8 = 1 → f8 c 9 = 0 → f8 c 0x0A = 0 →
    allZero (fBytes c 0x0B 5) = true → allZero (fBytes c 0x1C 4) = true → allZero (fBytes c 0x20 10) = true →
    allZero (fBytes c 0x2A 6) = true →
    let a := fBytes c 0x30 32
    let v := if aAlg ap = chr 'A' then 2 else 1
    let ksn := fBytes c 0x10 12
    let key := dukptIk v (symKey ap kp) ksn
    let field := keyField key (ksnId v ksn)
    attrShape a 3 = .ok () → symShape (aAlg a) (aLen a) (aParam a) = true →
    quorums m tag c (cmdDigest c) (createClasses c.tenant (aTrusted a)) (projDur m) = .ok q →
    useKey m tag c [f64 c 0] (f64 c 0) = .ok (ap, kp) → keyIs ap ["B0"] ['X'] = .ok () → needCipher m = .ok () →
    aMode a = chr 'X' → aAlg a = aAlg ap → aLen a = aLen ap → aUsage a = ascii "B1" →
    (v = 2 ∨ allZero (sliceOf ksn 10 2) = true) →
    under tag (lineNo m (f64 c 0)) .ecbEnc (cipherOf ap) (if v = 2 then aLen ap / 128 else 2) (.scratch 0) key m =
      .ok m1 →
    createKey m1 (projDur m1) c.tenant 1 (attrKept a 2) field = .ok (effs, h) →
    Journals (.keyDerive t tag) t s tag c m1 (q ++ effs) (createRes h (kcvAny 1 (attrKept a 2) field)) false) ∧
  (∀ (t tag : Nat) (s : State) (m m1 : Mod) (c : Cmd) (q effs : List Effect) (h : W64) (ap kp : Bytes)
      (pan psn : List Nat),
    Starts 0x0105 t tag s m c → c.body.length = 80 → f8 c 8 = 2 → 12 ≤ f8 c 9 → f8 c 9 ≤ 16 →
    allZero (fBytes c 0x0B 5) = true → allZero (fBytes c 0x10 12) = true → allZero (fBytes c 0x1C 4) = true →
    allZero (fBytes c 0x2A 6) = true → panOf c 9 0x20 = .ok pan → bcdOf (fBytes c 0x0A 1) 2 = some psn →
    let a := fBytes c 0x30 32
    let v := if aAlg ap = chr 'A' then 2 else 1
    let key := emvMk (v == 2) (symKey ap kp) (emvY pan psn)
    attrShape a 3 = .ok () → symShape (aAlg a) (aLen a) (aParam a) = true →
    quorums m tag c (cmdDigest c) (createClasses c.tenant (aTrusted a)) (projDur m) = .ok q →
    useKey m tag c [f64 c 0] (f64 c 0) = .ok (ap, kp) → keyIs ap ["E0", "E1", "E2"] ['X'] = .ok () →
    needCipher m = .ok () → aMode a = chr 'X' → aAlg a = aAlg ap → aLen a = aLen ap → aUsage a = aUsage ap →
    under tag (lineNo m (f64 c 0)) .ecbEnc (cipherOf ap) (if v = 2 then aLen ap / 128 else 2) (.scratch 0) key m =
      .ok m1 →
    createKey m1 (projDur m1) c.tenant 1 (attrKept a 2) key = .ok (effs, h) →
    Journals (.keyDerive t tag) t s tag c m1 (q ++ effs) (createRes h (kcvAny 1 (attrKept a 2) key)) false) ∧
  (∀ (t tag : Nat) (s : State) (m : Mod) (c : Cmd) (q effs bud : List Effect) (new : W64) (a key : Bytes) (e : KstEntry),
    Starts 0x0106 t tag s m c → rotateBody c = .ok () → f8 c 0x1A = 0 →
    let h := f64 c 0
    let at' := keepTime (f64 c 8)
    let r := keepTime (f64 c 0x10)
    let n := aLen a / 8
    let a1 := successorAttr a (fBytes c 0x18 2) at'
    let field := keyField (drawn m n) (paramsOf a key)
    hKind h = 1 → quorum m tag c clsKeyCreate = .ok q → keyHeld m tag c [h] h = .ok (a, key) →
    kstLive (projDur m) h = .ok e → e.successor = none → keyStateAt a (some e) c.stamp ≠ .retired →
    at'.toNat ≤ r.toNat → r.toNat ≤ (retirement a (some e)).toNat → m.rng.halted = false →
    kstRoom m (projDur m) c.tenant h = .ok () →
    createKey (afterDraw m n) (projDur m) c.tenant 1 a1 field = .ok (effs, new) →
    budgetCopy (projDur m) h new c.stamp = .ok bud →
    Journals (.keyRotate t tag) t s tag c (afterDraw m n)
      (q ++ effs ++ [.kst h { e with successor := some new, retire := if r = t64Never then e.retire else some r }] ++
        (if r = t64Never then [] else [.schedule h r]) ++ bud)
      (createRes new (kcvAny 1 a1 field)) false) ∧
  (∀ (t tag : Nat) (s : State) (m : Mod) (c : Cmd) (q effs bud : List Effect) (new : W64) (a key : Bytes) (e : KstEntry),
    Starts 0x0106 t tag s m c → rotateBody c = .ok () → f8 c 0x1A = 0 →
    let h := f64 c 0
    let at' := keepTime (f64 c 8)
    let r := keepTime (f64 c 0x10)
    let m1 := afterFreshDraw m 640
    let a1 := successorAttr a (fBytes c 0x18 2) at'
    let field := (privDraw a m.free).field
    hKind h ≠ 1 → (aMode a = chr 'S' ∨ aMode a = chr 'D' ∨ (aMode a = chr 'N' ∧ hKind h ≠ 3)) →
    quorum m tag c clsKeyCreate = .ok q → keyHeld m tag c [h] h = .ok (a, key) →
    kstLive (projDur m) h = .ok e → e.successor = none → keyStateAt a (some e) c.stamp ≠ .retired →
    at'.toNat ≤ r.toNat → r.toNat ≤ (retirement a (some e)).toNat → m.rng.halted = false →
    kstRoom m (projDur m) c.tenant h = .ok () →
    createKey m1 (projDur m) c.tenant (hKind h) a1 field = .ok (effs, new) →
    budgetCopy (projDur m) h new c.stamp = .ok bud →
    Journals (.keyRotate t tag) t s tag c m1
      (q ++ effs ++ [.kst h { e with successor := some new, retire := if r = t64Never then e.retire else some r }] ++
        (if r = t64Never then [] else [.schedule h r]) ++ bud)
      (createRes new (kcvAny (hKind h) a1 field)) false) ∧
  (∀ (t tag : Nat) (s : State) (m m1 : Mod) (c : Cmd) (q effs bud : List Effect) (new : W64) (a b f key : Bytes)
      (e : KstEntry) (k : KeyBlock) (kind : Nat),
    Starts 0x0106 t tag s m c → rotateBody c = .ok () → f8 c 0x1A = 1 →
    let h := f64 c 0
    let hs := [h, f64 c 0x20]
    let at' := keepTime (f64 c 8)
    let r := keepTime (f64 c 0x10)
    let a1 := successorAttr a (fBytes c 0x18 2) at'
    let field := if hKind h = 1 then keyField k.key (paramsOf a key) else f
    quorum m tag c clsKeyCreate = .ok q → keyHeld m tag c hs h = .ok (a, key) →
    kstLive (projDur m) h = .ok e → e.successor = none → keyStateAt a (some e) c.stamp ≠ .retired →
    at'.toNat ≤ r.toNat → r.toNat ≤ (retirement a (some e)).toNat →
    openBlock m tag c hs (f64 c 0x20) (c.body.drop 48) = .ok (m1, k) →
    blockKey k 0 at' t64Never (zeroBytes 8) = .ok (kind, b, f) → aParam b = aParam a → aAlg b = aAlg a →
    aLen b = aLen a → aUsage b = aUsage a → kstRoom m (projDur m) c.tenant h = .ok () →
    createKey m1 (projDur m) c.tenant (hKind h) a1 field = .ok (effs, new) →
    budgetCopy (projDur m) h new c.stamp = .ok bud →
    Journals (.keyRotate t tag) t s tag c m1
      (q ++ effs ++ [.kst h { e with successor := some new, retire := if r = t64Never then e.retire else some r }] ++
        (if r = t64Never then [] else [.schedule h r]) ++ bud)
      (createRes new (kcvAny (hKind h) a1 field)) false)

/-- A key is exported, retired, destroyed or described, and a wrapping generation advanced (05 R144, R148 to R152,
R156; 09 R268). It says that these complete: keyExportBlock, keyRetire, keyDestroy, keyInfo, wrapAdvance. -/
def Obligations.KeyManagementCompletes : Prop :=
  (∀ (t tag : Nat) (s : State) (m m1 : Mod) (c : Cmd) (q : List Effect) (a k ap kp : Bytes),
    Starts 0x0103 t tag s m c → c.body.length = 24 → f8 c 0x10 ≤ 1 → allZero (fBytes c 0x11 7) = true →
    quorum m tag c clsKeyExport = .ok q →
    let hs := [f64 c 0, f64 c 8]
    useKey m tag c hs (f64 c 0) = .ok (a, k) → useKey m tag c hs (f64 c 8) = .ok (ap, kp) →
    keyIs ap ["K1"] ['E', 'B'] = .ok () → needCipher m = .ok () →
    (aExport a = chr 'S' ∨ (aExport a = chr 'E' ∧ aTrusted ap = true)) →
    let key := if aAlg a = chr 'R' ∨ aAlg a = chr 'E' then Config.asymOut k else symKey a k
    let blk := kbBuild (symKey ap kp)
      { usage := aUsage a, alg := aAlg a, mode := aMode a, kvn := aKvn a,
        export_ := if f8 c 0x10 = 1 then aExport a else chr 'N',
        opts := withPad (exportOpts a k ++ kbStamps a (symKey a k) ap (symKey ap kp) (trustedStamp m c)) ((drawn m 32).drop 16),
        key := key } (drawn m 32)
    blockUops tag (f64 c 8) true blk (kbPlain key (drawn m 32)).length (afterDraw m 32) = .ok m1 →
    if q = [] then Ends (.keyExportBlock t tag) t s tag m1 stOk (natLe 2 blk.length ++ blk)
    else Journals (.keyExportBlock t tag) t s tag c m1 q (natLe 2 blk.length ++ blk) false) ∧
  (∀ (t tag : Nat) (s : State) (m : Mod) (c : Cmd) (q : List Effect) (a k : Bytes) (e : KstEntry),
    Starts 0x0107 t tag s m c → c.body.length = 16 → beforeOk (f64 c 8) = true →
    let h := f64 c 0
    let at' := t64Trunc (f64 c 8)
    quorum m tag c clsKeyRetire = .ok q → keyHeld m tag c [h] h = .ok (a, k) → kstLive (projDur m) h = .ok e →
    c.stamp.toNat < at'.toNat → at'.toNat ≤ (retirement a (some e)).toNat → kstRoom m (projDur m) c.tenant h = .ok () →
    Journals (.keyRetire t tag) t s tag c m (q ++ [.kst h { e with retire := some at' }] ++ [.schedule h at']) [] false) ∧
  (∀ (t tag : Nat) (s : State) (m : Mod) (c : Cmd) (q : List Effect) (a k : Bytes) (e : KstEntry),
    Starts 0x0108 t tag s m c → c.body.length = 8 →
    let h := f64 c 0
    quorum m tag c clsKeyDestroy = .ok q → keyHeld m tag c [h] h = .ok (a, k) → kstLive (projDur m) h = .ok e →
    kstRoom m (projDur m) c.tenant h = .ok () →
    Journals (.keyDestroy t tag) t s tag c m (q ++ [.kst h { e with destroyed := some 0 }, .zeroKey h, .budget h none])
      [] false) ∧
  (∀ (t tag : Nat) (s : State) (m : Mod) (c : Cmd) (a k : Bytes) (e : KstEntry),
    Starts 0x0109 t tag s m c → c.body.length = 8 →
    let h := f64 c 0
    keyHeld m tag c [h] h = .ok (a, k) → kstLive m.dur h = .ok e →
    Ends (.keyInfo t tag) t s tag m stOk
      (a ++ [byteOf (keyStateAt a (some e) c.stamp).code] ++ kcvAny (hKind h) a k ++ zeroBytes 4 ++
        le64 (e.successor.getD 0) ++ le64 (retirement a (some e)))) ∧
  (∀ (t tag : Nat) (s : State) (m : Mod) (c : Cmd) (q : List Effect) (trk : Bytes),
    Starts 0x010A t tag s m c → c.body = [] →
    let x := tenantIn (projDur m) c.tenant
    quorum m tag c clsTenantRoot = .ok q → x.trk = some trk → x.twkGen ≠ 0xFFFF →
    Journals (.wrapAdvance t tag) t s tag c m (q ++ [.tenant c.tenant { x with twkGen := x.twkGen + 1, sealedCnt := 0 }])
      (natLe 2 (x.twkGen + 1)) false)

/-! ### Payments (chapter 9) -/

/-- A PIN block is translated, by handle or by route, from a stored or a DUKPT key: the block opened is checked, and
the PIN leaves under the output key with fresh fill; a block that fails its check ends with ST_PIN_FORMAT (09 R246 to
R248, R260). In a routed form the route's record is in the command's memory from its first stage (07 R203, 09 R243).
Each step under a key is a micro-operation that KCH admits (`pinIn`, `pinOut`, `dukptLine`; 08 R217). It says that
these complete: pinTranslateRouted, pinTranslate, dukptPinTranslateRouted, dukptPinTranslate. -/
def Obligations.PinTranslationCompletes : Prop :=
  (∀ (routed : Bool) (t tag : Nat) (s : State) (m m1 : Mod) (c : Cmd) (pan : List Nat) (blk ai ki ao ko : Bytes) (ho : W64),
    Starts (if routed then 0x0202 else 0x0201) t tag s m c → c.body.length = 48 →
    let inF := f8 c 0x10
    let outF := f8 c 0x11
    let x := c.mem.headD []
    let hOut := if routed then recPinKey x else f64 c 8
    let follow := routed || f8 c 0x13 == 1
    let i : Instr := if routed then .pinTranslateRouted t tag else .pinTranslate t tag
    fmtDefined inF = true → fmtDefined outF = true → panOf c 0x12 0x16 = .ok pan →
    f8 c 0x13 ≤ (if routed then 0 else 1) → allZero (fBytes c 0x14 2) = true → (routed = true → f64 c 8 = 0 ∧ c.stage ≠ 0) →
    pinField c inF 0x20 = .ok blk → fmtAllowed inF outF = .ok () →
    useKey m tag c [f64 c 0, reachedOf c hOut follow] (f64 c 0) = .ok (ai, ki) →
    useFollowed m tag c [f64 c 0] hOut follow = .ok (ho, ao, ko) →
    keyIs ai ["P0"] ['D', 'B'] = .ok () → fmtKey ai inF = .ok () → keyIs ao ["P0"] ['E', 'B'] = .ok () →
    fmtKey ao outF = .ok () → needCipher m = .ok () →
    pinIn tag (lineNo m (f64 c 0)) 0 inF (symKey ai ki) pan blk m = .ok m1 →
    (pinOf inF (symKey ai ki) pan blk = none → Ends i t s tag m1 stPinFormat []) ∧
    ∀ (pin : List Nat) (m2 : Mod) (out : Bytes), pinOf inF (symKey ai ki) pan blk = some pin →
      pinOut tag (lineNo m1 ho) outF (symKey ao ko) pan pin m1 = .ok (m2, out) →
      out = pinSeal outF (symKey ao ko) pan (pfBuild outF pin (if outF = 0 then zeroBytes 16 else drawn m1 16)) ∧
        Ends i t s tag m2 stOk (pinResult out ao routed follow x)) ∧
  (∀ (routed : Bool) (t tag l : Nat) (s : State) (m m1 m2 : Mod) (c : Cmd) (pan : List Nat) (blk ab kb ao ko : Bytes)
      (ho : W64),
    Starts (if routed then 0x0302 else 0x0301) t tag s m c → c.body.length = 64 →
    let v := f8 c 0x10
    let inF := f8 c 0x11
    let outF := f8 c 0x12
    let ksn := fBytes c 0x18 12
    let x := c.mem.headD []
    let hOut := if routed then recPinKey x else f64 c 8
    let follow := routed || f8 c 0x14 == 1
    let k := dukptKey v (aUsage ab == ascii "B0") (symKey ab kb) ksn false
    let i : Instr := if routed then .dukptPinTranslateRouted t tag else .dukptPinTranslate t tag
    ((v = 1 ∧ (inF = 0 ∨ inF = 1 ∨ inF = 3)) ∨ (v = 2 ∧ inF = 4)) → fmtDefined outF = true →
    panOf c 0x13 0x26 = .ok pan → f8 c 0x14 ≤ (if routed then 0 else 1) → allZero (fBytes c 0x15 3) = true →
    allZero (fBytes c 0x24 2) = true → (routed = true → f64 c 8 = 0 ∧ c.stage ≠ 0) → ksnOk v ksn false = true →
    pinField c inF 0x30 = .ok blk → fmtAllowed inF outF = .ok () →
    useKey m tag c [f64 c 0, reachedOf c hOut follow] (f64 c 0) = .ok (ab, kb) →
    useFollowed m tag c [f64 c 0] hOut follow = .ok (ho, ao, ko) →
    dukptBase ab kb v ksn false = .ok () → keyIs ao ["P0"] ['E', 'B'] = .ok () → fmtKey ao outF = .ok () →
    needCipher m = .ok () → dukptLine tag (f64 c 0) ab (symKey ab kb) v ksn .pin m = .ok (m1, l) →
    pinIn tag l 0 inF k pan blk m1 = .ok m2 →
    (pinOf inF k pan blk = none → Ends i t s tag m2 stPinFormat []) ∧
    ∀ (pin : List Nat) (m3 : Mod) (out : Bytes), pinOf inF k pan blk = some pin →
      pinOut tag (lineNo m2 ho) outF (symKey ao ko) pan pin m2 = .ok (m3, out) →
      out = pinSeal outF (symKey ao ko) pan (pfBuild outF pin (if outF = 0 then zeroBytes 16 else drawn m2 16)) ∧
        Ends i t s tag m3 stOk (pinResult out ao routed follow x))

/-- A PIN is verified by offset or reference, changed by offset or reference, and its offset generated: the attempt is
reserved in the verification key's budget first, handed back where the PIN matches, and counted where it does not (09
R249 to R253). It says that these complete: pinVerifyOffset, pinVerifyReference, pinChange, pinOffsetGenerate. -/
def Obligations.PinVerificationCompletes : Prop :=
  (∀ (t tag : Nat) (s : State) (m m1 m2 : Mod) (c : Cmd) (pan off : List Nat) (blk ak kk av kv : Bytes) (b : Budget),
    Starts 0x0203 t tag s m c → offsetBody c = .ok (pan, blk) → 4 ≤ f8 c 0x12 → f8 c 0x12 ≤ 12 →
    bcdOf (fBytes c 0x2A 6) (f8 c 0x12) = some off →
    let hs := [f64 c 0, f64 c 8]
    let f := f8 c 0x10
    useKey m tag c hs (f64 c 0) = .ok (ak, kk) → useKey m tag c hs (f64 c 8) = .ok (av, kv) →
    keyIs ak ["P0"] ['D', 'B'] = .ok () → fmtKey ak f = .ok () → keyIs av ["V1"] ['V', 'C'] = .ok () →
    needCipher m = .ok () → reserve m (f64 c 8) c.stamp = .ok b →
    pinIn tag (lineNo m (f64 c 0)) 0 f (symKey ak kk) pan blk m = .ok m1 →
    match pinOf f (symKey ak kk) pan blk with
    | none => Counts (.pinVerifyOffset t tag) t s tag m1 (f64 c 8) b stVerifyFail
    | some pin =>
      pvkUnder tag kv (fBytes c 0x18 8) m1 = .ok m2 →
      if decMatch av kv (fBytes c 0x18 8) off pin then Ends (.pinVerifyOffset t tag) t s tag (returned m2 (f64 c 8) b) stOk []
      else Counts (.pinVerifyOffset t tag) t s tag m2 (f64 c 8) b stPinMismatch) ∧
  (∀ (t tag : Nat) (s : State) (m m1 m2 : Mod) (c : Cmd) (pan : List Nat) (blk ref ak kk ar kr : Bytes) (b : Budget),
    Starts 0x0204 t tag s m c → c.body.length = 64 →
    let f := f8 c 0x10
    let g := f8 c 0x11
    let hs := [f64 c 0, f64 c 8]
    fmtDefined f = true → fmtDefined g = true → panOf c 0x12 0x16 = .ok pan → allZero (fBytes c 0x13 3) = true →
    pinField c f 0x20 = .ok blk → pinField c g 0x30 = .ok ref →
    useKey m tag c hs (f64 c 0) = .ok (ak, kk) → useKey m tag c hs (f64 c 8) = .ok (ar, kr) →
    keyIs ak ["P0"] ['D', 'B'] = .ok () → fmtKey ak f = .ok () → keyIs ar ["P0"] ['D', 'B'] = .ok () →
    fmtKey ar g = .ok () → needCipher m = .ok () → reserve m (f64 c 8) c.stamp = .ok b →
    pinIn tag (lineNo m (f64 c 0)) 0 f (symKey ak kk) pan blk m = .ok m1 →
    pinIn tag (lineNo m1 (f64 c 8)) 1 g (symKey ar kr) pan ref m1 = .ok m2 →
    match pinOf f (symKey ak kk) pan blk with
    | none => Counts (.pinVerifyReference t tag) t s tag m2 (f64 c 8) b stVerifyFail
    | some pin =>
      match pinOf g (symKey ar kr) pan ref with
      | none => Counts (.pinVerifyReference t tag) t s tag m2 (f64 c 8) b stVerifyFail
      | some want =>
        if pin = want then Ends (.pinVerifyReference t tag) t s tag (returned m2 (f64 c 8) b) stOk []
        else Counts (.pinVerifyReference t tag) t s tag m2 (f64 c 8) b stPinMismatch) ∧
  (∀ (t tag : Nat) (s : State) (m m1 m2 m3 : Mod) (c : Cmd) (pan off : List Nat) (old new ref ak kk av kv : Bytes)
      (b : Budget),
    Starts 0x0205 t tag s m c → c.body.length = 96 → f8 c 0x10 = 1 →
    let f := f8 c 0x11
    let hs := [f64 c 0, f64 c 8]
    let ki := symKey ak kk
    let vd := fBytes c 0x18 8
    fmtDefined f = true → f8 c 0x14 = 0 → panOf c 0x12 0x20 = .ok pan →
    allZero (fBytes c 0x15 3) = true → 4 ≤ f8 c 0x13 → f8 c 0x13 ≤ 12 → allZero (fBytes c 0x50 16) = true →
    bcdOf (fBytes c 0x2A 6) (f8 c 0x13) = some off → pinField c f 0x30 = .ok old → pinField c f 0x40 = .ok new →
    pinField c 4 0x50 = .ok ref →
    useKey m tag c hs (f64 c 0) = .ok (ak, kk) → useKey m tag c hs (f64 c 8) = .ok (av, kv) →
    keyIs ak ["P0"] ['D', 'B'] = .ok () → fmtKey ak f = .ok () → keyIs av ["V1"] ['C'] = .ok () →
    needCipher m = .ok () → reserve m (f64 c 8) c.stamp = .ok b →
    pinIn tag (lineNo m (f64 c 0)) 0 f ki pan old m = .ok m1 →
    match pinOf f ki pan old with
    | none => Counts (.pinChange t tag) t s tag m1 (f64 c 8) b stVerifyFail
    | some pin =>
      pvkUnder tag kv vd m1 = .ok m2 →
      let m4 := returned m2 (f64 c 8) b
      if decMatch av kv vd off pin then
        (pinIn tag (lineNo m4 (f64 c 0)) 0 f ki pan new m4 = .ok m3 →
          match pinOf f ki pan new with
          | none => Ends (.pinChange t tag) t s tag m3 stPinFormat []
          | some pinNew => Ends (.pinChange t tag) t s tag m3 stOk
            ([byteOf pinNew.length, 0] ++ bcdField 6 (decOffset av kv vd pinNew)))
      else Counts (.pinChange t tag) t s tag m2 (f64 c 8) b stPinMismatch) ∧
  (∀ (t tag : Nat) (s : State) (m m1 m2 m3 : Mod) (c : Cmd) (pan : List Nat) (old new ref ak kk av kv : Bytes)
      (b : Budget),
    Starts 0x0205 t tag s m c → c.body.length = 96 → f8 c 0x10 = 2 →
    let f := f8 c 0x11
    let g := f8 c 0x14
    let hs := [f64 c 0, f64 c 8]
    let ki := symKey ak kk
    let kw := symKey av kv
    fmtDefined f = true → fmtDefined g = true → panOf c 0x12 0x20 = .ok pan →
    allZero (fBytes c 0x15 3) = true → f8 c 0x13 = 0 → allZero (fBytes c 0x18 8) = true → allZero (fBytes c 0x2A 6) = true →
    pinField c f 0x30 = .ok old → pinField c f 0x40 = .ok new → pinField c g 0x50 = .ok ref → fmtAllowed f g = .ok () →
    useKey m tag c hs (f64 c 0) = .ok (ak, kk) → useKey m tag c hs (f64 c 8) = .ok (av, kv) →
    keyIs ak ["P0"] ['D', 'B'] = .ok () → fmtKey ak f = .ok () → keyIs av ["P0"] ['B'] = .ok () → fmtKey av g = .ok () →
    needCipher m = .ok () → reserve m (f64 c 8) c.stamp = .ok b →
    pinIn tag (lineNo m (f64 c 0)) 0 f ki pan old m = .ok m1 →
    pinIn tag (lineNo m1 (f64 c 8)) 1 g kw pan ref m1 = .ok m2 →
    match pinOf f ki pan old with
    | none => Counts (.pinChange t tag) t s tag m2 (f64 c 8) b stVerifyFail
    | some pin =>
      match pinOf g kw pan ref with
      | none => Counts (.pinChange t tag) t s tag m2 (f64 c 8) b stVerifyFail
      | some want =>
        let m4 := returned m2 (f64 c 8) b
        if pin = want then
          (pinIn tag (lineNo m4 (f64 c 0)) 0 f ki pan new m4 = .ok m3 →
            match pinOf f ki pan new with
            | none => Ends (.pinChange t tag) t s tag m3 stPinFormat []
            | some pinNew => ∀ (m5 : Mod) (out : Bytes), pinOut tag (lineNo m3 (f64 c 8)) g kw pan pinNew m3 = .ok (m5, out) →
              Ends (.pinChange t tag) t s tag m5 stOk out)
        else Counts (.pinChange t tag) t s tag m2 (f64 c 8) b stPinMismatch) ∧
  (∀ (t tag : Nat) (s : State) (m m1 m2 : Mod) (c : Cmd) (pan : List Nat) (blk ak kk av kv : Bytes),
    Starts 0x0206 t tag s m c → offsetBody c = .ok (pan, blk) → allZero (fBytes c 0x2A 6) = true →
    let hs := [f64 c 0, f64 c 8]
    let f := f8 c 0x10
    useKey m tag c hs (f64 c 0) = .ok (ak, kk) → useKey m tag c hs (f64 c 8) = .ok (av, kv) →
    keyIs ak ["P0"] ['D', 'B'] = .ok () → fmtKey ak f = .ok () → keyIs av ["V1"] ['G', 'C'] = .ok () →
    needCipher m = .ok () → pinIn tag (lineNo m (f64 c 0)) 0 f (symKey ak kk) pan blk m = .ok m1 →
    match pinOf f (symKey ak kk) pan blk with
    | none => Ends (.pinOffsetGenerate t tag) t s tag m1 stPinFormat []
    | some pin => pvkUnder tag kv (fBytes c 0x18 8) m1 = .ok m2 → Ends (.pinOffsetGenerate t tag) t s tag m2 stOk
      ([byteOf pin.length, 0] ++ bcdField 6 (decOffset av kv (fBytes c 0x18 8) pin)))

/-- A rate budget is set under its quorum, and read back brought forward to the command's stamp (09 R252, R256); what
a set leaves of a budget that exists is its commit's effect: the count stays, or starts again with a new window. It
says that these complete: pinBudgetSet, pinBudgetGet. -/
def Obligations.PinBudgetsComplete : Prop :=
  (∀ (t tag : Nat) (s : State) (m : Mod) (c : Cmd) (q : List Effect) (a k : Bytes),
    Starts 0x0210 t tag s m c → c.body.length = 16 →
    let h := f64 c 0
    let limit := f32 c 8
    let window := f32 c 12
    (limit = 0 ∨ (1 ≤ window ∧ window ≤ 86400)) → quorum m tag c clsPinBudget = .ok q →
    useKey m tag c [h] h = .ok (a, k) →
    (aUsage a = ascii "V1" ∨ (aUsage a = ascii "P0" ∧ (aMode a = chr 'D' ∨ aMode a = chr 'B'))) →
    (tblFind (projDur m).bud h.toNat = none → limit ≠ 0 ∧ (projDur m).bud.length < budgetLimit) →
    Journals (.pinBudgetSet t tag) t s tag c m
      (q ++ [if limit = 0 then .budget h none else .budgetSet h limit window c.stamp]) [] false) ∧
  (∀ (d : Durable) (h stamp : W64) (limit window : Nat), 1 ≤ window →
    ∃ b : Budget, tblFind (effDur d (.budgetSet h limit window stamp)).bud h.toNat = some b ∧
      (∀ old, tblFind d.bud h.toNat = some old → old.window = window → b = { old with limit := limit }) ∧
      ((∀ old, tblFind d.bud h.toNat = some old → old.window ≠ window) →
        b.limit = limit ∧ b.window = window ∧ b.count = 0 ∧ b.current = windowOf b stamp ∧ b.spent = none)) ∧
  (∀ (t tag : Nat) (s : State) (m : Mod) (c : Cmd) (a k : Bytes) (b : Budget),
    Starts 0x0211 t tag s m c → c.body.length = 8 → useKey m tag c [f64 c 0] (f64 c 0) = .ok (a, k) →
    tblFind m.dur.bud (f64 c 0).toNat = some b →
    let x := broughtForward b c.stamp
    Ends (.pinBudgetGet t tag) t s tag m stOk
      (natLe 4 x.limit ++ natLe 4 x.window ++ le64 (BitVec.ofNat 64 (x.current * x.window * 2 ^ 30)) ++
        natLe 4 (if windowSpent x then x.limit else x.count) ++ zeroBytes 4))

/-- MACs are generated and verified, under a handle, a route's key with one more try under its successor, or a DUKPT
key; an initial key leaves in a key block of its own (09 R260, R261). It says that these complete: dukptMacVerify,
dukptIkExport, macGenerate, macVerify, macVerifyRouted. -/
def Obligations.MacCommandsComplete : Prop :=
  (∀ (t tag l : Nat) (s : State) (m m1 m2 : Mod) (c : Cmd) (ab kb : Bytes),
    Starts 0x0303 t tag s m c → c.body.length = 0x30 + f16 c 0x0A →
    let v := f8 c 8
    let n := f8 c 9
    let ksn := fBytes c 0x10 12
    let d := c.body.drop 0x30
    (v = 1 ∨ v = 2) → 4 ≤ n → n ≤ (if v = 1 then 8 else 16) → 1 ≤ f16 c 0x0A → f16 c 0x0A ≤ 4000 →
    allZero (fBytes c 0x0C 4) = true → allZero (fBytes c 0x1C 4) = true → ksnOk v ksn false = true →
    useKey m tag c [f64 c 0] (f64 c 0) = .ok (ab, kb) → dukptBase ab kb v ksn false = .ok () → needCipher m = .ok () →
    let k := dukptKey v (aUsage ab == ascii "B0") (symKey ab kb) ksn true
    let mac := if v = 2 then cmac .aes k d else iso9797Alg3 k (padMethod1 8 d)
    dukptLine tag (f64 c 0) ab (symKey ab kb) v ksn .mac m = .ok (m1, l) →
    macUnder tag l (ascii (if v = 2 then "M6" else "M3")) (aAlg ab) 1 d.length mac m1 = .ok m2 →
    Ends (.dukptMacVerify t tag) t s tag m2 (if mac.take n = fBytes c 0x20 n then stOk else stVerifyFail) []) ∧
  (∀ (t tag : Nat) (s : State) (m m0 m1 : Mod) (c : Cmd) (q : List Effect) (ab kb ap kp : Bytes),
    Starts 0x0310 t tag s m c → c.body.length = 40 →
    let v := f8 c 0x10
    let ksn := fBytes c 0x18 12
    let hs := [f64 c 0, f64 c 8]
    (v = 1 ∨ v = 2) → (f8 c 0x11 = chr 'E' ∨ f8 c 0x11 = chr 'N') → allZero (fBytes c 0x14 4) = true →
    allZero (fBytes c 0x24 4) = true → ksnOk v ksn true = true → quorum m tag c clsKeyExport = .ok q →
    useKey m tag c hs (f64 c 0) = .ok (ab, kb) → useKey m tag c hs (f64 c 8) = .ok (ap, kp) →
    dukptBase ab kb v ksn true = .ok () → keyIs ap ["K1"] ['E', 'B'] = .ok () → aTrusted ap = true →
    needCipher m = .ok () →
    let ik := dukptIk v (symKey ab kb) ksn
    under tag (lineNo m (f64 c 0)) .ecbEnc (cipherOf ab) (if v = 2 then aLen ab / 128 else 2) (.scratch 0) ik m = .ok m0 →
    let fill := drawn m0 32
    let blk := kbBuild (symKey ap kp)
      { usage := ascii "B1", alg := aAlg ab, mode := chr 'X', kvn := fBytes c 0x12 2, export_ := f8 c 0x11,
        opts := withPad [(ascii (if v = 2 then "IK" else "KS"), hexAscii (ksnId v ksn))] (fill.drop 16),
        key := ik } fill
    blockUops tag (f64 c 8) true blk (kbPlain ik fill).length (afterDraw m0 32) = .ok m1 →
    if q = [] then Ends (.dukptIkExport t tag) t s tag m1 stOk (natLe 2 blk.length ++ blk)
    else Journals (.dukptIkExport t tag) t s tag c m1 q (natLe 2 blk.length ++ blk) false) ∧
  (∀ (t tag : Nat) (s : State) (m m1 : Mod) (c : Cmd) (a k : Bytes) (h : W64),
    Starts 0x0401 t tag s m c → macBody c false false = .ok () →
    useFollowed m tag c [] (f64 c 0) (f8 c 0x0D == 1) = .ok (h, a, k) →
    keyIs a ["M1", "M3", "M6"] ['G', 'C'] = .ok () → macLimits a (f8 c 8) (f8 c 9) = .ok () → needCipher m = .ok () →
    macBodyUnder tag c h a k m = .ok m1 →
    Ends (.macGenerate t tag) t s tag m1 stOk
      ((macOf (aUsage a) (aAlg a) (symKey a k) (f8 c 9) (c.body.drop 0x30)).take (f8 c 8) ++
        (if f8 c 0x0D = 1 then aKvn a else []))) ∧
  (∀ (t tag : Nat) (s : State) (m m1 : Mod) (c : Cmd) (a k : Bytes),
    Starts 0x0402 t tag s m c → macBody c false true = .ok () →
    useKey m tag c [f64 c 0] (f64 c 0) = .ok (a, k) → keyIs a ["M1", "M3", "M6"] ['V', 'C'] = .ok () →
    macLimits a (f8 c 8) (f8 c 9) = .ok () → needCipher m = .ok () → macBodyUnder tag c (f64 c 0) a k m = .ok m1 →
    Ends (.macVerify t tag) t s tag m1 (if macOk c a k then stOk else stVerifyFail) []) ∧
  (∀ (t tag : Nat) (s : State) (m m1 : Mod) (c : Cmd) (pan : List Nat) (a k : Bytes),
    Starts 0x0403 t tag s m c → macBody c true true = .ok () → panOf c 0x0C 0x20 = .ok pan → c.stage ≠ 0 →
    let x := c.mem.headD []
    let h := recMacKey x
    useKey m tag c [h] h = .ok (a, k) → keyIs a ["M1", "M3", "M6"] ['V', 'C'] = .ok () →
    macLimits a (f8 c 8) (f8 c 9) = .ok () → needCipher m = .ok () → macBodyUnder tag c h a k m = .ok m1 →
    (macOk c a k = true → Ends (.macVerifyRouted t tag) t s tag m1 stOk (recIssuer x)) ∧
    (macOk c a k = false → successorOf m h c.stamp = none → Ends (.macVerifyRouted t tag) t s tag m1 stVerifyFail []) ∧
    ∀ (n : W64) (a2 k2 : Bytes), macOk c a k = false → successorOf m h c.stamp = some n →
      keyHeld m tag c [h, n] n = .ok (a2, k2) →
      ((keyUse m n a2 c.stamp).isSome = true → Ends (.macVerifyRouted t tag) t s tag m1 stVerifyFail []) ∧
      ∀ m2 : Mod, keyUse m n a2 c.stamp = none → macBodyUnder tag c n a2 k2 m1 = .ok m2 →
        Ends (.macVerifyRouted t tag) t s tag m2 (if macOk c a2 k2 then stOk else stVerifyFail)
          (if macOk c a2 k2 then recIssuer x else []))

/-- EMV cryptograms are verified and answered, and script MACs and data made, under the card's session key, in the
DERIVED line the command took for it (09 R243, R262, R263). Card security codes are generated and verified, and card
numbers tokenised and back: the digits kept stay, those between are encrypted under FF1 (09 R264, R265). It says that
these complete: emvArqcVerify, emvScriptMac, emvScriptEncrypt, cscGenerate, cscVerify, detokenise, tokenise. -/
def Obligations.EmvCodesAndTokensComplete : Prop :=
  ((∀ (t tag n : Nat) (s : State) (m m1 m2 : Mod) (c : Cmd) (aes : Bool) (sk d : Bytes),
     Starts 0x0501 t tag s m c →
     emvCommon m tag c "E0" (if f8 c 0x0D = 1 then .macArpc else .mac) = .ok (m1, n, aes, sk, d) →
     let arqc := fBytes c 0x1C 8
     let d2 := arqc ++ fBytes c 0x24 4 ++ fBytes c 0x28 (f8 c 0x0E)
     let arpc := tdesEnc sk (xorBytes arqc (fBytes c 0x24 2 ++ zeroBytes 6))
     emvMacUnder tag n aes sk (f8 c 0x0C) d m1 = .ok m2 →
     let ok := (emvMac aes sk (f8 c 0x0C) d).take 8 = arqc
     (¬ok → Ends (.emvArqcVerify t tag) t s tag m2 stVerifyFail []) ∧
     (ok → f8 c 0x0D = 0 → Ends (.emvArqcVerify t tag) t s tag m2 stOk []) ∧
     (∀ (m3 : Mod), ok → f8 c 0x0D = 1 → under tag n .ecbEnc .tdes 1 .data arpc m2 = .ok m3 →
       Ends (.emvArqcVerify t tag) t s tag m3 stOk arpc) ∧
     ∀ (m3 : Mod), ok → f8 c 0x0D = 2 → emvMacUnder tag n aes sk 2 d2 m2 = .ok m3 →
       Ends (.emvArqcVerify t tag) t s tag m3 stOk ((emvMac aes sk 2 d2).take 4)) ∧
   (∀ (t tag n : Nat) (s : State) (m m1 m2 : Mod) (c : Cmd) (aes : Bool) (sk d : Bytes),
     Starts 0x0502 t tag s m c → emvCommon m tag c "E2" .mac = .ok (m1, n, aes, sk, d) →
     emvMacUnder tag n aes sk (f8 c 0x0C) d m1 = .ok m2 →
     Ends (.emvScriptMac t tag) t s tag m2 stOk ((emvMac aes sk (f8 c 0x0C) d).take (f8 c 0x0F))) ∧
   (∀ (t tag n : Nat) (s : State) (m m1 m2 : Mod) (c : Cmd) (aes : Bool) (sk d : Bytes),
     Starts 0x0503 t tag s m c → emvCommon m tag c "E1" .conf = .ok (m1, n, aes, sk, d) →
     let k : Cipher := if aes then .aes else .tdes
     let out := cbcEnc k sk (zeroBytes k.blockLen) d
     under tag n .cbcEnc k (d.length / k.blockLen) .data out m1 = .ok m2 →
     Ends (.emvScriptEncrypt t tag) t s tag m2 stOk out)) ∧
  ((∀ (t tag : Nat) (s : State) (m m2 : Mod) (c : Cmd) (pan exp svc : List Nat) (a k : Bytes),
     Starts 0x0601 t tag s m c → c.body.length = 32 → panOf c 8 0x10 = .ok pan → 3 ≤ f8 c 9 → f8 c 9 ≤ 5 →
     bcdOf (fBytes c 0x0A 2) 4 = some exp → bcdOf (fBytes c 0x0C 2) 3 = some svc → allZero (fBytes c 0x0E 2) = true →
     allZero (fBytes c 0x1D 3) = true → allZero (fBytes c 0x1A 3) = true →
     useKey m tag c [f64 c 0] (f64 c 0) = .ok (a, k) → keyIs a ["C0"] ['G', 'C'] = .ok () → needCipher m = .ok () →
     let line := copied m tag (chr 'T') .mac (symKey a k)
     under tag line.2 .alg3 .tdes 2 .data [] line.1 = .ok m2 →
     Ends (.cscGenerate t tag) t s tag m2 stOk (bcdField 3 (cscOf (symKey a k) (pan ++ exp ++ svc) (f8 c 9)))) ∧
   (∀ (t tag : Nat) (s : State) (m m2 : Mod) (c : Cmd) (pan exp svc want : List Nat) (a k : Bytes),
     Starts 0x0602 t tag s m c → c.body.length = 32 → panOf c 8 0x10 = .ok pan → 3 ≤ f8 c 9 → f8 c 9 ≤ 5 →
     bcdOf (fBytes c 0x0A 2) 4 = some exp → bcdOf (fBytes c 0x0C 2) 3 = some svc → allZero (fBytes c 0x0E 2) = true →
     allZero (fBytes c 0x1D 3) = true → bcdOf (fBytes c 0x1A 3) (f8 c 9) = some want →
     useKey m tag c [f64 c 0] (f64 c 0) = .ok (a, k) → keyIs a ["C0"] ['V', 'C'] = .ok () → needCipher m = .ok () →
     let line := copied m tag (chr 'T') .mac (symKey a k)
     under tag line.2 .alg3 .tdes 2 .data [] line.1 = .ok m2 →
     Ends (.cscVerify t tag) t s tag m2
       (if cscOf (symKey a k) (pan ++ exp ++ svc) (f8 c 9) = want then stOk else stVerifyFail) []) ∧
   (∀ (detok : Bool) (t tag : Nat) (s : State) (m m1 : Mod) (c : Cmd) (d : List Nat) (a k : Bytes),
     Starts (if detok then 0x0702 else 0x0701) t tag s m c → c.body.length = 48 → panOf c 8 0x10 = .ok d →
     f8 c 9 ≤ 8 → f8 c 0x0A ≤ 4 → f8 c 0x0B ≤ 16 → allZero (fBytes c 0x0C 4) = true → allZero (fBytes c 0x1A 6) = true →
     f8 c 9 + f8 c 0x0A + 6 ≤ d.length → (detok = true → c.sealKey.isSome = true) →
     useKey m tag c [f64 c 0] (f64 c 0) = .ok (a, k) →
     keyIs a ["90"] (if detok then ['D', 'B'] else ['E', 'B']) = .ok () → needCipher m = .ok () →
     let mid := (d.drop (f8 c 9)).take (d.length - f8 c 9 - f8 c 0x0A)
     let tweak := fBytes c 0x20 (f8 c 0x0B)
     let out := if detok then ff1Dec (symKey a k) tweak mid else ff1Enc (symKey a k) tweak mid
     let i : Instr := if detok then .detokenise t tag else .tokenise t tag
     under tag (lineNo m (f64 c 0)) (if detok then .ff1Dec else .ff1Enc) .aes (ff1Blocks tweak.length mid.length)
       (if detok then .scratch 0 else .data) (bcdField 10 out) m = .ok m1 →
     Ends i t s tag m1 stOk (bcdField 10 (d.take (f8 c 9) ++ out ++ d.drop (d.length - f8 c 0x0A)))))

/-! ### Bulk data and streams (chapter 8) -/

/-- A bulk command whose body and key hold takes a job slot or waits for one; when its job has ended its finishing
dispatch gives the job's status and result. A job that reads host memory needs HIF (02 R36; 08 R222, R223, R227).
Random bytes come from D1's sequence, counted as one request of it (05 R161). It says that these complete:
aeadEncrypt, aeadDecrypt, cipherEncrypt, cipherDecrypt, hmacGenerate, hmacVerify, digest, randomGet. -/
def Obligations.BulkJobsComplete : Prop :=
  (∀ (t tag : Nat) (s : State) (m : Mod) (c : Cmd),
     (∀ (a k : Bytes) (op : Nat) (i : Instr) (dec : Bool),
       ((op, i, dec) = (0x0801, .aeadEncrypt t tag, false) ∨ (op, i, dec) = (0x0802, .aeadDecrypt t tag, true) ∨
         (op, i, dec) = (0x0803, .cipherEncrypt t tag, false) ∨ (op, i, dec) = (0x0804, .cipherDecrypt t tag, true)) →
       Starts op t tag s m c → c.outcome = none → jobBody c = .ok () →
       useKey m tag c [f64 c 0] (f64 c 0) = .ok (a, k) → keyIs a ["D0"] (if dec then ['B', 'D'] else ['B', 'E']) = .ok () →
       aAlg a = chr 'A' → needCipher m = .ok () → (jobReads c = true → blkServes m .hif = true) →
       AsksJob i t s tag c m id) ∧
     (∀ (a k : Bytes) (op : Nat) (i : Instr) (ver : Bool),
       ((op, i, ver) = (0x0A02, .hmacGenerate t tag, false) ∨ (op, i, ver) = (0x0A03, .hmacVerify t tag, true)) →
       Starts op t tag s m c → c.outcome = none → digestBody c = .ok () →
       useKey m tag c [f64 c 0] (f64 c 0) = .ok (a, k) → keyIs a ["M7"] (if ver then ['V', 'C'] else ['G', 'C']) = .ok () →
       f8 c 8 ≤ (hmacAlg a).outLen → needBlk m .dge = .ok () → (jobReads c = true → blkServes m .hif = true) →
       AsksJob i t s tag c m id) ∧
     (Starts 0x0A01 t tag s m c → c.outcome = none → digestBody c = .ok () → needBlk m .dge = .ok () →
       (jobReads c = true → blkServes m .hif = true) → AsksJob (.digest t tag) t s tag c m id) ∧
     (∀ (op : Nat) (i : Instr) (st : W16) (res : Bytes),
       ((op, i) = (0x0801, .aeadEncrypt t tag) ∨ (op, i) = (0x0802, .aeadDecrypt t tag) ∨
         (op, i) = (0x0803, .cipherEncrypt t tag) ∨ (op, i) = (0x0804, .cipherDecrypt t tag) ∨
         (op, i) = (0x0A01, .digest t tag) ∨ (op, i) = (0x0A02, .hmacGenerate t tag) ∨ (op, i) = (0x0A03, .hmacVerify t tag)) →
       Starts op t tag s m c → c.outcome = some (st, res) → Ends i t s tag m st res)) ∧
  (∀ (t tag : Nat) (s : State) (m : Mod) (c : Cmd),
     Starts 0x0B01 t tag s m c → c.body.length = 8 → 1 ≤ f16 c 0 → f16 c 0 ≤ 4048 → allZero (fBytes c 2 6) = true →
     m.rng.halted = false →
     Ends (.randomGet t tag) t s tag (afterD1 m (f16 c 0)) stOk (drawn m (f16 c 0)))

/-- A stream's command on a context in the right state marks it BUSY and asks for a job; its finishing dispatch leaves
the context as its job left it, or as it was. An abort frees the context and stops the command whose job holds it (08
R229 to R231). It says that these complete: streamOpen, streamUpdate, streamFinal, streamAbort. -/
def Obligations.StreamCommandsComplete : Prop :=
  ∀ (t tag : Nat) (s : State) (m : Mod) (c : Cmd),
    let x := f8 c 0
    let y := strOf m c.tenant x
    (∀ (a k : Bytes), Starts 0x0810 t tag s m c → c.outcome = none → c.body.length = 48 →
      x ≤ 7 → 1 ≤ f8 c 1 → f8 c 1 ≤ 3 → f8 c 2 ≤ 1 → f8 c 5 ≤ (if f8 c 1 = 3 then 1 else 0) →
      (f8 c 1 = 3 → f8 c 2 = 0) → allZero (fBytes c 6 2) = true → allZero (fBytes c 0x24 4) = true →
      modeLimits (f8 c 1) (f8 c 3) (f8 c 4) 0 = .ok () →
      (f8 c 1 = 3 ∨ f32 c 0x20 = 0 ∧ f8 c 4 = 0) → f32 c 0x20 ≤ 65279 → (f32 c 0x20 = 0 ↔ f64 c 0x28 = 0) →
      (f8 c 5 = 1 ∨ allZero (sliceOf c.body (0x10 + f8 c 3) (16 - f8 c 3)) = true) → y.state = 0 →
      useKey m tag c [f64 c 8] (f64 c 8) = .ok (a, k) → bulkKey a (f8 c 2 == 1) = .ok () → needCipher m = .ok () →
      (jobReads c = true → blkServes m .hif = true) →
      AsksJob (.streamOpen t tag) t s tag c m (fun m => updStr m c.tenant x (fun y => { y with state := 2 }))) ∧
    (∀ (a k : Bytes) (op n : Nat) (i : Instr),
      ((op, i, n) = (0x0811, .streamUpdate t tag, f32 c 0x10) ∧ c.body.length = 40 ∧ allZero (fBytes c 1 7) = true ∧
          16 ≤ n ∧ n ≤ 1048576 ∧ n % 16 = 0 ∧ allZero (fBytes c 0x14 4) = true ∨
        (op, i, n) = (0x0812, .streamFinal t tag, f8 c 1) ∧ c.body.length = 32 ∧ n ≤ 15 ∧ allZero (fBytes c 2 6) = true ∧
          (y.mode = 1 → n = 0)) →
      Starts op t tag s m c → c.outcome = none → x ≤ 7 → y.state = 1 → f64 c 8 = BitVec.ofNat 64 y.bytes →
      (y.mode = 3 → y.bytes + n ≤ 2 ^ 36 - 32) → useKey m tag c [y.key] y.key = .ok (a, k) →
      bulkKey a (y.dir == 1) = .ok () → needCipher m = .ok () → (jobReads c = true → blkServes m .hif = true) →
      AsksJob i t s tag c m
        (fun m => updStr m c.tenant x (fun y => { y with state := 2, prior := y.lastStamp, lastStamp := c.stamp }))) ∧
    (∀ (op : Nat) (i : Instr) (st : W16) (res : Bytes),
      ((op, i) = (0x0810, .streamOpen t tag) ∨ (op, i) = (0x0811, .streamUpdate t tag) ∨ (op, i) = (0x0812, .streamFinal t tag)) →
      Starts op t tag s m c → c.outcome = some (st, res) →
      Ends i t s tag (updStr m c.tenant x (streamDone c.opcode st)) st res) ∧
    (Starts 0x0813 t tag s m c → c.body.length = 8 → x ≤ 7 → allZero (fBytes c 1 7) = true → y.state ≠ 0 →
      Ends (.streamAbort t tag) t s tag
        (updStr (match streamHolder m c.tenant x tag with
          | some h => endCmd (leaveReady (freeJob m h) h) h stAborted []
          | none => m) c.tenant x Stream.idle) stOk [])

/-- A stream's command on a context in another state, or with another count of bytes, than it must have ends there,
and the context is as it was (08 R229, R230, R233). It says that these complete: streamUpdate. -/
def Obligations.StreamOrderIsHeld : Prop :=
  ∀ (t tag : Nat) (s : State) (m : Mod) (c : Cmd),
    let x := f8 c 0
    let y := strOf m c.tenant x
    Starts 0x0811 t tag s m c → c.outcome = none → c.body.length = 40 → x ≤ 7 → allZero (fBytes c 1 7) = true →
    16 ≤ f32 c 0x10 → f32 c 0x10 ≤ 1048576 → f32 c 0x10 % 16 = 0 → allZero (fBytes c 0x14 4) = true →
    (y.state ≠ 1 ∨ f64 c 8 ≠ BitVec.ofNat 64 y.bytes) →
    let st := if y.state = 1 then stStreamOrder else if y.lost ∧ y.state = 0 then stAborted else stStreamState
    Ends (.streamUpdate t tag) t s tag m st []

/-! ### The public-key engine (chapter 10) -/

/-- A public-key command whose body, quorum and key handle hold is handed to PKE, where it asks for its key's blob or
joins the queue by latest start; its finishing dispatch gives what the engine signalled, or creates the keys of
PK_KEYGEN and PK_AGREE in one record. PK_CANCEL aborts what waits under a request ID (10 R287, R289, R291 to R294). It
says that these complete: pkSign, pkVerify, pkEncrypt, pkDecrypt, pkKeygen, pkAgree, pkAgreeCheck, pkCancel. -/
def Obligations.PublicKeyCommandsComplete : Prop :=
  ∀ (t tag : Nat) (s : State) (m : Mod) (c : Cmd),
    (∀ (op : Nat) (i : Instr) (q : List Effect),
      ((op, i) = (0x0901, .pkSign t tag) ∨ (op, i) = (0x0902, .pkVerify t tag) ∨ (op, i) = (0x0903, .pkEncrypt t tag) ∨
        (op, i) = (0x0904, .pkDecrypt t tag) ∨ (op, i) = (0x0905, .pkKeygen t tag) ∨ (op, i) = (0x0906, .pkAgree t tag) ∨
        (op, i) = (0x0907, .pkAgreeCheck t tag)) →
      Starts op t tag s m c → c.outcome = none → pkBody c = .ok () →
      quorums m tag c (cmdDigest c) (pkClasses c) (projDur m) = .ok q → needBlk m .pke = .ok () →
      (pkRandom c = true → m.rng.halted = false) → (c.opcode = 0x0905 → (tenantOf m c.tenant).trk.isSome = true) → (pkHandle c).bind (handleStatus m c.tenant) = none →
      Leaves i t s (pkStart (updCmd m tag (fun c => { c with phase := .pke })) tag)) ∧
    (∀ (op : Nat) (i : Instr) (st : W16) (res : Bytes),
      ((op, i) = (0x0901, .pkSign t tag) ∨ (op, i) = (0x0902, .pkVerify t tag) ∨ (op, i) = (0x0903, .pkEncrypt t tag) ∨
        (op, i) = (0x0904, .pkDecrypt t tag) ∨ (op, i) = (0x0907, .pkAgreeCheck t tag)) →
      Starts op t tag s m c → c.opcode = op → c.outcome = some (st, res) → Ends i t s tag m st res) ∧
    (∀ (res : Bytes) (q e1 e2 : List Effect) (h1 h2 : W64),
      Starts 0x0905 t tag s m c → c.opcode = 0x0905 → c.outcome = some (stOk, res) →
      quorums m tag c (cmdDigest c) (pkClasses c) (projDur m) = .ok q → pendWrites m + 2 ≤ 4096 →
      let a := attrKept (fBytes c 0 32) 0
      createKey m (projDur m) c.tenant (kindFor a true) a (c.mem.getD 0 []) = .ok (e1, h1) →
      createKey m (e1.foldl effDur (projDur m)) c.tenant (kindFor a false) (pubAttr a) (c.mem.getD 1 []) = .ok (e2, h2) →
      let pub := c.mem.getD 3 []
      Journals (.pkKeygen t tag) t s tag c m (q ++ e1 ++ e2)
        (le64 h1 ++ le64 h2 ++ c.mem.getD 2 [] ++ [0] ++ natLe 2 pub.length ++ [0, 0] ++ pub) false) ∧
    (∀ (res : Bytes) (q effs : List Effect) (h : W64),
      Starts 0x0906 t tag s m c → c.opcode = 0x0906 → c.outcome = some (stOk, res) →
      quorums m tag c (cmdDigest c) (pkClasses c) (projDur m) = .ok q →
      let a := attrKept (fBytes c 0x10 32) 2
      let field := kdf (hmac .sha256 (fBytes c 0x30 32) (c.mem.getD 0 [])) "NKL-AGREE" (c.body.drop (0x50 + f16 c 8)) (aLen a)
      createKey m (projDur m) c.tenant 1 a field = .ok (effs, h) →
      Journals (.pkAgree t tag) t s tag c m (q ++ effs) (createRes h (kcvAny 1 a field)) false) ∧
    (Starts 0x0910 t tag s m c → c.body.length = 8 → f64 c 0 ≠ 0 →
      let l := (m.cmq.cmds.filter (cancellable tag c.tenant (f64 c 0))).map Prod.fst
      Ends (.pkCancel t tag) t s tag (resumePk (l.foldl (fun m x => pkAbort m x stAborted) m)) stOk
        (natLe 4 l.length ++ zeroBytes 4))

/-- An engine takes the head of the queue, signals its end, zeroes itself and is tested; an operation that cannot
start in time ends with ST_RETRY_LATER, counted (10 R282 to R285, R288). What an engine's operation comes to: a result
that fails its check lets nothing out, a key search at its limit has found no pair, and else the operation's program
is computed; a passed test of the engine clears what it was due for (10 R273, R278, R284). It says that these
complete: pkeEngineGrant, pkDispatchDeadline, pkLatestStartExpiry, pkeOperationComplete, pkeZeroingDone,
pkeEngineTest. -/
def Obligations.PublicKeyEventsComplete : Prop :=
  (∀ (t : Nat) (s : State), let m := s.now t
     (∀ (e load : Nat) (w : PkWait) (rest : List PkWait) (c : Cmd), m.pke.queue = w :: rest → engFree m e = true →
       (∀ i, i < e → engFree m i = false) → cmdOf m w.tag = some c →
       let loaded := loadDraws { m with pke := { m.pke with queue := rest } } w.slot w.draws w.mem
       let m1 := updEng loaded.1 e (fun x =>
         { x with
           state := .loading, tag := w.tag, tenant := c.tenant, slot := w.slot, nominal := w.nominal, since := m.clk,
           loadNs := min load (loadLimit c), mem := loaded.2 })
       Leaves (.pkeEngineGrant t ⟨e, load⟩) t s (resumePk (releaseKeys m1 w.tag))) ∧
     (∀ (tag l p : Nat) (c : Cmd), cmdOf m tag = some c → c.phase = .ready l p → c.opcode / 256 = 9 → c.opcode ≠ 0x0910 →
       c.runs = 0 → c.outcome = none → c.since + 4000000 ≤ m.clk →
       Leaves (.pkDispatchDeadline t tag) t s (pkLate m tag)) ∧
     (∀ (tag : Nat) (c : Cmd), cmdOf m tag = some c → c.phase = .pke → lateFor m tag c ≤ m.clk →
       (∀ (e : Nat), engWith m tag = some e → lateFor m tag c < (engOf m e).first) →
       Leaves (.pkLatestStartExpiry t tag) t s (resumePk (pkLate m tag))) ∧
     (∀ (e : Nat) (fault : Bool) (c : Cmd), (engOf m e).state = .loading → cmdOf m (engOf m e).tag = some c →
       let x := engOf m e
       let r := engOutcome m x c fault
       (if slotPrivate x.slot ∧ x.slot ≠ 3 then m.clk = x.first + x.nominal
         else x.first ≤ m.clk ∧ m.clk ≤ x.first +
           (if (r.1 = stPkInputRange ∨ r.1 = stPkPointInvalid) ∧ x.slot ≠ 3 then min x.nominal 5000 else x.nominal)) →
       let m1 := zeroEng (pkCount m e r.1 (r.1 == stInternalFault)) e
       let m2 := updEng m1 e (fun y => { y with recent := (x.tag, c.stamp) :: y.recent })
       Leaves (.pkeOperationComplete t e fault) t s
         (makeReady (updCmd m2 x.tag (fun c => { c with outcome := some (r.1, r.2.1), mem := c.mem ++ r.2.2, stage := c.stage + 1 }))
           x.tag 7)) ∧
     (∀ (e : Nat), (engOf m e).state = .zeroing → (engOf m e).since + 1280 ≤ m.clk →
       Leaves (.pkeZeroingDone t e) t s
         (updEng m e (fun x => { x with state := if x.fail then .withdrawn else .idle, slot := 0, tenant := 0 }))) ∧
     (∀ (e : Nat), e < 64 → engAvail m e = true → inService m = true →
       ((engOf m e).state = .idle ∨ (engOf m e).state = .loading ∧ (engOf m e).slot = 3 ∧ (engOf m e).first ≤ m.clk ∧
         engPassed m e + 50000000 ≤ m.clk) →
       let tried := fun pass =>
         let m1 := updBlk (testEngine m e) .pke (testHdr (unitsOf m .pke) e pass)
         { m1 with hlt := { m1.hlt with runs := m1.hlt.runs + 1 } }
       let ok := tried true
       Leaves (.pkeEngineTest t e true) t s
         (noteOverdue (engineTested { ok with hlt := { ok.hlt with passed := tblSet ok.hlt.passed (katKey .pke e) ok.clk } } e)) ∧
       Leaves (.pkeEngineTest t e false) t s (noteOverdue (katFail (tried false) .pke e)))) ∧
  (∀ (m : Mod) (x : Eng) (c : Cmd) (e : Nat),
     (slotPrivate x.slot = true → engOutcome m x c true = (stInternalFault, [], [])) ∧
     (x.slot = 3 → m.clk = x.first + x.nominal → engOutcome m x c false = (stRetryLater, [], [])) ∧
     (x.slot ≠ 3 → engOutcome m x c false = pkCompute x c) ∧
     (engOf (engineTested m e) e).mustTest = false ∧ (engOf (engineTested m e) e).recent = [])

/-! ### The route table (chapter 7) -/

/-- The route commands: a record set, an update applied whole, a commit that makes the shadow active under the next
epoch, an abort that drops it, a lookup of the longest prefix, the counts, and a compaction that waits (07 R190 to
R203, R207). A compaction that finishes leaves the pool one run and completes its command; 24 clocks after a switch
the old set returns (07 R199, R207). It says that these complete: rtRecordSet, rtRouteUpdate, rtCommit, rtAbort,
rtLookup, rtStatus, rtCompact, compactionDone, rtbOldSetFree. -/
def Obligations.RoutesComplete : Prop :=
  (∀ (t tag : Nat) (s : State) (m : Mod) (c : Cmd),
     let r := routesIn (projDur m) c.tenant
     let ra := routesIn m.dur c.tenant
     (Starts 0x0C01 t tag s m c → c.body.length = 40 → allZero (fBytes c 2 6) = true →
       f16 c 0 < (tenOf m c.tenant).recCap →
       let x := fBytes c 8 32
       getLe16 x 20 / 2 = 0 → allZero (x.drop 22) = true → routesOpen m = .ok () →
       recHandleOk m c.tenant (recPinKey x) = none → recHandleOk m c.tenant (recMacKey x) = none →
       let s0 := shadowOf r
       let touched := ((s0.set.routes.filter (fun y => y.recno == f16 c 0)).map (fun y => nodePath (nodeOf y.digits))).flatten
       let s1 : Shadow :=
         { set := { s0.set with recs := tblSet s0.set.recs (f16 c 0) x }, copied := (s0.copied ++ touched).eraseDups,
           fresh := if s0.fresh.contains (f16 c 0) then s0.fresh else s0.fresh ++ [f16 c 0] }
       let r1 := { r with shadow := some s1 }
       if tblFind s0.set.recs (f16 c 0) = some x then Journals (.rtRecordSet t tag) t s tag c m [] [] false
       else routeRoom m (projDur m) c.tenant r1 = .ok () →
         Journals (.rtRecordSet t tag) t s tag c m [.routes c.tenant r1 false] [] false) ∧
     (∀ (entries : List (List Nat × Option Nat)), Starts 0x0C02 t tag s m c → 1 ≤ f16 c 0 → f16 c 0 ≤ 252 →
       c.body.length = 8 + 16 * f16 c 0 → allZero (fBytes c 2 6) = true →
       (chunks 16 (c.body.drop 8)).map (updEntry (tenOf m c.tenant).recCap) = entries.map some → routesOpen m = .ok () →
       let s0 := shadowOf r
       let y := entries.foldl (fun (a : Shadow × Nat) e =>
         ((applyEntry a.1 e).1, if (applyEntry a.1 e).2 then a.2 + 1 else a.2)) (s0, 0)
       let count := y.1.set.routes.length
       (count ≤ (tenOf m c.tenant).routeCap ∨ count ≤ s0.set.routes.length) →
       let res := natLe 2 y.2 ++ natLe 2 (entries.length - y.2) ++ natLe 4 count
       let r1 := { r with shadow := some y.1 }
       if y.2 = 0 then Journals (.rtRouteUpdate t tag) t s tag c m [] res false
       else routeRoom m (projDur m) c.tenant r1 = .ok () →
         Journals (.rtRouteUpdate t tag) t s tag c m [.routes c.tenant r1 false] res false) ∧
     (Starts 0x0C03 t tag s m c → c.body = [] → routesOpen m = .ok () →
       let drop := if r.shadow.isSome then [Effect.routes c.tenant { r with shadow := none } false] else []
       if differs r then
         Journals (.rtCommit t tag) t s tag c m
           [.routes c.tenant { active := viewOf r, shadow := none, epoch := r.epoch + 1 } true]
           (le32 (r.epoch + 1) ++ natLe 4 (viewOf r).routes.length) false
       else Journals (.rtCommit t tag) t s tag c m drop (le32 r.epoch ++ natLe 4 r.active.routes.length) false) ∧
     (Starts 0x0C04 t tag s m c → c.body = [] → routesOpen m = .ok () →
       Journals (.rtAbort t tag) t s tag c m
         (if r.shadow.isSome then [Effect.routes c.tenant { r with shadow := none } false] else []) [] false) ∧
     (∀ (pan : List Nat), Starts 0x0C05 t tag s m c → c.body.length = 16 → panOf c 0 6 = .ok pan → f8 c 1 ≤ 1 →
       allZero (fBytes c 2 4) = true → needBlk m .rtb = .ok () →
       match lookupIn (if f8 c 1 = 0 then ra.active else viewOf ra) pan with
       | none => Ends (.rtLookup t tag) t s tag (countLookup m false) stNoRoute []
       | some (x, b) => Ends (.rtLookup t tag) t s tag (countLookup m true) stOk
           ([byteOf x.digits.length, 0] ++ natLe 2 x.recno ++ le32 ra.epoch ++ b)) ∧
     (Starts 0x0C06 t tag s m c → c.body = [] → needBlk m .rtb = .ok () →
       Ends (.rtStatus t tag) t s tag m stOk
         (le32 ra.epoch ++ natLe 4 ra.active.routes.length ++ natLe 4 (viewOf ra).routes.length ++
           natLe 4 (if differs ra then 1 else 0) ++ natLe 4 (viewOf ra).recs.length ++ zeroBytes 4)) ∧
     (Starts 0x0C10 t tag s m c → c.body = [] → routesOpen m = .ok () →
       Leaves (.rtCompact t tag) t s
         (updCmd { m with rtb := { m.rtb with compacting := some tag, moved := 0 } } tag (fun c => { c with phase := .compact })))) ∧
  (∀ (t : Nat) (s : State), let m := s.now t
     (∀ (tag : Nat), m.rtb.compacting = some tag →
       let m1 := compacted m
       let m2 := raiseInt { m1 with rtb := { m1.rtb with compacting := none } } .rtb 4
       poolLargest m2 m2.dur = poolFree m2 m2.dur ∧
         Ends (.compactionDone t) t s tag m2 stOk (natLe 4 (poolFree m2 m2.dur) ++ natLe 4 (poolFree m2 m2.dur))) ∧
     (∀ (ten : Nat), Leaves (.rtbOldSetFree t ten) t s
       { m with rtb := { m.rtb with
         old := m.rtb.old.filter (fun x => !(x.tenant == ten && decide (x.since + 30 ≤ m.clk))),
         compacted := m.rtb.compacted &&
           m.rtb.old.all (fun x => !(x.tenant == ten && decide (x.since + 30 ≤ m.clk)) || x.words == 0) } }))

/-! ### Dual control (chapter 11) -/

/-- Challenges: opened with 32 random bytes under the next ID, approved once the signature of a checked record has
been asked for, reported, closed (11 R304, R305, R308, R317). A verification that ends answers where its record came
from: the command completes or its record is issued, the port gets its RESULT (11 R305). A challenge's, a ceremony's
and a maintenance window's end are acted on at their instants (11 R308, R313, R314). It says that these complete:
quorumOpen, quorumApprove, quorumStatus, quorumClose, approvalVerifyDone, challengeWindowEnd, ceremonyWindowEnd,
maintWindowEnd. -/
def Obligations.ChallengesComplete : Prop :=
  (∀ (t tag : Nat) (s : State) (m : Mod) (c : Cmd),
     let dom := pathDom c
     let d := projDur m
     (Starts 0x0E01 t tag s m c → c.body.length = 56 → classDefined (f8 c 0) = true → classDevice (f8 c 0) = c.admin →
       allZero (fBytes c 1 3) = true → 1 ≤ f32 c 4 → f32 c 4 ≤ 86400 → needBlk m .dcu = .ok () →
       (serving m = true ∨ f8 c 0 = clsTwinPair) → trustedAt m c.stamp = true →
       openChals (domainIn d dom) c.stamp < (if c.admin then 32 else 8) → openAll d c.stamp < 4096 → m.rng.halted = false →
       let ends := t64Add c.stamp (f32 c 4 * nsPerS)
       let ch : Challenge :=
         { cls := f8 c 0, opDigest := fBytes c 8 48, bytes := drawn m 32, opened := c.stamp, ends := ends, approvals := [],
           state := 0, localOnly := !serving m }
       let id := if serving m then d.nextChal else localChal (domainIn d dom)
       Journals (.quorumOpen t tag) t s tag c (afterDraw m 32) [.domain dom (withChal (domainIn d dom) id ch)]
         (natLe 8 id ++ drawn m 32 ++ le64 ends) (!serving m)) ∧
     (∀ (ch : Challenge), Starts 0x0E02 t tag s m c → c.stage = 0 → c.body.length = 192 → needBlk m .dcu = .ok () →
       approvalCheck m c.body c.stamp dom false = .ok ch →
       Leaves (.quorumApprove t tag) t s
         (updCmd (startVerify m c.body dom c.stamp (some tag) none) tag (fun c => { c with phase := .verify, stage := 1 }))) ∧
     (∀ (ch : Challenge), Starts 0x0E03 t tag s m c → c.body.length = 8 → needBlk m .dcu = .ok () →
       let x := domainIn m.dur dom
       (serving m = true ∨ ch.localOnly = true) → tblFind x.chal (f64 c 0).toNat = some ch →
       let bits := ch.approvals.foldl (fun a p => a + (if approvalCounts x t64Never p then 2 ^ p.1 else 0)) 0
       Ends (.quorumStatus t tag) t s tag m stOk
         ([byteOf (if ch.state = 3 then 2 else ch.state), byteOf (counted x ch t64Never)] ++ natLe 2 bits ++ le64 ch.ends)) ∧
     (∀ (ch : Challenge), Starts 0x0E04 t tag s m c → c.body.length = 8 → needBlk m .dcu = .ok () →
       (serving m = true ∨ ch.localOnly = true) → tblFind (domainIn d dom).chal (f64 c 0).toNat = some ch → ch.state = 0 →
       Journals (.quorumClose t tag) t s tag c m
         [.domain dom (withChal (domainIn d dom) (f64 c 0).toNat { ch with state := 2 })] [] ch.localOnly)) ∧
  (∀ (t : Nat) (s : State), let m := s.now t
     (∀ (id tag : Nat) (v : Verifying) (c : Cmd), tblFind m.dcu.verify id = some v → v.tag = some tag → v.port = none →
       let m1 := { m with dcu := { m.dcu with verify := tblErase m.dcu.verify id } }
       cmdOf m1 tag = some c →
       match approvalOutcome m1 v with
       | .error st => Ends (.approvalVerifyDone t id true) t s tag (if st = stVerifyFail then countSigFail m1 else m1) st []
       | .ok (effs, res, own) => Journals (.approvalVerifyDone t id true) t s tag c m1 effs res own) ∧
     (∀ (id p : Nat) (v : Verifying), tblFind m.dcu.verify id = some v → v.tag = none → v.port = some p →
       let m1 := { m with dcu := { m.dcu with verify := tblErase m.dcu.verify id } }
       match approvalOutcome m1 v with
       | .error st => Leaves (.approvalVerifyDone t id true) t s
           (sendResult (if st = stVerifyFail then countSigFail m1 else m1) p st v.chal)
       | .ok (effs, _, own) => Leaves (.approvalVerifyDone t id true) t s
           (issueRecord m1 none (effs ++ [.portResult p v.chal]) none own)) ∧
     (∀ (dom id : Nat) (ch : Challenge), tblFind (domainIn m.dur dom).chal id = some ch → ch.state = 0 →
       ch.ends.toNat ≤ (nowT m).toNat →
       Leaves (.challengeWindowEnd t dom id) t s { m with dur := { m.dur with
         dom := tblSet m.dur.dom dom (withChal (domainIn m.dur dom) id { ch with state := 3 }) } }) ∧
     (∀ (id : Nat) (x : Ceremony), tblFind m.dcu.cer id = some x → x.ends.toNat ≤ (nowT m).toNat →
       Leaves (.ceremonyWindowEnd t id) t s (closeCer m id)) ∧
     (∀ (w : W64 × W64), m.dcu.maint = some w → w.2.toNat ≤ (nowT m).toNat →
       Leaves (.maintWindowEnd t) t s (setMaint m none)))

/-- Custodians and policies: an enrolment by its proof of possession under the approvals the policy asks for, a
removal that leaves every class its M, a policy within the custodians enrolled, the list of slots (11 R299, R301,
R303, R317). It says that these complete: custEnrol, custRemove, policySet, custList. -/
def Obligations.CustodianCommandsComplete : Prop :=
  ∀ (t tag : Nat) (s : State) (m : Mod) (c : Cmd),
    let dom := pathDom c
    let d := projDur m
    (∀ (key : Bytes) (sp : W64) (ch : Challenge), Starts 0x0E10 t tag s m c → c.body.length = 304 → f8 c 0 ≤ 15 →
      allZero (fBytes c 1 7) = true → allZero (fBytes c 0x69 7) = true → needBlk m .dcu = .ok () →
      let x := domainIn d dom
      let proof := c.body.drop 0x70
      tblFind x.cust (f8 c 0) = none → p384Of (fBytes c 8 97) = some key → (∀ p ∈ x.cust, p.2.key ≠ key) →
      (if dom = deviceDomain ∧ x.cust = [] then (m.dcu.proofs.find? (fun p => p.1 == proof)).map Prod.snd = some sp
        else sp = c.stamp) →
      approvalCheck m proof sp dom true = .ok ch → getNat8 proof 1 = 1 → apCust proof = f8 c 0 → ch.cls = custClass c →
      inWindow ch.opened ch.ends c.stamp = true → verifyingFor m dom (apChal proof) c.stamp = false →
      min (policyM d dom (custClass c)) x.cust.length ≤ counted x ch c.stamp →
      let e := consumeIn d dom (apChal proof)
      let x1 := domainIn (effDur d e) dom
      if ch.opDigest = opDigest c.opcode (if c.admin then 0 else c.tenant) (c.body.take 0x70 ++ zeroBytes 192) then
        if approvalSigned key proof then
          Journals (.custEnrol t tag) t s tag c { m with dcu := { m.dcu with proofs := [] } }
            [e, .consumed dom (apChal proof),
              .domain dom { x1 with cust := tblSet x1.cust (f8 c 0) { key := key, stamp := c.stamp } }] [] false
        else Ends (.custEnrol t tag) t s tag (countSigFail m) stVerifyFail []
      else Ends (.custEnrol t tag) t s tag m stNotAuthorised []) ∧
    (∀ (q : List Effect), Starts 0x0E11 t tag s m c → c.body.length = 8 → allZero (fBytes c 1 7) = true →
      needBlk m .dcu = .ok () → (tblFind (domainIn d dom).cust (f8 c 0)).isSome = true →
      quorum m tag c (custClass c) = .ok q →
      let d1 := q.foldl effDur d
      let x := domainIn d1 dom
      (∀ k ∈ domClasses dom, policyM d1 dom k < x.cust.length) →
      Journals (.custRemove t tag) t s tag c m (q ++ [.domain dom { x with cust := tblErase x.cust (f8 c 0) }]) [] false) ∧
    (∀ (q : List Effect), Starts 0x0E12 t tag s m c → c.body.length = 16 →
      let ks := domClasses dom
      let vs := c.body.map (fun b => b.toNat)
      (∀ v ∈ vs, v ≤ 16) → (∀ v ∈ vs.drop ks.length, v = 0) → needBlk m .dcu = .ok () →
      quorum m tag c (custClass c) = .ok q →
      let x := domainIn (q.foldl effDur d) dom
      (∀ v ∈ vs.take ks.length, v ≤ x.cust.length ∧ (dom = deviceDomain → 2 ≤ v)) →
      Journals (.policySet t tag) t s tag c m (q ++ [.domain dom { x with m := ks.zip (vs.take ks.length) }]) [] false) ∧
    (Starts 0x0E13 t tag s m c → c.body = [] → needBlk m .dcu = .ok () →
      let x := domainIn m.dur dom
      let one := fun (i : Nat) => match tblFind x.cust i with
        | none => zeroBytes 57
        | some k => ((NistCurve.p384.pointOf k.key).elim (zeroBytes 49) (compress .p384)) ++ le64 k.stamp
      Ends (.custList t tag) t s tag m stOk
        (natLe 2 (x.cust.foldl (fun a p => a + 2 ^ p.1) 0) ++
          fitRight 16 ((domClasses dom).map (fun k => byteOf (policyM m.dur dom k))) ++
          ((List.range 16).map one).flatten))

/-- Ceremonies and maintenance windows: opened under their quorums, fed components, closed (11 R311 to R314). It says
that these complete: ceremonyOpen, ceremonyComponent, ceremonyClose, maintOpen, maintClose. -/
def Obligations.CeremonyCommandsComplete : Prop :=
  ∀ (t tag : Nat) (s : State) (m : Mod) (c : Cmd),
    (∀ (q : List Effect), Starts 0x0E20 t tag s m c → c.body.length = 48 → (f8 c 0 = 1 ∨ f8 c 0 = 2) →
      2 ≤ f8 c 1 → f8 c 1 ≤ 16 → allZero (fBytes c 2 2) = true → 1 ≤ f32 c 4 → f32 c 4 ≤ 86400 →
      allZero (fBytes c 11 5) = true → needBlk m .dcu = .ok () → cerTarget m c (projDur m) = .ok () →
      let trk := f8 c 0 == 2
      let a := fBytes c 16 32
      quorums m tag c (cmdDigest c) (if trk then [(c.tenant, clsTenantRoot)] else createClasses c.tenant (aTrusted a))
        (projDur m) = .ok q →
      m.dcu.cer.length < 64 →
      let ends := t64Add c.stamp (f32 c 4 * nsPerS)
      let id := m.dcu.nextCer
      let n := if trk then 32 else aLen (attrKept a 4) / 8
      let x : Ceremony :=
        { tenant := c.tenant, trk := trk, attr := if trk then [] else attrKept a 4, parts := f8 c 1, kcv := fBytes c 8 3,
          opened := c.stamp, ends := ends, acc := zeroBytes n, given := [],
          armed := trk && (tenantIn (projDur m) c.tenant).trk.isSome }
      let m1 := { m with dcu := { m.dcu with cer := tblSet m.dcu.cer id x, nextCer := id + 1 } }
      if q = [] then Ends (.ceremonyOpen t tag) t s tag m1 stOk (natLe 8 id ++ le64 ends)
      else Journals (.ceremonyOpen t tag) t s tag c m1 q (natLe 8 id ++ le64 ends) false) ∧
    (Starts 0x0E21 t tag s m c → 16 ≤ c.body.length → c.body.length = 16 + f16 c 8 → allZero (fBytes c 10 6) = true →
      needBlk m .dcu = .ok () →
      match takeComponent m (c.body.drop 16) c.stamp (some (f64 c 0).toNat) c.tenant with
      | .error (m1, st, _) => Ends (.ceremonyComponent t tag) t s tag m1 st []
      | .ok y =>
        let head := [byteOf y.got, byteOf y.parts] ++ zeroBytes 6
        match y.made with
        | none => Ends (.ceremonyComponent t tag) t s tag y.mod stOk head
        | some (e, h, kcv) => Journals (.ceremonyComponent t tag) t s tag c y.mod e (head ++ le64 h ++ kcv) false) ∧
    (∀ (x : Ceremony), Starts 0x0E22 t tag s m c → c.body.length = 8 → needBlk m .dcu = .ok () →
      tblFind m.dcu.cer (f64 c 0).toNat = some x → x.tenant = c.tenant →
      Ends (.ceremonyClose t tag) t s tag (closeCer m (f64 c 0).toNat) stOk []) ∧
    (∀ (q : List Effect), Starts 0x0E30 t tag s m c → c.body.length = 8 → 60 ≤ f32 c 0 → f32 c 0 ≤ 28800 →
      allZero (fBytes c 4 4) = true → needBlk m .dcu = .ok () → maintOpen m c.stamp = false →
      quorum m tag c clsMaintenance = .ok q →
      let e := t64Add (nowT m) (f32 c 0 * nsPerS)
      Journals (.maintOpen t tag) t s tag c m (q ++ [.maint (some (nowT m, e))]) (le64 (nowT m) ++ le64 e) true) ∧
    (Starts 0x0E31 t tag s m c → c.body = [] → needBlk m .dcu = .ok () →
      Journals (.maintClose t tag) t s tag c m [.maint none] [] true)

/-- A frame of an enabled custodian port is acknowledged and acted on for the port's domain; a kept frame is dropped
from the port's list by its ACK, and sent again without one (11 R305, R310, R312, R315, R316). It says that these
complete: custApprovalFrame, custComponentFrame, custHandshakeFrame, custListFrame, custAckFrame, custFrameRetransmit,
custPortLinkChange. -/
def Obligations.CustodianFramesComplete : Prop :=
  ∀ (t : Nat) (s : State), let m := s.now t
    (∀ (f : CustFrame) (dom : Nat), portDom m f.port = some dom → f.crcOk = true → f.payload.length ≤ 1024 →
      admits m = true → m.devReady = true →
      let m1 := sendCust m f.port 1 [byteOf f.seq]
      portStop m1 dom = none →
      (∀ (ch : Challenge), ¬ (dom = deviceDomain ∧ (domainIn (projDur m1) dom).cust = []) →
        approvalCheck m1 f.payload (nowT m1) dom false = .ok ch →
        Leaves (.custApprovalFrame t f) t s (startVerify m1 f.payload dom (nowT m1) none (some f.port))) ∧
      (serving m1 = true →
        match takeComponent m1 f.payload (nowT m1) none dom with
        | .error (m2, st, id) => Leaves (.custComponentFrame t f) t s (sendResult m2 f.port st id)
        | .ok y => match y.made with
          | none => Leaves (.custComponentFrame t f) t s (sendResult y.mod f.port stOk y.cer)
          | some (e, _, _) =>
            Leaves (.custComponentFrame t f) t s (issueRecord y.mod none (e ++ [.portResult f.port y.cer]) none false)) ∧
      (∀ (sid : Nat), serving m1 = true → f.payload.length = 240 → helloShape f.payload = true → getNat8 f.payload 0 ≤ 15 →
        let now := nowT m1
        let m2 := { m1 with dcu := { m1.dcu with sess := m1.dcu.sess.filter (fun p => decide (now.toNat < p.2.expiry.toNat)) } }
        let k := tblFind (domainIn m1.dur dom).cust (getNat8 f.payload 0)
        portStop m2 dom = none → serving m2 = true → freeCustSess m2 = some sid →
        let expiry := t64Add now sessionLife
        match helloAnswer m2 (natLe 2 (domWord dom)) (k.map (fun k => k.key)) f.payload sid expiry with
        | (m3, .error st) => Leaves (.custHandshakeFrame t f) t s (sendResult m3 f.port st 0)
        | (m3, .ok (res, keys)) =>
          let x : CustSession :=
            { dom := dom, slot := getNat8 f.payload 0, enrolled := k.elim 0 (fun k => k.stamp), key := keys.kc,
              expiry := expiry, h := 0, bitmap := 0 }
          let m4 := updCust { m3 with dcu := { m3.dcu with sess := tblSet m3.dcu.sess sid x } } f.port
            (fun x => { x with session := some sid })
          Leaves (.custHandshakeFrame t f) t s (sendCust m4 f.port 2 res)) ∧
      Leaves (.custListFrame t f) t s
        (let l := (domainIn m1.dur dom).chal.filter (fun p => p.2.state == 0 && decide ((nowT m1).toNat < p.2.ends.toNat))
        (if l = [] then [[]] else chunks 14 l).foldl (fun m g => sendCust m f.port 6 (g.map listEntry).flatten) m1)) ∧
    (∀ (f : CustFrame) (dom : Nat), portDom m f.port = some dom → f.crcOk = true → f.payload.length = 1 →
      Leaves (.custAckFrame t f) t s
        (updCust m f.port (fun x => { x with sent := x.sent.filter (fun e => !(e.1 == getNat8 f.payload 0)) }))) ∧
    (∀ (p q a type tries : Nat) (data : Bytes),
      (custPortOf m p).sent.find? (fun e => e.1 == q && decide (e.2.2.2.1 + 2000000 ≤ m.clk)) = some (q, type, data, a, tries) →
      let rest := (custPortOf m p).sent.filter (fun e => !(e.1 == q))
      Leaves (.custFrameRetransmit t p q) t s
        (if 4 ≤ tries then updCust m p (fun x => { x with sent := rest })
        else emit (updCust m p (fun x => { x with sent := rest ++ [(q, type, data, m.clk, tries + 1)] })) (.custFrame p type q data))) ∧
    (∀ (p : Nat) (up : Bool), p < 8 → (custPortOf m p).link ≠ up →
      Leaves (.custPortLinkChange t p up) t s (raiseInt (updCust m p (fun x => { x with link := up })) .dcu 4))

/-! ### Tenants (chapter 12) -/

/-- Sessions: a hello's signature is checked, its secret agreed and its answer signed on the engines, one after the
other, and its record opens the session under the tenant's next ID, half-open until its first sealed capsule; a
session is closed, and reported (10 R272, 12 R329 to R332, R343). Credentials, the policy on open capsules and the
tenant's own report (12 R327, R328, R343). It says that these complete: sessionHello, sessionClose, sessionStatus,
credEnrol, credRemove, tenantPolicySet, tenantInfo. -/
def Obligations.SessionsAndCredentialsComplete : Prop :=
  (∀ (t tag : Nat) (s : State) (m : Mod) (c : Cmd),
     let d := projDur m
     let x := tenantIn d c.tenant
     let room := (sessOfTenant d c.tenant).length < (tenOf m c.tenant).sessCap ∧ d.sess.length < 65536
     (∀ (k : Bytes), Starts 0x0D01 t tag s m c → c.outcome = none → c.wasSealed = false → c.session = 0 → c.seq = 0 → c.reqId = 0 →
       c.body.length = 240 → f8 c 0 ≤ 31 → helloShape c.body = true → needBlk m .pke = .ok () → m.rng.halted = false →
       room → tblFind x.creds (f8 c 0) = some k →
       Hands (.sessionHello t tag) t s tag c m 0x08 (helloCheck (tenBytes c.tenant) k c.body) []) ∧
     (∀ (st : W16) (r : Bytes), Starts 0x0D01 t tag s m c → c.outcome = some (st, r) → st ≠ stOk → Ends (.sessionHello t tag) t s tag m st []) ∧
     (∀ (r q : Bytes), Starts 0x0D01 t tag s m c → c.outcome = some (stOk, r) → c.mem = [] → helloEph c.body = some q →
       m.rng.halted = false → Hands (.sessionHello t tag) t s tag c m 0x17 [(2, q)] []) ∧
     (∀ (r z p : Bytes) (key : Nat), Starts 0x0D01 t tag s m c → c.outcome = some (stOk, r) → c.mem = [z, p] → m.rng.halted = false → room →
       m.khs.idKey = some key →
       let sid := nextSid d c.tenant x.lastSess (sidsTaken m c.tenant)
       let head := helloHead sid (t64Add c.stamp sessionLife) (drawn m 32) p
       let dig := helloT (tenBytes c.tenant) c.body head
       let k := helloKeys c.body (drawn m 32) z dig
       Hands (.sessionHello t tag) t s tag c (afterDraw m 32) 0x16 [(1, natBe 48 key), (2, dig)] [head, k.kc, k.km]) ∧
     (∀ (r head kc km sig k : Bytes), Starts 0x0D01 t tag s m c → c.outcome = some (stOk, r) → c.mem = [head, kc, km, sig] → room →
       tblFind x.creds (f8 c 0) = some k →
       let sid := (getLe16 head 0).toNat
       let y : Session :=
         { kc := kc, km := km, h := 0, bitmap := 0, count := 0, opened := c.stamp, expiry := t64Add c.stamp sessionLife,
           cred := f8 c 0, halfOpen := true, limitFrom := c.stamp, mark := 0, acked := 0 }
       Journals (.sessionHello t tag) t s tag c m
         [.tenant c.tenant { x with lastSess := sid }, .session (sessKey c.tenant sid) y] (head ++ sig) false) ∧
     (∀ (x : Session), Starts 0x0D02 t tag s m c → c.body.length = 8 → allZero (fBytes c 2 6) = true →
       tblFind d.sess (sessKey c.tenant (f16 c 0)) = some x →
       Journals (.sessionClose t tag) t s tag c m [.closeSession (sessKey c.tenant (f16 c 0))] [] false) ∧
     (∀ (x : Session), Starts 0x0D03 t tag s m c → c.body.length = 8 → allZero (fBytes c 2 6) = true →
       tblFind m.dur.sess (sessKey c.tenant (f16 c 0)) = some x →
       Ends (.sessionStatus t tag) t s tag m stOk (le64 x.opened ++ le64 x.expiry ++ natLe 8 x.count ++ natLe 8 x.h))) ∧
  (∀ (t tag : Nat) (s : State) (m : Mod) (c : Cmd),
     let x := tenantIn (projDur m) c.tenant
     (∀ (key : Bytes) (q : List Effect), Starts 0x0D04 t tag s m c → c.body.length = 112 → f8 c 0 ≤ 31 →
       allZero (fBytes c 1 7) = true → allZero (fBytes c 0x69 7) = true → tblFind x.creds (f8 c 0) = none →
       p384Of (fBytes c 8 97) = some key → (∀ p ∈ x.creds, p.2 ≠ key) → credQuorum m tag c = .ok q →
       Journals (.credEnrol t tag) t s tag c m (q ++ [.tenant c.tenant { x with creds := tblSet x.creds (f8 c 0) key }])
         [] false) ∧
     (∀ (q : List Effect), Starts 0x0D05 t tag s m c → c.body.length = 8 → f8 c 0 ≤ 31 → allZero (fBytes c 1 7) = true →
       (tblFind x.creds (f8 c 0)).isSome = true → credQuorum m tag c = .ok q →
       let gone := (sessOfTenant (projDur m) c.tenant).filter (fun p => p.2.cred == f8 c 0)
       Journals (.credRemove t tag) t s tag c m
         (q ++ [.tenant c.tenant { x with creds := tblErase x.creds (f8 c 0) }] ++ gone.map (fun p => .closeSession p.1))
         [] false) ∧
     (∀ (q : List Effect), Starts 0x0D06 t tag s m c → c.body.length = 8 → f8 c 0 ≤ 1 → allZero (fBytes c 1 7) = true →
       quorum m tag c clsCustodian = .ok q →
       Journals (.tenantPolicySet t tag) t s tag c m (q ++ [.tenant c.tenant { x with openCaps := f8 c 0 == 1 }]) [] false) ∧
     (Starts 0x0D07 t tag s m c → c.body = [] →
       let y := tenantOf m c.tenant
       Ends (.tenantInfo t tag) t s tag m stOk
         (natLe 2 c.tenant ++ [byteOf y.epoch, byteOf (shownState m c.tenant).code, if y.openCaps then 1 else 0] ++
           zeroBytes 3 ++ natLe 4 (sessOfTenant m.dur c.tenant).length ++ natLe 4 (credBits y))))

/-- A tenant is created, re-rooted, frozen, resumed and closed under the device's quorum (12 R320 to R324, R337). That
an offer outlives creation and closing is the model's reading (log 57). It says that these complete: tenantCreate,
tenantClose, tenantReroot, tenantFreeze, tenantResume. -/
def Obligations.TenantCommandsComplete : Prop :=
  ∀ (t tag : Nat) (s : State) (m : Mod) (c : Cmd),
    let d := projDur m
    let n := f16 c 0
    let x := tenantIn d n
    (∀ (key : Bytes) (q : List Effect) (id : Nat), Starts 0x0D10 t tag s m c → c.body.length = 112 →
      (n ≤ 0xFFF ∨ n = 0xFFFF) → f8 c 2 ≤ 1 → f8 c 3 ≤ 1 → allZero (fBytes c 4 4) = true →
      allZero (fBytes c 0x69 7) = true → p384Of (fBytes c 8 97) = some key → createId d n = .ok id →
      quorum m tag c clsTenantAdmin = .ok q → (f8 c 2 = 0 → m.rng.halted = false) →
      let k := epochBits d id + 1
      let y := { Tenant.none with
        state := .active, openCaps := f8 c 3 == 1, epoch := k, trk := if f8 c 2 = 0 then some (drawn m 32) else none,
        creds := [(0, key)], offer := (tenantIn d id).offer }
      Journals (.tenantCreate t tag) t s tag c (if f8 c 2 = 0 then afterFreshDraw m 32 else m) (q ++ [.tenant id y, .epoch id k])
        (natLe 2 id ++ [byteOf k] ++ zeroBytes 5) false) ∧
    (∀ (q : List Effect), Starts 0x0D11 t tag s m c → c.body.length = 8 → n ≤ 0xFFF → allZero (fBytes c 2 6) = true →
      (c.stage = 0 → x.state ≠ .closed ∧ (tenOf m n).draining = false) → quorum m tag c clsTenantAdmin = .ok q →
      let m1 := if x.state = .active then startDrain m n else m
      let k := epochBits (projDur m1) n + 1
      if tagsOf m1 n = 0 then
        Journals (.tenantClose t tag) t s tag c m1
          (q ++ [.tenant n { Tenant.none with epoch := k, offer := x.offer }, .epoch n k, .closeTenant n]) [] false
      else Leaves (.tenantClose t tag) t s (updCmd m1 tag (fun c => { c with phase := .drain, stage := 1 }))) ∧
    (∀ (q : List Effect), Starts 0x0D12 t tag s m c → c.body.length = 8 → n ≤ 0xFFF → f8 c 2 ≤ 1 →
      allZero (fBytes c 3 5) = true → (x.state = .active ∨ x.state = .frozen) → x.trk.isSome = true →
      epochBits d n < 127 →
      quorums m tag c (cmdDigest c) [(deviceDomain, clsTenantAdmin), (n, clsTenantRoot)] d = .ok q →
      let d1 := q.foldl effDur d
      (f8 c 2 = 0 → m.rng.halted = false →
        Journals (.tenantReroot t tag) t s tag c (afterFreshDraw m 32) (q ++ rerootEffs d1 n (drawn m 32))
          ([byteOf (epochBits d1 n + 1), 0] ++ zeroBytes 6) false) ∧
      (f8 c 2 = 1 →
        Journals (.tenantReroot t tag) t s tag c m (q ++ [.tenant n { tenantIn d1 n with rerootArmed := some c.stamp }])
          ([byteOf x.epoch, 1] ++ zeroBytes 6) false)) ∧
    (Starts 0x0D13 t tag s m c → c.body.length = 8 → n ≤ 0xFFF → allZero (fBytes c 2 6) = true →
      (c.stage = 0 → x.state = .active ∧ (tenOf m n).draining = false) →
      let m1 := startDrain m n
      if tagsOf m1 n = 0 then Journals (.tenantFreeze t tag) t s tag c m1 [.tenant n { x with state := .frozen }] [] false
      else Leaves (.tenantFreeze t tag) t s (updCmd m1 tag (fun c => { c with phase := .drain, stage := 1 }))) ∧
    (Starts 0x0D14 t tag s m c → c.body.length = 8 → n ≤ 0xFFF → allZero (fBytes c 2 6) = true →
      (x.state = .frozen ∨ x.state = .restoring) → x.migratedOut = false →
      Journals (.tenantResume t tag) t s tag c m [.tenant n { x with state := .active }, .resumed n] [] false)

/-- Migration: the offer is prepared and signed, a save agrees its key, has its header signed and asks for its list
once its checks hold, a restore asks for its list, and a snapshot that has come is opened and restored in one record
(10 R272, 12 R338 to R341). Tenant events: a half-open session's second, a mark and its acknowledgement, a re-root's
day, a drained tenant, an offer's hour (12 R323, R331, R334, R337, R340). It says that these complete: migratePrepare,
migrateSave, migrateRestore, sessionHalfOpenTimeout, sessionMarkSend, sessionMarkAck, rerootArmingLapse,
tenantDrainDone, migrationOfferExpiry. -/
def Obligations.MigrationAndTenantEventsComplete : Prop :=
  (∀ (t tag : Nat) (s : State) (m : Mod) (c : Cmd),
     let d := projDur m
     let n := f16 c 0
     let lists := fun (i o : W64) =>
       emit (updCmd m tag (fun c => { c with phase := .job, readAt := m.clk })) (.sglRead (portFor m c) i o 0)
     (∀ (q : List Effect), Starts 0x0D15 t tag s m c → c.body.length = 16 → n ≤ 0xFFF → allZero (fBytes c 2 6) = true →
       (tenantIn d n).state = .closed → epochBits d n < 128 → quorum m tag c clsTenantAdmin = .ok q →
       (∀ (head eph : Bytes) (key : Nat), c.outcome = none → needBlk m .pke = .ok () → m.rng.halted = false →
         offerHead c n (drawn m 96) = some (head, eph) → m.khs.idKey = some key →
         Hands (.migratePrepare t tag) t s tag c (afterDraw m 96) 0x16 [(1, natBe 48 key), (2, sha384 head)] [head, eph]) ∧
       (∀ (st : W16) (r : Bytes), c.outcome = some (st, r) → st ≠ stOk → Ends (.migratePrepare t tag) t s tag m st []) ∧
       (∀ (r head eph sig : Bytes), c.outcome = some (stOk, r) → c.mem = [head, eph, sig] →
         let o : Offer :=
           { prepId := getLe64 head 0, expiry := getLe64 head 0x18, nonce := sliceOf head 0x20 32, ephPriv := beNat eph,
             sourceUid := f64 c 8, bytes := head ++ sig }
         Journals (.migratePrepare t tag) t s tag c m
           (q ++ [.tenant n { tenantIn (q.foldl effDur d) n with offer := some o }]) (head ++ sig) false)) ∧
     (∀ (x : Nat × List Effect), Starts 0x0D16 t tag s m c → saveChecks m tag c = .ok x →
       (f8 c 2 = 0 → Leaves (.migrateSave t tag) t s (lists 0 (f64 c 8))) ∧
       (∀ (q : Bytes), f8 c 2 ≠ 0 → c.outcome = none → needBlk m .pke = .ok () → p384Of (sliceOf (saveOffer c) 0x40 97) = some q →
         Hands (.migrateSave t tag) t s tag c m 0x17 [(2, q)] []) ∧
       (∀ (st : W16) (r : Bytes), f8 c 2 ≠ 0 → c.outcome = some (st, r) → st ≠ stOk → Ends (.migrateSave t tag) t s tag m st []) ∧
       (∀ (r z p : Bytes) (key : Nat), f8 c 2 ≠ 0 → c.outcome = some (stOk, r) → c.mem = [z, p] → m.khs.idKey = some key →
         let head := awayHead m c x.1 p (drawn m 32)
         Hands (.migrateSave t tag) t s tag c (afterDraw m 32) 0x16 [(1, natBe 48 key), (2, sha384 head)]
           [z, drawn m 32, head]) ∧
       (∀ (r : Bytes), f8 c 2 ≠ 0 → c.outcome = some (stOk, r) → c.mem.length = 4 →
         Leaves (.migrateSave t tag) t s (lists 0 (f64 c 8)))) ∧
     (∀ (x : Nat), Starts 0x0D17 t tag s m c → restoreChecks c = .ok x →
       (c.stage = 0 → Leaves (.migrateRestore t tag) t s (lists (f64 c 8) 0)) ∧
       (c.stage ≠ 0 →
         let b := c.mem.getD 0 []
         b.take 4 = ascii "NKSN" → getNat8 b 4 = 1 → 328 ≤ b.length → t64Ok (getLe64 b 0x20) = true →
         (getLe16 b 6).toNat = x → (getLe64 b 0x30).toNat = b.length - 328 →
         (∀ (e : List Effect), getNat8 b 5 = 0 → restoreOwn m x b = .ok e → Journals (.migrateRestore t tag) t s tag c m e [] false) ∧
         (∀ (o : Offer) (q : List Effect) (pt : Bytes),
           let cert := sliceOf c.body 32 (f16 c 24)
           let k := getNat8 b 8
           getNat8 b 5 = 1 → (tenantIn d x).state = .closed → (Config.certKey cert).length = 96 →
           Config.certUid cert = getLe64 b 0x10 →
           p384Verify (Config.certKey cert) (sha384 (b.take 0xC8)) (sliceOf b 0xC8 96) = true →
           (tenantIn d x).offer = some o → o.prepId = getLe64 b 0x28 → o.sourceUid = getLe64 b 0x10 →
           c.stamp.toNat < o.expiry.toNat → epochBits d x < k → k ≤ 128 → quorum m tag c clsTenantAdmin = .ok q →
           p384Of (sliceOf b 0x40 97) = some pt →
           (c.outcome = none → needBlk m .pke = .ok () → m.rng.halted = false →
             Hands (.migrateRestore t tag) t s tag c m 0x17 [(1, natBe 48 o.ephPriv), (2, pt)] [b]) ∧
           (∀ (r z body : Bytes) (img : SnapImage), c.outcome = some (stOk, r) → c.mem.getD 1 [] = z →
             gcmDec (migKey (hmac .sha256 (o.nonce ++ sliceOf b 0xA8 32) z) x k (sliceOf b 0x28 8)) (sliceOf b 0x128 12)
               (b.take 312) (sliceOf b 312 (b.length - 328)) (b.drop (b.length - 16)) = some body →
             Config.snapDecode body = some img → routeFits m d x img.routes (allNodes img.routes) = .ok () →
             let y := { img.rec_.getD Tenant.none with
               state := .restoring, epoch := k, offer := none, migratedOut := false, snapRef := none }
             Journals (.migrateRestore t tag) t s tag c m
               (q ++ [.restored { img with tenant := x, rec_ := some y }, .epoch x k]) [] false))))) ∧
  (∀ (t : Nat) (s : State), let m := s.now t
     (∀ (ten sid : Nat) (x : Session), sessOf m ten sid = some x → serving m = true →
       (x.halfOpen = true → (t64Add x.limitFrom nsPerS).toNat ≤ (nowT m).toNat →
         Leaves (.sessionHalfOpenTimeout t ten sid) t s (issueOwn m [.closeSession (sessKey ten sid)])) ∧
       Leaves (.sessionMarkSend t ten sid) t s (sendMark m ten sid x.h) ∧
       (∀ (mark : Nat), mark ≤ x.mark → Leaves (.sessionMarkAck t ten sid mark) t s
         (releaseGated (setSess m ten sid { x with acked := max x.acked mark }) ten sid))) ∧
     (∀ (ten : Nat) (a : W64), (tenantOf m ten).rerootArmed = some a → serving m = true →
       (t64Add a (86400 * nsPerS)).toNat ≤ (nowT m).toNat →
       Leaves (.rerootArmingLapse t ten) t s (issueOwn m [.lapse ten])) ∧
     (∀ (ten : Nat), tagsOf m ten = 0 → Leaves (.tenantDrainDone t ten) t s
       ((m.cmq.cmds.filter (fun p => p.2.phase == .drain && f16 p.2 0 == ten)).foldl (fun m p => resumeCmd m p.1) m)) ∧
     (∀ (ten : Nat) (o : Offer), (tenantOf m ten).offer = some o → o.expiry.toNat ≤ (nowT m).toNat →
       Leaves (.migrationOfferExpiry t ten) t s
         { m with dur := updTenant m.dur ten (fun x => { x with offer := none }) }))

/-! ### Supervisor, life cycle, recorder, health and supplies (chapters 15 to 19) -/

/-- The supervisor's commands: re-admission and release where the tamper state asks for them, a restart that follows
the completion, a calibration set clamped to its floors, the set in use (15 R401, R402, R405, R406, R408). A life-
cycle reset waits for the commands still at work, at most 50 ms; a scan instruction is taken or becomes BYPASS (16
R417, R424). An image is accepted in two steps: its list is asked for once its form and quorum hold, its record is
issued once it is staged (04 R125). It says that these complete: ssvReadmit, ssvRestart, ssvRelease, calWrite,
calRead, lcTransitionReset, tapInstruction, imgAccept. -/
def Obligations.SupervisorAndLifeCycleCommandsComplete : Prop :=
  (∀ (t tag : Nat) (s : State) (m : Mod) (c : Cmd),
     (Starts 0x0F10 t tag s m c → c.body = [] → m.ssv.tamper = .hold → (∀ p ∈ m.ssv.recs, p.2.copied = true) →
       m.rng.halted = false → Journals (.ssvReadmit t tag) t s tag c m [.readmit] [] true) ∧
     (Starts 0x0F11 t tag s m c → c.body = [] → m.ssv.tamper ≠ .normal →
       Leaves (.ssvRestart t tag) t s (coreOn (coreReset (endCmd m tag stOk [])))) ∧
     (∀ (q : List Effect), Starts 0x0F14 t tag s m c → c.body = [] → m.ssv.tamper = .readmitted →
       quorum m tag c clsMaintenance = .ok q → Journals (.ssvRelease t tag) t s tag c m (q ++ [.release]) [] true) ∧
     (∀ (q : List Effect), Starts 0x0F12 t tag s m c → c.body.length = 1024 → m.ssv.calWrites < 1000 →
       quorum m tag c clsCalibration = .ok q →
       if calOk c.body then
         Journals (.calWrite t tag) t s tag c m (q ++ [.calibration (calStored m.ssv.cal (calClamp c.body).1)])
           (natLe 2 (calClamp c.body).2 ++ zeroBytes 6) true
       else Ends (.calWrite t tag) t s tag m stBadFormat []) ∧
     (Starts 0x0F13 t tag s m c → c.body = [] → Ends (.calRead t tag) t s tag m stOk (calSet m))) ∧
  (∀ (t : Nat) (s : State), let m := s.now t
     (∀ (a : Nat), m.lcc.stopping = some a → (m.cmq.cmds = [] ∨ a + 50000000 ≤ m.clk) →
       Leaves (.lcTransitionReset t) t s
         (coreOn (coreReset ((m.cmq.cmds.map Prod.fst).foldl (fun m tag => endCmd m tag stAborted []) m)))) ∧
     (∀ (ir : TapIr), m.powered = true →
       let x := tapEffective m ir
       let m1 := emit { m with lcc := { m.lcc with ir := x } } (.tapOut x (if x = .idcode then 0x19420A5D else 0))
       Leaves (.tapInstruction t ir) t s
         (if x = .extest ∨ x = .clamp ∨ x = .highz then { m1 with tlk := { m1.tlk with shut := true } } else m1))) ∧
  (∀ (t tag : Nat) (s : State) (m : Mod) (c : Cmd) (q : List Effect),
     Starts 0x0F50 t tag s m c → c.body.length = 24 → 4096 ≤ (f64 c 8).toNat → (f64 c 8).toNat ≤ 4194304 →
     (f64 c 8).toNat % 4096 = 0 → f8 c 16 ≤ 1 → allZero (fBytes c 17 7) = true → quorum m tag c clsMicrocode = .ok q →
     if c.stage = 0 then
       Leaves (.imgAccept t tag) t s
         (emit (updCmd m tag (fun c => { c with phase := .job, readAt := m.clk })) (.sglRead (portFor m c) (f64 c 0) 0 0))
     else
       let x := otherSlot m
       Journals (.imgAccept t tag) t s tag c m (q ++ [.image x.digest x.version x.svn (f8 c 16 == 1)])
         (le32 x.version ++ le16 x.svn ++ [if m.txp.slot = .a then 1 else 0, 0]) false)

/-- A source that triggers responds as the calibration set says, no weaker than its floor; the supervisor's cells, its
supplies, its cold start, its self-tests and its record copies (15 R386 to R399). It says that these complete:
sensorTrigger, cellEvent, ssvPowerStateChange, ssvColdStart, detectorSelftest, ssvRecordCopy. -/
def Obligations.SupervisorEventsComplete : Prop :=
  ∀ (t : Nat) (s : State), let m := s.now t
    (∀ (src r detail : Nat) (v : W32), detectorOut m src = false → src ≠ 0x6D → src ≠ 0x6F →
      let m1 := noteReading m src v
      respOf m1 src = some r → ssvSupplied m1 = true → srcWatched m1 src = true → railExcused m1 src v = false →
      Leaves (.sensorTrigger t src v detail) t s (respond m1 src r (detailOf src detail) v (limitOf m1 src v) false)) ∧
    (∀ (n : Nat), n < 2 → let c := cellOf m n
      (c.present = true → Leaves (.cellEvent t n .removed) t s
        (cellAct (setCell m n Cell.none) n
          (if m.ssv.power == .main && m.ssv.maintSeen && cellGood (cellOf m (1 - n)) then 0 else 2) 1)) ∧
      (cellGood c = false → Leaves (.cellEvent t n .inserted) t s
        (cellAct (withVolt m n { present := true, depleted := false, low := false, milliVolt := 0 } 2600 3601) n 0 5)) ∧
      (c.present = true → c.depleted = false → c.low = false → Leaves (.cellEvent t n .low) t s
        (cellAct (withVolt m n { c with low := true } 2200 2600) n 1 2)) ∧
      (c.present = true → c.depleted = false → Leaves (.cellEvent t n .depleted) t s
        (cellAct (withVolt m n { c with low := false, depleted := true } 0 2200) n 1 3)) ∧
      (c.present = true → c.low = true → Leaves (.cellEvent t n .recovered) t s
        (withVolt m n { c with low := false } 2600 3601))) ∧
    (∀ (p : SsvPower), m.ssv.power ≠ p →
      Leaves (.ssvPowerStateChange t p) t s
        (if p = .main then { m with ssv := { m.ssv with power := .main } }
        else if m.ssv.power = .main then
          let m1 := opPowerFail (if p = .aux then 2 else 3) m
          noteSupply (cellsMissing { m1 with ssv := { m1.ssv with
            power := p, maintSeen := false, lastTime := if m1.powered then nowT m1 else m1.tim.floor, lastClk := m1.clk } })
        else noteSupply { m with ssv := { m.ssv with power := p } })) ∧
    (m.powered = false →
      let m1 := { m with ssv := { m.ssv with
        cold := true, esh := none, squalled := false, maintSeen := false, tempAOk := true, tempBOk := true, fi := [],
        latch := 0, stfail := 0, round := 0, recs := [], lost := 0, seq := 0, lastSt := 0, lastTime := 0, lastClk := m.clk } }
      Leaves (.ssvColdStart t) t s (respond m1 0x6F ((respOf m1 0x6F).getD 0) 0 0 0 false)) ∧
    (∀ (src : Nat), ssvSupplied m = true → isDetector m src = true →
      Leaves (.detectorSelftest t src true) t s (setTempOk (setStfail (noteTest m src) src false) src true) ∧
      (let m1 := setTempOk (setStfail (noteTest m src) src true) src false
        let m2 := if m.ssv.power = .main then raiseInt m1 .ssv 0x40000000 else m1
        Leaves (.detectorSelftest t src false) t s
          (failedActs (respond m2 0x6D ((respOf m2 0x6D).getD 1) src 0 0 false) src))) ∧
    (∀ (n : Nat) (r : TamperRec), m.powered = true → m.ssv.power = .main → nextCopy m = some (n, r) →
      Leaves (.ssvRecordCopy t) t s
        { m with
          ssv := { m.ssv with recs := tblSet m.ssv.recs n { r with copied := true } }
          jnl := { m.jnl with evidence := m.jnl.evidence ++ [(n, recW0 r, r.stamp, recW2 r)] } })

/-- The recorder: an epoch that ends leaves its record and opens the next, the log is read through a list and cleared,
a write of the buffer ends (17 R429, R431, R433). Samples that came after the epoch's end open the next (log 57).
Known-answer tests passed and failed, a requested test of a block that Table 17.5 does not list, scrubbing, the epoch
of errors as the model aligns it (log 57) and the health report (02 R35, 17 R440 to R442). It says that these
complete: evrRead, evrClear, evrEpochEnd, evrLogWriteDone, katRun, sramScrub, hltEpochEnd, healthReportPublish. -/
def Obligations.RecorderAndHealthComplete : Prop :=
  ((∀ (t tag : Nat) (s : State) (m : Mod) (c : Cmd),
     (Starts 0x0F40 t tag s m c → c.body.length = 24 → needBlk m .evr = .ok () → 1 ≤ f32 c 8 → f32 c 8 ≤ 65536 →
       allZero (fBytes c 12 4) = true →
       if m.evr.log.length ≤ (f64 c 0).toNat then Ends (.evrRead t tag) t s tag m stOk (evrResult c 0)
       else Leaves (.evrRead t tag) t s
         (emit (updCmd m tag (fun c => { c with phase := .job, readAt := m.clk })) (.sglRead (portFor m c) 0 (f64 c 16) 0))) ∧
     (∀ (q : List Effect), Starts 0x0F41 t tag s m c → c.body = [] → needBlk m .evr = .ok () →
       quorum m tag c clsMaintenance = .ok q →
       Journals (.evrClear t tag) t s tag c m (q ++ [.evrClear]) (natLe 8 m.evr.log.length) false)) ∧
   ∀ (t : Nat) (s : State), let m := s.now t
     (∀ (ch : Nat) (e : EvrEpoch), ch < 64 → (evrChanOf m ch).epoch = some e → (firing m (.evr ch)).isSome = true →
       let cfg := (evrChanOf m ch).cfg
       let m1 := noEpoch (evrPush m (evrRecord ch cfg e e.stop false m.evr.seq)) ch
       let next := (evrChanOf m ch).late.getD (epochAfter m1 cfg e)
       Leaves (.evrEpochEnd t ch) t s (if chanOn m1 ch then setEpoch m1 ch next else m1)) ∧
     (∀ (n : Nat), m.evr.writing = true → let m1 := evrToLog m n
       Leaves (.evrLogWriteDone t n) t s
         { m1 with evr := { m1.evr with writing := decide (64 ≤ m1.evr.buffer.length) } })) ∧
  (∀ (t : Nat) (s : State), let m := s.now t
     (∀ (u : KatUnit) (b : Blk) (n : Nat), inService m = true → katPlace u = some (b, n) → katLive m b n = true → b ≠ .pke →
       let run := fun pass => updBlk m b (testHdr (unitsOf m b) n pass)
       let count := fun (m : Mod) => { m with hlt := { m.hlt with runs := m.hlt.runs + 1 } }
       let ok := count (run true)
       (katListed b = true → Leaves (.katRun t u true) t s
         (noteOverdue (clearUsed { ok with hlt := { ok.hlt with passed := tblSet ok.hlt.passed (katKey b n) ok.clk } } b n))) ∧
       (katListed b = true → Leaves (.katRun t u false) t s (noteOverdue (katFail (count (run false)) b n))) ∧
       (katListed b = false → (blkOf m b).testReq = true →
         Leaves (.katRun t u true) t s (noteOverdue (run true)) ∧
         Leaves (.katRun t u false) t s (noteOverdue (raiseInt (run false) b 0x40000000)))) ∧
     (∀ (b : Blk) (a : Nat), m.powered = true → m.hlt.scrubbed + 1 < sramWords →
       Leaves (.sramScrub t b a .none) t s { m with hlt := { m.hlt with scrubbed := m.hlt.scrubbed + 1 } }) ∧
     (m.hlt.epoch < hltEpochOf (extNs m) →
       let clean := blkList.filter (fun b => !m.hlt.dirty.contains b.idx)
       let m1 := clean.foldl (fun m b => updBlk m b (fun h => { h with health := if h.health = 1 then 0 else h.health })) m
       Leaves (.hltEpochEnd t) t s
         { m1 with hlt := { m1.hlt with dirty := [], epochCorr := 0, epoch := hltEpochOf (extNs m) } }) ∧
     (∀ (x : Timer), firing m (.system healthTimer) = some x →
       let m1 := insTimer (takeTimer m x) (.system healthTimer) (t64Add x.due healthGap)
       inService m1 = true →
       let m2 := noteOverdue { m1 with hlt := { m1.hlt with seq := m1.hlt.seq + 1 } }
       let m3 := { m2 with hlt := { m2.hlt with report := healthReport m2 } }
       Leaves (.healthReportPublish t) t s
         (emit (sendTwin m3 (.health (healthReport m2))) (.sideband (healthReport m2)))))

/-- Supplies and resets: the core die starts and stops, the start-up sequence runs once, flush-only mode begins and
ends, the bank's energy gates READY, the trip clears it (18 R448, R449, R461, R463, R466; 19 R469, R477, R478). It
says that these complete: suppliesValid, moduleStart, holdupCharged, modResetAssert, modResetRelease,
powerFailTrigger, flushComplete, holdupLow, thermalTrip, storeReclaim, tableCheckpoint, i3cAddressAssign. -/
def Obligations.ResetEventsComplete : Prop :=
  ∀ (t : Nat) (s : State), let m := s.now t
    (m.powered = false → m.jnl.resetHeld = false →
      Leaves (.suppliesValid t) t s (coreOn (coreReset { m with ssv := { m.ssv with power := .main } }))) ∧
    (∀ (o : StartOutcome), m.powered = true → m.jnl.started = false → m.jnl.flushing = false →
      let m1 := startSsv o (startIdentity (startDecode o (startPuf o (startRng o
        { m with jnl := { m.jnl with started := true } }))))
      Leaves (.moduleStart t o) t s
        (if m1.khs.pufFail || lcState m1 == 7 then startPorts m1 else tryReady (startRest o (startRoots o m1)))) ∧
    (∀ (mJ : Nat), m.powered = true → (inService m = true → 150 ≤ mJ) →
      Leaves (.holdupCharged t mJ) t s (tryReady { m with jnl := { m.jnl with holdup := min 65535 mJ } })) ∧
    (m.powered = true → m.jnl.flushing = false →
      Leaves (.modResetAssert t) t s (coreReset { m with jnl := { m.jnl with resetHeld := true } })) ∧
    (m.jnl.resetHeld = true → m.ssv.power = .main → m.powered = false →
      Leaves (.modResetRelease t) t s (coreOn { m with jnl := { m.jnl with resetHeld := false } })) ∧
    (∀ (src : Nat), m.powered = true → m.jnl.flushing = false → 1 ≤ src → src ≤ 3 →
      let bit := fun (n : Nat) (b : Bool) => if b then 2 ^ n else 0
      let st := src + bit 4 (!inService m) + bit 3 (m.ssv.tamper == .erased)
      let m1 := { m with jnl := { m.jnl with flushing := true, pfStat := BitVec.ofNat 5 st, pfCnt := m.jnl.pfCnt + 1 } }
      let m2 := dropCapsules (haltPke (closeEpochs m1))
      Leaves (.powerFailTrigger t src) t s
        { m2 with
          cmq := { m2.cmq with cmds := [] }
          sch := { m2.sch with rings := [] }
          sce := { m2.sce with jobs := [] }
          dge := { m2.dge with jobs := [] } }) ∧
    (∀ (us : Nat) (supplies : Bool), m.jnl.flushing = true →
      let m1 := noteSealed { m with jnl := { m.jnl with pfFlushUs := min 8191 us, flushed := some true } }
      let m2 := evrToLog { m1 with jnl := { m1.jnl with pfStat := m1.jnl.pfStat ||| 4 } } m1.evr.buffer.length
      let m3 := coreReset (if m.jnl.pfStat.getLsbD 4 then { m2 with jnl := { m2.jnl with flushed := none } } else m2)
      Leaves (.flushComplete t us supplies false) t s
        (if supplies && m3.ssv.power == .main && !m3.jnl.resetHeld then coreOn m3 else m3)) ∧
    (∀ (mJ : Nat), m.powered = true → mJ < 150 → inService m = true →
      Leaves (.holdupLow t mJ) t s
        (raiseInt { m with devReady := false, jnl := { m.jnl with holdup := mJ } } .jnl 1)) ∧
    (m.powered = true →
      Leaves (.thermalTrip t) t s { m with devReady := false, sb := { m.sb with thermTrip := true } }) ∧
    (∀ (n : Nat), inService m = true →
      let rest := m.jnl.reclaim.toNat - n
      let other := m.jnl.sealedIn.any (fun h => h != (lcState m, m.khs.esc.getD []))
      Leaves (.storeReclaim t n) t s
        { m with jnl := { m.jnl with
          reclaim := BitVec.ofNat 64 rest, sealedIn := if rest = 0 ∧ other = true then none else m.jnl.sealedIn } } ∧
      Leaves (.tableCheckpoint t) t s { m with jnl := { m.jnl with ckptJsn := m.jnl.jsnCommit } }) ∧
    (∀ (a : Nat), m.ssv.power ≠ .lull → a < 128 →
      Leaves (.i3cAddressAssign t a) t s (emit { m with sb := { m.sb with addr := a } } (.i3cAck a)))

/-! ### Events of keys, bulk work, the scheduler and time (chapters 4 to 6, 8, 13) -/

/-- A blob read's outcome in time: a good blob fills its line or waits in its slot, a bad one ends its waiters, a
failed read is tried again; a read out of time is given up (06 R174, R176). Lines: a line due takes one fresh value in
both shares, an aged one is freed, one in error is zeroed; the banks swap at the rehash's end (06 R178, R179, R184,
R187). It says that these complete: blobReadComplete, blobReadRetry, blobFetchDeadline, lineRemask, ageEvictVisit,
lineEccError, rehashDone. -/
def Obligations.BlobAndCacheEventsComplete : Prop :=
  (∀ (t : Nat) (s : State), let m := s.now t
     ∀ (n : Nat) (f : Fetch), tblFind m.bsx.slots n = some f → f.blob = none →
       (∀ (b : Bytes), f.retryAt = none → m.clk < f.first + 200000 →
         let m1 := noteFetch m f
         match f.line with
         | none => Leaves (.blobReadComplete t n (.data b)) t s (holdBlob m1 n f b)
         | some l => (blkOf m1 .khs).fault = false →
           match checkBlob m1 f.handle b with
           | .error st => Leaves (.blobReadComplete t n (.data b)) t s (refuseBlob m1 n f st)
           | .ok (a, k) => Leaves (.blobReadComplete t n (.data b)) t s (dropSlot (fillLine m1 l a k) n)) ∧
       (∀ (e : ReadFail), f.retryAt = none → m.clk < f.first + 200000 →
         Leaves (.blobReadComplete t n (.failed e)) t s (fetchFailed m n)) ∧
       (∀ (x : Timer), firing m (.blob n) = some x → f.retryAt.isSome = true → m.clk < f.first + 200000 →
         let m1 := takeTimer m x
         Leaves (.blobReadRetry t n) t s
           (issueFetch { m1 with bsx := { m1.bsx with readErr := m1.bsx.readErr + 1 } } n)) ∧
       (f.first + 200000 ≤ m.clk → Leaves (.blobFetchDeadline t n) t s (abandonFetch m n f))) ∧
  (∀ (t : Nat) (s : State), let m := s.now t
     (∀ (n : Nat) (l : Line), tblFind m.kch.lines n = some l → maskDue m l = true → remaskReady m = true →
       let x := maskBlocks m m.kch.mask 1
       let r := freeBytesAt x.1.free 64
       let l1 := { l with
         shareA := xorBytes l.shareA r, shareB := xorBytes l.shareB r, remasked := m.clk, remasks := l.remasks + 1,
         deliveries := 0 }
       let k := { x.1.kch with lines := tblSet x.1.kch.lines n l1, mask := x.2, remask := x.1.kch.remask + 1 }
       Leaves (.lineRemask t n) t s (zeroSched { x.1 with free := x.1.free + 64, kch := k } n)) ∧
     (∀ (ten : Nat), (tenOf m ten).tage ≠ 0 →
       let old := fun (p : Nat × Line) =>
         p.2.tenant == ten && evictable p.2 && decide ((tenOf m ten).tage * 1000 < lineAge m p.2)
       Leaves (.ageEvictVisit t ten) t s ((m.kch.lines.filter old).foldl (fun m p =>
         let m1 := freeLine m p.1
         { m1 with kch := { m1.kch with ageEvict := m1.kch.ageEvict + 1 } }) m)) ∧
     (∀ (n : Nat) (l : Line), tblFind m.kch.lines n = some l → l.state = .valid → l.pins = [] →
       Leaves (.lineEccError t n) t s (freeLine (raiseErr m .kch 5 2 (BitVec.ofNat 64 n)) n)) ∧
     (m.kch.busy = true → bucketTotal ≤ m.kch.moved →
       let m1 := m.kch.stash.foldl rehashEntry { m with kch := { m.kch with stash := [] } }
       let k := { m1.kch with bank := m1.kch.other, other := [], seed := m1.kch.newSeed, busy := false }
       Leaves (.rehashDone t) t s (raiseInt { m1 with kch := k } .kch 8)))

/-- Samples that fail the tests of 05 R159 put their source out of use, are counted for 1 s, and the third failure
marks the source; what a halt of both generators ends is the model's reading (log 56); a generator is reseeded in
time, a pipeline's next mask seed arrives once 49,152 blocks are done and takes over at 65,536 (05 R159 to R161, R163,
R164). It says that these complete: rngHealthTestFail, drbgReseed, maskSeedRenew. -/
def Obligations.RandomEventsComplete : Prop :=
  ∀ (t : Nat) (s : State), let m := s.now t
    (∀ (n : Nat) (l : List Bool), n < 2 → m.powered = true → (srcEs m n).failed = false → samplesPass n l = false →
      let fails := ((srcEs m n).fails.filter (fun a => decide (m.clk < a + nsPerS))) ++ [m.clk]
      let dead := decide (3 ≤ fails.length)
      let m1 := setEs m n { srcEs m n with fails := fails, failed := dead, ok := false }
      let m2 := judgeSources (raiseInt { m1 with rng := { m1.rng with htFail := m1.rng.htFail + 1 } } .rng (if dead then 3 else 1))
      let m3 := m2.cmq.cmds.foldl jobHalt m2
      Leaves (.rngHealthTestFail t ⟨n, [l]⟩) t s
        (if m2.rng.halted && !m.rng.halted then m3.cmq.cmds.foldl pkHalt m3 else m2)) ∧
    (∀ (n : Nat), n < 2 → let d := if n = 0 then m.rng.d0 else m.rng.d1
      m.rng.halted = false → d.ready = true → (m.rng.es1.ok = true ∨ m.rng.es2.ok = true) →
      (2 ^ 20 ≤ d.requests ∨ d.since + nsPerS ≤ m.clk) →
      let d1 := { d with requests := 0, since := m.clk }
      Leaves (.drbgReseed t n) t s { m with rng := { m.rng with
        d0 := if n = 0 then d1 else m.rng.d0, d1 := if n = 0 then m.rng.d1 else d1, reseeds := m.rng.reseeds + 1 } }) ∧
    (∀ (p : Nat), p < 10 → m.rng.halted = false →
      let g := pipeMask m p
      let set := fun (m : Mod) (g : MaskGen) => { m with sce := { m.sce with mask := tblSet m.sce.mask p g } }
      (g.next = none → seedAsk ≤ g.blocks →
        Leaves (.maskSeedRenew t p) t s (set (afterDraw m 48) { g with next := some (drawn m 48) })) ∧
      (∀ (b : Bytes), g.next = some b → g.blocks = seedBlocks →
        Leaves (.maskSeedRenew t p) t s (set m { seed := b, next := none, blocks := 0 })))

/-- Jobs: a waiting command takes a free slot or gives up after 2 ms; a job's data makes its result, a failed read or
8 ms end it; an idle stream's context is freed (08 R222 to R225, R230, R232). It says that these complete:
jobSlotGrant, jobSlotTimeout, jobEnd, jobTimeout, streamIdleExpiry. -/
def Obligations.JobEventsComplete : Prop :=
  ∀ (t tag : Nat) (s : State), let m := s.now t
    (∀ (c : Cmd) (a p : Nat), cmdOf m tag = some c → c.phase = .slot a → pipeFor m c = some p → m.clk < a + 2000000 →
      Leaves (.jobSlotGrant t tag) t s (placeJob m tag p)) ∧
    (∀ (c : Cmd) (a : Nat), cmdOf m tag = some c → c.phase = .slot a → a + 2000000 ≤ m.clk → c.opcode / 256 = 0x0A →
      Ends (.jobSlotTimeout t tag) t s tag
        (raiseInt { m with dge := { m.dge with slotRefuse := m.dge.slotRefuse + 1 } } .dge 4) stRetryLater []) ∧
    (∀ (c : Cmd) (j : Job) (ins outs aads b again : Bytes) (agree : Bool),
      cmdOf m tag = some c → c.phase = .job → c.opcode = 0x0803 → jobOf m tag = some j → m.clk < j.start + 8000000 →
      jobKeyed m c = true → sglOk (f64 c 0x28) (sglEntries ins) (f32 c 0x0C) = true →
      sglOk (f64 c 0x30) (sglEntries outs) (f32 c 0x0C) = true → sglOk (f64 c 0x38) (sglEntries aads) (f32 c 0x10) = true →
      let m0 := deliverKey m j.tag j.pipe c
      let d := (fitRight (f32 c 0x10 + f32 c 0x0C) b).drop (f32 c 0x10)
      let m1 := countJob m0 c j.pipe stOk (f32 c 0x10) d.length
      let key := (heldKey m0 (f64 c 0)).2
      let iv := fBytes c 0x18 (f8 c 0x0A)
      let out := if f8 c 8 = 1 then cbcEnc .aes key iv d else ctrCrypt .aes key iv d
      f8 c 0x0B ≠ 1 →
      Leaves (.jobEnd t tag (.data ins outs aads b again agree)) t s
        (jobDone (if out = [] then m1 else jobOutput m1 (portFor m c) (sglEntries ins) (sglEntries outs) out) tag stOk [])) ∧
    (∀ (c : Cmd) (j : Job) (x : W64), cmdOf m tag = some c → c.phase = .job → c.opcode / 256 = 0x0A →
      jobOf m tag = some j →
      (m.clk < j.start + 8000000 → Leaves (.jobEnd t tag (.readFailed x)) t s
        (jobDone (updBlk m .dge (fun h => captureErr h 0 2 x)) tag stBadPointer [])) ∧
      (j.start + 8000000 ≤ m.clk → Leaves (.jobTimeout t ⟨tag, .readFailed x, 0⟩) t s (jobDone m tag stDataTimeout []))) ∧
    (∀ (ten x : Nat), let y := strOf m ten x
      (y.state = 1 ∨ y.state = 3) → (t64Add y.lastStamp (m.sce.streamIdle * nsPerS)).toNat ≤ (nowT m).toNat →
      Leaves (.streamIdleExpiry t ten x) t s (streamEvent (updStr m ten x Stream.idle) ten x 2))

/-- The scheduler: a context that asks waits, and the waiting context first in rotation is granted the tag deficit
round robin chooses, a tag that has waited rises a level, a command at work yields or is stopped; timers fire at their
instants (04 R101, R107, R111, R113, R117; 05 R151; 09 R254). It says that these complete: getwork, tagAgePromote,
yieldTag, cycleBudgetExhausted, keyScheduleTimer, budgetRolloverTimer, budgetSnapshot. -/
def Obligations.SchedulerEventsComplete : Prop :=
  ∀ (t : Nat) (s : State), let m := s.now t
    (∀ (core ctx : Nat), ctxFree m core ctx = true →
      let m1 := ctxWait m core ctx
      match nextGrant m1 with
      | none => Leaves (.getwork t core ctx) t s m1
      | some (tag, m2) => Leaves (.getwork t core ctx) t s (runGrant m2 tag)) ∧
    (∀ (core ctx tag : Nat) (m1 : Mod), waitingCtx m = some (core, ctx) → chooseTag m = some (tag, m1) →
      grantOfTag m tag = some (giveTag m1 core ctx tag)) ∧
    (∀ (tag l a : Nat) (c : Cmd), cmdOf m tag = some c → c.phase = .ready l a → l < 7 → a + m.sch.age * 1000 ≤ m.clk →
      let m1 := makeReady (leaveReady m tag) tag (l + 1)
      let m2 := { m1 with sch := { m1.sch with promote := m1.sch.promote + 1 } }
      Leaves (.tagAgePromote t tag) t s (if l + 1 = 7 then raiseInt m2 .sch 4 else m2)) ∧
    (∀ (tag : Nat) (c : Cmd), cmdOf m tag = some c → atWork c = true →
      (c.runs < dispatchesOf m c → mayYield c = true → Leaves (.yieldTag t tag) t s (makeReady m tag 7)) ∧
      Leaves (.cycleBudgetExhausted t tag) t s
        (let m1 := endCmd m tag stInternalFault []
        raiseInt { m1 with txp := { m1.txp with budgetFault := m1.txp.budgetFault + 1 } } .txp 1)) ∧
    (∀ (x : Timer) (h : Nat), dueTimer m 4 = some x → x.kind = .key h →
      let m1 := takeTimer m x
      Leaves (.keyScheduleTimer t) t s
        (if serving m1 && m1.devReady then issueOwn m1 [.fired (BitVec.ofNat 64 h) x.due] else m1)) ∧
    (∀ (x : Timer) (h : Nat) (b : Budget), dueTimer m 3 = some x → x.kind = .budget h →
      let m1 := takeTimer m x
      tblFind m1.dur.bud h = some b →
      let y := broughtForward b (tickT m1)
      Leaves (.budgetRolloverTimer t) t s
        (insTimer { m1 with dur := { m1.dur with bud := tblSet m1.dur.bud h y } } (.budget h) (windowEnd y))) ∧
    (∀ (x : Timer), firing m (.system snapshotTimer) = some x →
      let m1 := insTimer (takeTimer m x) (.system snapshotTimer) (t64Add x.due snapshotGap)
      Leaves (.budgetSnapshot t) t s (if serving m1 && m1.devReady then issueOwn m1 [.snapshot m1.dur.bud] else m1))

/-- External time: samples of PTP, PPS and TOD, path delay asked for and answered, sources lost and refused,
holdover's end (13 R346 to R349, R352, R355). The time settings are replaced in one record under their quorum; a
refused source is accepted with its offset (13 R358). It says that these complete: ptpSyncRx, ptpAnnounceRx,
delayRespRx, pdelayReqRx, delayReqSend, ppsEdge, todMessageRx, timeSourceLost, holdoverExpired, sourceRejectEnd,
timeConfigSet, timeAccept. -/
def Obligations.TimeComplete : Prop :=
  (∀ (t : Nat) (s : State), let m := s.now t
     (∀ (x : PtpMsg) (src : TimeSrc), ptpEntryOf m x = some src →
       let b := ptpEntry m.dur.tcfg (srcIdx src)
       (x.secs < 2 ^ 34 → x.nanos ≤ 999999999 →
         let ext := ptpNs x + tblGet 0 m.tim.pathDelay (srcIdx src)
         Leaves (.ptpSyncRx t x) t s
           (takeSample { m with tim := { m.tim with sync := tblSet m.tim.sync (srcIdx src) (m.clk, ptpNs x) } } src ext
             (ptpAgrees m src ext))) ∧
       (x.ptpTimescale = true → x.clockClass ≤ getNat8 b 5 →
         Leaves (.ptpAnnounceRx t x) t s
           (updSrc m src (fun y => { y with announced := true, qualified := y.qualified || decide (16 ≤ y.samples) }))) ∧
       (∀ (a : Nat), tblFind m.tim.reqSent (srcIdx src) = some a → ptpP2p b = true →
         Leaves (.delayRespRx t x) t s { m with tim := { m.tim with
           reqSent := tblErase m.tim.reqSent (srcIdx src),
           pathDelay := tblSet m.tim.pathDelay (srcIdx src) (((m.clk : Int) - (a : Int) - x.correction) / 2) } })) ∧
     (∀ (x : PtpMsg), let b := ptpEntry m.dur.tcfg 0
       srcEnabled m.dur.tcfg .ptp0 = true →
       (ptpP2p b = true → ptpPlace b x = true → netPortSends m x.port = true →
         Leaves (.pdelayReqRx t x) t s (emit m (.pdelayResp x.port))) ∧
       (netPortSends m (getNat8 b 1) = true → (∀ a, tblFind m.tim.reqAt 0 = some a → a + ptpInterval b ≤ m.clk) →
         let x := { m.tim with reqSent := tblSet m.tim.reqSent 0 m.clk, reqAt := tblSet m.tim.reqAt 0 m.clk }
         Leaves (.delayReqSend t 0) t s (emit { m with tim := x } (.ptpDelayReq (getNat8 b 1) (ptpP2p b))))) ∧
     (∀ (a secs : Nat), m.tim.tod = some (a, secs) → m.clk ≤ a + nsPerS →
       let m1 := updSrc m .pps (fun x => { x with refOk := true })
       let m2 := { m1 with tim := { m1.tim with pps := some m.clk, tod := none } }
       Leaves (.ppsEdge t true) t s
         (takeSample m2 .pps ((secs : Int) * nsPerS) (m.tim.pps.elim false (fun a => secondApart a m.clk)))) ∧
     (∀ (b : Bytes), todOk b = true → (getNat8 b 3).testBit 0 = true →
       let secs : Nat := (getLe64 b 4).toNat % 2 ^ 34
       Leaves (.todMessageRx t b) t s
         (takeSample { m with tim := { m.tim with tod := some (m.clk, secs) } } .tod ((secs : Int) * nsPerS + todSpan)
           ((srcOf m .tod).last.elim false (fun p => secondApart p.1 m.clk)))) ∧
     (∀ (src : TimeSrc) (a : Nat), (if src = .pps then m.tim.pps else (srcOf m src).last.map Prod.fst) = some a →
       a + lossAfter src ≤ m.clk → Leaves (.timeSourceLost t src) t s (loseSrc m src)) ∧
     (∀ (a : W64), m.tim.mode = .holdover → m.tim.lossAt = some a → (holdEnd m a).toNat ≤ (nowT m).toNat →
       Leaves (.holdoverExpired t) t s (raiseInt { m with tim := { m.tim with mode := .expired } } .tim 8)) ∧
     (∀ (src : TimeSrc) (h : Nat), (srcOf m src).rejected = some h → h < hourNow m →
       Leaves (.sourceRejectEnd t src) t s (updSrc m src (fun x => { x with rejected := none })))) ∧
  (∀ (t tag : Nat) (s : State) (m : Mod) (c : Cmd) (q : List Effect),
     (Starts 0x0F20 t tag s m c → c.body.length = 112 → needBlk m .tim = .ok () → f32 c 0 ≤ 259200 → f32 c 4 ≤ 1000000 →
       1 ≤ f32 c 8 → f32 c 8 ≤ 10000000 → f8 c 12 ≤ 7 → allZero (fBytes c 13 3) = true →
       ptpEntryOk (fBytes c 0x10 48) = true → ptpEntryOk (fBytes c 0x40 48) = true → quorum m tag c clsTimeConfig = .ok q →
       let cfg : TimeCfg :=
         { holdLimit := getLe32 c.body 0, slewMax := getLe32 c.body 4, stepGuard := getLe32 c.body 8,
           srcEn := BitVec.ofNat 3 (f8 c 12), ptp0 := fBytes c 0x10 48, ptp1 := fBytes c 0x40 48 }
       Journals (.timeConfigSet t tag) t s tag c m (q ++ [.timeCfg cfg]) [] false) ∧
     (∀ (src : TimeSrc) (e : Int), Starts 0x0F21 t tag s m c → c.body = [] → needBlk m .tim = .ok () →
       timeSrcs.find? (srcRefused m) = some src → srcTime m src = some e → quorum m tag c clsTimeConfig = .ok q →
       let off := e - (extNs m : Int)
       Journals (.timeAccept t tag) t s tag c m (q ++ [.timeSet (srcIdx src) off])
         (natLe 8 (BitVec.ofInt 64 off).toNat) false))

/-! ### The twin (chapter 14) -/

/-- The pair's commands: pairing that waits for its counterpart, unpairing with the twin's word or alone, the report,
promotion of a unit whose twin is silent, handover at the next whole second, the revert's settings, a restart (14
R362, R376, R379 to R383). It says that these complete: twinPair, twinUnpair, twinStatus, twinPromote, twinHandover,
twinRevertSet, twinRestart. -/
def Obligations.TwinCommandsComplete : Prop :=
  ∀ (t tag : Nat) (s : State) (m : Mod) (c : Cmd) (q : List Effect),
    (Starts 0x1001 t tag s m c → 16 ≤ c.body.length → c.body.length = 16 + f16 c 14 → needBlk m .tlk = .ok () →
      f8 c 8 ≤ 1 → allZero (fBytes c 9 5) = true → canPair m = true → m.tlk.pairing = none →
      quorum m tag c clsTwinPair = .ok q →
      let cert := c.body.drop 16
      if (Config.certKey cert).length = 96 ∧ Config.certUid cert = f64 c 0 then
        let m1 := { m with tlk := { m.tlk with pairing := some (tag, f64 c 0, f8 c 8 == 1) } }
        Leaves (.twinPair t tag) t s (emitAll (updCmd m1 tag (fun c => { c with phase := .twin }))
          [.twinHandshake 0 Config.devUid, .twinHandshake 1 Config.devUid])
      else Ends (.twinPair t tag) t s tag m stPairRefused []) ∧
    (Starts 0x1002 t tag s m c → c.body.length = 8 → needBlk m .tlk = .ok () → f8 c 0 ≤ 1 → allZero (fBytes c 1 7) = true →
      m.tlk.paired = true → quorum m tag c clsTwinPair = .ok q →
      if f8 c 0 = 1 ∧ silentFor m (60 * nsPerS) = true then
        Journals (.twinUnpair t tag) t s tag c m
          (q ++ (if m.tlk.role = .windward then [] else closeAll (q.foldl effDur (projDur m))) ++ [.unpaired]) [] false
      else (linkPasses m 0 = true ∧ pathSilent m 0 = false ∨ linkPasses m 1 = true ∧ pathSilent m 1 = false) →
        if m.tlk.role = .windward then
          m.tlk.sync = true → Journals (.twinUnpair t tag) t s tag c m (q ++ [.unpaired]) [] false
        else Leaves (.twinUnpair t tag) t s (sendTwin (updCmd m tag (fun c => { c with phase := .twin })) .unpairAsk)) ∧
    (Starts 0x1003 t tag s m c → c.body = [] → needBlk m .tlk = .ok () →
      Ends (.twinStatus t tag) t s tag m stOk
        (le32 (twinStat m) ++ zeroBytes 4 ++ le64 m.tlk.roleEpoch ++ le64 m.tlk.jsnAcked ++ le64 (jsnReport m) ++
          le64 m.tlk.peerUid)) ∧
    (Starts 0x1004 t tag s m c → c.body = [] → needBlk m .tlk = .ok () → (m.tlk.role = .leeward ∨ m.tlk.role = .held) →
      m.tlk.paired = true → m.tlk.orphaned = false → isErased m = false → m.tlk.promoting = none → allSilent m = true →
      quorum m tag c clsTwinPair = .ok q →
      Journals (.twinPromote t tag) t s tag c
        (beginPromotion { m with tlk := { m.tlk with countsLost := true } } (m.clk - (extNs m - nsOf c.stamp)))
        (q ++ [.promote true]) (le64 (jsnReport m) ++ [if m.tlk.stale then 1 else 0] ++ zeroBytes 7) false) ∧
    (Starts 0x1005 t tag s m c → c.body = [] → needBlk m .tlk = .ok () → m.tlk.paired = true → m.tlk.role = .windward →
      m.tlk.sync = true → m.tlk.peerFormat = true → m.tlk.handover = none →
      let a := nextSecond c.stamp 100000000
      Ends (.twinHandover t tag) t s tag (armHandover m a false) stOk (le64 a)) ∧
    (Starts 0x1006 t tag s m c → c.body.length = 8 → needBlk m .tlk = .ok () → f8 c 0 ≤ 1 → 1 ≤ f32 c 4 →
      f32 c 4 ≤ 3600 → allZero (fBytes c 1 3) = true →
      Journals (.twinRevertSet t tag) t s tag c m [.revert (f8 c 0 == 1) (f32 c 4)] [] (!serving m)) ∧
    (Starts 0x1007 t tag s m c → c.body = [] → m.tlk.role = .leeward →
      Leaves (.twinRestart t tag) t s (coreOn (coreReset (endCmd m tag stOk []))))

/-- A Leeward that a frame reaches takes the next record, a commit notice, the DESYNC notice and a staged image; it
acknowledges while it is not STALE; a handover's record gives it the role; the twin's health report is kept (14 R363,
R365 to R367, R378, R488, 04 R125, 17 R442). It says that these complete: healthReportRx, journalRecordRx,
commitNoticeRx, desyncNoticeRx, imageStageRx, handoverRecordRx. -/
def Obligations.LeewardEventsComplete : Prop :=
  ∀ (t : Nat) (f : LinkFrame) (s : State), let m := s.now t
    linkPasses m f.link = true → frameTaken m f = true →
      let m1 := noteFrame m f
      (m1.tlk.paired = true → ∀ (rep : Bytes),
        Leaves (.healthReportRx t f rep) t s { m1 with tlk := { m1.tlk with health := fitRight 256 rep } }) ∧
      (takesRecords m1 f.link = true →
        (∀ (r : JRecord), r.jsn ≠ 0 → m1.jnl.jsnLast.toNat < r.jsn.toNat → r.jsn = m1.jnl.jsnLast + 1 →
          m1.tlk.stale = false → imageMatches m1 r = true →
          let m2 := { m1 with jnl := { m1.jnl with
            received := m1.jnl.received ++ [(r, nowT m1)], jsnLast := r.jsn, bufUsed := bufLevel m1 + recSize r.jsn,
            bufAt := m1.clk } }
          Leaves (.journalRecordRx t f r) t s
            (sendOn f.link { m2 with tlk := { m2.tlk with jsnAcked := r.jsn } } (.ack r.jsn))) ∧
        (∀ (stamps : List (W64 × W64)), m1.tlk.stale = false →
          Leaves (.commitNoticeRx t f stamps) t s (applyNoticed stamps m1.jnl.received.length m1)) ∧
        (m1.tlk.resync = false → Leaves (.desyncNoticeRx t f) t s (setStale m1)) ∧
        (∀ (img : Bytes), m1.tlk.resync = false →
          let m2 :=
            { setOtherSlot m1 ImgSlot.none with txp := { m1.txp with pending := false, otherValid := false } }
          let x : ImgSlot :=
            { usable := false, version := Config.imageVersion img, svn := Config.imageSvn img, digest := sha384 img,
              image := img }
          Leaves (.imageStageRx t f img true) t s
            (if Config.imageVerdict img = false ∨ (Config.imageSvn img).toNat < m2.txp.svnFloor.toNat ∨
                Config.imageReads img m2.tlk.peerWrites = false
            then sendOn f.link m2 (.imageReport false)
            else sendOn f.link (setOtherSlot m2 x) (.imageReport true))) ∧
        (∀ (jsn : W64) (hs : List (Nat × Nat)), m1.tlk.sync = true → m1.tlk.stale = false → jsn = m1.jnl.jsnLast →
          let m2 := applyReceived (disarm m1)
          let put := fun (a : Tbl Session) (p : Nat × Nat) =>
            match tblFind a p.1 with
            | none => a
            | some s => tblSet a p.1
                { s with h := p.2, bitmap := 2 ^ 1024 - 1, mark := max s.mark p.2, acked := max s.mark p.2 }
          let m3 := { m2 with dur := { m2.dur with sess := hs.foldl put m2.dur.sess } }
          let m4 := { m3 with tlk := { m3.tlk with
            roleEpoch := m3.tlk.roleEpoch + 1, switchCnt := m3.tlk.switchCnt + 1, jsnAcked := jsn, holdFrom := none } }
          Leaves (.handoverRecordRx t f jsn hs) t s
            (restartHalfOpen (claimAddrs (restartNct (dropLocalChals (endAlign (setRole m4 .windward))))))))

/-- A Windward commits through the record a first acknowledgement covers, or falls out of step after 50 µs without
one; its buffer takes what waits (14 R365, R367; 19 R476). Heartbeats: sent on each link and the wire while the unit
can serve, heard, missed after 1 ms; a frame that is not accepted is dropped and counted; a link due for new keys asks
for an exchange (14 R363, R364, R369). It says that these complete: journalAckRx, journalAckTimeout,
journalBufferSpace, heartbeatSend, heartbeatRx, pathSilent, linkRekey. -/
def Obligations.WindwardAndHeartbeatsComplete : Prop :=
  (∀ (t : Nat) (s : State), let m := s.now t
     (∀ (f : LinkFrame) (jsn : W64), linkPasses m f.link = true → frameTaken m f = true →
       let m1 := noteFrame m f
       m1.tlk.paired = true → m1.tlk.role = .windward → m1.tlk.sync = true →
       jsn ≠ 0 → m1.tlk.jsnAcked.toNat < jsn.toNat → jsn.toNat ≤ m1.jnl.jsnLast.toNat →
       let w := (ackWait m1 jsn).getD 0
       let m2 := { m1 with tlk := { m1.tlk with jsnAcked := jsn, ackMax := max m1.tlk.ackMax (min 65535 w) } }
       Leaves (.journalAckRx t f jsn) t s (commitThrough (evrSample m2 0x0012 none w) jsn)) ∧
     (∀ (jsn : W64) (w : Nat), m.tlk.paired = true → m.tlk.role = .windward → m.tlk.sync = true → jsn ≠ 0 →
       ackWait m jsn = some w → m.tlk.jsnAcked.toNat < jsn.toNat → 50000 ≤ w →
       Leaves (.journalAckTimeout t jsn) t s (desync m jsn)) ∧
     Leaves (.journalBufferSpace t) t s (drainWaiting m.jnl.waiting.length m)) ∧
  (∀ (t : Nat) (s : State), let m := s.now t
     (serveOk m = true →
       let h : Heartbeat :=
         { role := m.tlk.role.code, epoch := m.tlk.roleEpoch, jsn := jsnReport m, health := topHealth m, now := nowT m }
       let m1 := if m.tlk.paired then sendTwin m (.heartbeat h) else m
       Leaves (.heartbeatSend t) t s
         (emit { m1 with tlk := { m1.tlk with wireLevel := !m.tlk.wireLevel } } (.pin "TWIN_HB_OUT" (!m.tlk.wireLevel)))) ∧
     (∀ (f : LinkFrame) (h : Heartbeat), f.link < 2 → linkPasses m f.link = true →
       (frameTaken m f = true →
         let m1 := noteFrame m f
         m1.tlk.paired = true →
           let m2 := { m1 with tlk := { m1.tlk with
             heard := tblSet m1.tlk.heard f.link m1.clk, silent := tblSet m1.tlk.silent f.link false } }
           Leaves (.heartbeatRx t f h) t s (hearTwin (if pathSilent m1 f.link then raiseInt m2 .tlk 4 else m2) h)) ∧
       (frameTaken m f = false → Leaves (.heartbeatRx t f h) t s
         (raiseInt (updLink m f.link (fun x => { x with tagFail := x.tagFail + 1 })) .tlk 0x20))) ∧
     (pathSilent m 2 = false → heardAt m 2 + 1000000 ≤ m.clk → Leaves (.pathSilent t 2) t s (fallSilent 2 m)) ∧
     (∀ (l : Nat), linkPasses m l = true →
       (2 ^ 32 ≤ (linkOf m l).sent ∨ 2 ^ 32 ≤ (linkOf m l).got ∨ (linkOf m l).keyedAt + 3600 * nsPerS ≤ m.clk) →
       Leaves (.linkRekey t l) t s (emit m (.twinHandshake l Config.devUid))))

/-- Changes of role: the link's handshake, promotion's admission at 11 ms, resynchronisation's end, a handover's start
and cut-off, a revert's hold, a pairing or a start that waited too long, SERVE_OK falling without progress (14 R362,
R364, R368, R371, R375, R377 to R379). It says that these complete: linkHandshake, promotionAdmission, resyncComplete,
handoverStart, handoverCutoff, revertHoldMet, twinPairTimeout, startHandshakeTimeout, serveOkProgressTimeout. -/
def Obligations.RoleEventsComplete : Prop :=
  ∀ (t : Nat) (s : State), let m := s.now t
    (∀ (l : Nat) (h : LinkHello), l < 2 → m.powered = true → m.rng.halted = false → m.jnl.started = true →
      m.jnl.fit = true → m.jnl.flushing = false → m.ssv.tamper = .normal → m.khs.idKey ≠ none →
      (∀ (m1 : Mod) (own keys : Bytes), 2 ≤ h.lanes → helloOk m h = true → linkExchange m h = (m1, some (own, keys)) →
        let m2 := noteHello (keyLink (emit m1 (.twinHello l own)) l h.lanes keys) h
        Leaves (.linkHandshake t l h) t s (if m2.tlk.starting.isSome then startHello m2 h else tryPair m2 h)) ∧
      (2 ≤ h.lanes → helloOk m h = false → Leaves (.linkHandshake t l h) t s (refuseLink m l)) ∧
      (h.lanes < 2 → Leaves (.linkHandshake t l h) t s
        (linkSilent (updLink m l (fun x => { x with up := false, keys := none, lanes := h.lanes })) l))) ∧
    (∀ (a : Nat), m.tlk.promoting = some a → a + 11000000 ≤ m.clk → serveOk m = true →
      let m1 := { m with tlk := { m.tlk with
        promoting := none, held := none, stale := false, switchCnt := m.tlk.switchCnt + 1, alone := [] } }
      Leaves (.promotionAdmission t) t s
        (restartHalfOpen (dropLocalChals (endAlign (setRole (setSync m1 false) .windward))))) ∧
    (∀ (d : ResyncData), m.tlk.paired = true → m.tlk.resync = true → (linkPasses m 0 = true ∨ linkPasses m 1 = true) →
      (m.tlk.role = .leeward → Leaves (.resyncComplete t (some d)) t s (endResync m d)) ∧
      (m.tlk.role = .windward → Leaves (.resyncComplete t none) t s
        (setSync { m with tlk := { m.tlk with resync := false, jsnAcked := m.jnl.jsnCommit, alone := [] } } true))) ∧
    (∀ (a : W64), m.tlk.handover = some a → m.tlk.role = .windward → m.tlk.sync = true → serveOk m = true →
      (∀ (x : Timer), firing m (.system 0) = some x → let m1 := takeTimer m x
        Leaves (.handoverStart t) t s { m1 with tlk := { m1.tlk with handing := true } }) ∧
      (m.tlk.handing = true → (t64Add a 900000).toNat ≤ (nowT m).toNat →
        let m1 := (m.cmq.cmds.filter (fun p => unrecorded p.2)).foldl (fun m p => pkAbort m p.1 stStandby) m
        let m2 := commitThrough (disarm m1) m1.jnl.jsnLast
        let m3 := sendTwin m2 (.handover m2.jnl.jsnLast (m1.dur.sess.map (fun p => (p.1, p.2.h))))
        let m4 := { m3 with tlk := { m3.tlk with
          jsnAcked := m3.jnl.jsnLast, jsnApplied := m3.jnl.jsnLast, switchCnt := m3.tlk.switchCnt + 1, holdFrom := none } }
        Leaves (.handoverCutoff t) t s (endAlign (setRole m4 .leeward)))) ∧
    (∀ (a : Nat), m.tlk.holdFrom = some a → m.tlk.handover = none → a + m.dur.revertHold * nsPerS ≤ m.clk →
      Leaves (.revertHoldMet t) t s (armHandover m (nextSecond (nowT m) 1) true)) ∧
    (∀ (tag : Nat) (uid : W64) (home : Bool) (c : Cmd), m.tlk.pairing = some (tag, uid, home) → cmdOf m tag = some c →
      (t64Add c.stamp (600 * nsPerS)).toNat ≤ (nowT m).toNat →
      Ends (.twinPairTimeout t tag) t s tag { m with tlk := { m.tlk with pairing := none } } stPairRefused []) ∧
    (∀ (a : Nat), m.tlk.starting = some a → a + 20000000 ≤ m.clk → allSilent m = true →
      Leaves (.startHandshakeTimeout t) t s
        (tryReady (settleRole m
          (if m.tlk.shutRole = .windward ∨ m.tlk.shutRole = .unpaired then .windward else .held)))) ∧
    (m.powered = true → holdsWork m = true →
      Leaves (.serveOkProgressTimeout t) t s { m with tlk := { m.tlk with stalled := true } })

/-! ### The host interface (chapter 3) -/

/-- An entry read from the head of a queue: an inline capsule joins its queue's order of acceptance, a pointer's read
is issued, an entry out of format is answered; a read that fails, or has no completion in 50 µs, stops the queue, or
ends the command whose capsule it was (03 R70, R71, R75, R486, R487). A whole command at the head of a tenant's FIFO
is taken once a tag is kept for it; an old entry of the duplicate store is dropped (03 R77, R82, 04 R106). It says
that these complete: sqEntryFetch, sqEntryReadFail, hostReadTimeout, pointerCapsuleRead, fifoCommandTake,
reqidEntryExpiry. -/
def Obligations.QueuesAndFifosComplete : Prop :=
  (∀ (t : Nat) (s : State), let m := s.now t
     (∀ (q : QId) (at' : Nat) (entry : Bytes), readingOf m q = some at' → readLate m at' = false →
       let e := fitRight 128 entry
       let m1 := (takeEntry (setReading m q none) q).1
       let h := (takeEntry (setReading m q none) q).2.1
       let x := (takeEntry (setReading m q none) q).2.2
       let r : PtrRead := { q := q, sqHead := h, entry := e, stamp := x, issued := m.clk, got := none }
       (entryOk e = false → Leaves (.sqEntryFetch t q entry) t s
         (rejectEntry m1 (entryArrival q e h x m.clk []) stBadFormat (if entryPtr e then getLe64 e 0x20 else 0))) ∧
       (entryOk e = true → entryPtr e = false → Leaves (.sqEntryFetch t q entry) t s
         (acceptFrom (setPtr m1 { r with got := some (m.clk, sliceOf e 0x20 (entryLen e)) }) q)) ∧
       (entryOk e = true → entryPtr e = true → Leaves (.sqEntryFetch t q entry) t s
         (emit (setPtr m1 r) (.hostRead (queuePort m q) (getLe64 e 0x18) (entryLen e))))) ∧
     (∀ (ten n : Nat) (k : ReadFail), (readingOf m (.qp ten n)).isSome = true →
       let m0 := setReading m (.qp ten n) none
       let m1 := { m0 with dmaErr := m0.dmaErr + 1 }
       let m2 := updTen (updQp m1 ten n (fun x => { x with error := true })) ten (fun h => { h with errQp := n })
       Leaves (.sqEntryReadFail t (.qp ten n) k) t s (raiseTen m2 ten 4)) ∧
     (∀ (p : Port) (k : ReadFail) (at' : Nat), readingOf m (.admin p) = some at' →
       let m0 := setReading m (.admin p) none
       let m1 := { m0 with dmaErr := m0.dmaErr + 1 }
       let m2 := raiseInt (updAdmq m1 p (fun x => { x with fetchErr := true, stopped := true })) .hif 1
       Leaves (.sqEntryReadFail t (.admin p) k) t s m2 ∧
         (at' + 50000 ≤ m.clk → Leaves (.hostReadTimeout t (.entry (.admin p))) t s m2)) ∧
     (∀ (id : Nat) (x : PtrRead), tblFind m.cmq.ptr id = some x → x.got = none →
       let m1 := { m with cmq := { m.cmq with ptr := tblErase m.cmq.ptr id } }
       let m2 := acceptFrom (rejectEntry { m1 with dmaErr := m1.dmaErr + 1 }
         (entryArrival x.q x.entry x.sqHead x.stamp m.clk []) stBadPointer (getLe64 x.entry 0x20)) x.q
       (∀ (b : Bytes), m.clk < x.issued + 50000 →
         let y := { x with got := some (m.clk, fitRight (entryLen x.entry) b) }
         Leaves (.pointerCapsuleRead t id (.data b)) t s
           (acceptFrom { m with cmq := { m.cmq with ptr := tblSet m.cmq.ptr id y } } x.q)) ∧
       (∀ (k : ReadFail), Leaves (.pointerCapsuleRead t id (.failed k)) t s m2) ∧
       (x.issued + 50000 ≤ m.clk → Leaves (.hostReadTimeout t (.capsule id)) t s m2)) ∧
     (∀ (tag : Nat) (c : Cmd) (a : W64), cmdOf m tag = some c → c.readAt + 50000 ≤ m.clk →
       Leaves (.hostReadTimeout t (.job tag a)) t s (opJobEnd tag (.readFailed a) m))) ∧
  (∀ (t : Nat) (s : State), let m := s.now t
     (∀ (ten : Nat) (d d1 : W64) (rest : List W64), let h := tenOf m ten
       h.fifo.push = d :: d1 :: rest → h.fifo.granted = true → fifoWaits m ten = true →
       let n := descWords d
       let last := (h.fifo.stamps[n - 1]?).getD (stampNow m)
       let a : Arrival :=
         { tenant := ten, admin := false, path := .fifo, sqHead := 0, resAddr := d1, resSize := d.toNat / 2 ^ 32 % 65536,
           cap := (((h.fifo.push.take n).drop 2).map le64).flatten.take (d.toNat % 65536), stamp := last,
           entered := last.clk }
       let m1 := updFifo m ten (fun x =>
         { x with push := x.push.drop n, stamps := x.stamps.drop n, granted := false })
       Leaves (.fifoCommandTake t ten) t s (noteFifoPort (acceptCapsule m1 a) ten)) ∧
     (∀ (key : Nat) (id : W64),
       let kept := m.dur.reqids.filter (fun e => !(e.key == key && e.reqId == id && !entryLive e (nowT m)))
       Leaves (.reqidEntryExpiry t key id) t s { m with dur := { m.dur with reqids := kept } }))

/-- The capsule transport: a datagram's capsules enter in order, its sequence number taken once; an acknowledgement
retires what it covers; the delayed acknowledgement, the repeated datagram, giving up, and the coalesced completions
(03 R87 to R92). It says that these complete: nctDataRx, nctAckRx, nctAckDelayExpiry, nctRetransmit,
nctCoalesceExpiry. -/
def Obligations.CapsuleTransportCompletes : Prop :=
  ∀ (t : Nat) (s : State), let m := s.now t
    (∀ (f : NetFrame) (caps : List Bytes), let b := f.payload
      let m1 := pmcEvent m 0x1007 none
      frameHeard m f = true → isDatagram m f = true → headerOk m1 b 1 = true → admits m1 = true →
      splitCapsules (ncCount b) (b.drop 24) = some caps → capsulesOk m1 b caps = true →
      (ncSession b = 0 → Leaves (.nctDataRx t f) t s (nctCapsules m1 f (ncTenant b) 0 caps)) ∧
      (ncSession b ≠ 0 → (sessOf m1 (ncTenant b) (ncSession b)).isSome = true →
        let n0 := (nctOf m1 (ncTenant b) (ncSession b)).getD (NctSess.start (peerOfFrame f))
        let n1 := takeAck { n0 with peer := peerOfFrame f } (ncAck b) (ncSack b)
        let n2 := if n1.fresh then { n1 with ackDsn := ncDsn b - 1, bitmap := 0, fresh := false } else n1
        (dsnOld n2 (ncDsn b) = true →
          Leaves (.nctDataRx t f) t s (setNct m1 (ncTenant b) (ncSession b) (oweAck m1 n2))) ∧
        (dsnOld n2 (ncDsn b) = false → n2.outstanding + caps.length ≤ lastWindow m1 (ncTenant b) n2 →
          let n3 := oweAck m1 (takeDsn n2 (ncDsn b))
          Leaves (.nctDataRx t f) t s
            (nctCapsules (setNct m1 (ncTenant b) (ncSession b) { n3 with outstanding := n3.outstanding + caps.length }) f
              (ncTenant b) (ncSession b) caps)))) ∧
    (∀ (f : NetFrame), let b := f.payload
      let m1 := pmcEvent m 0x1007 none
      frameHeard m f = true → isDatagram m f = true → headerOk m1 b 2 = true → b.length = 24 → ncCount b = 0 →
      (sessOf m1 (ncTenant b) (ncSession b)).isSome = true →
      let n := (nctOf m1 (ncTenant b) (ncSession b)).getD (NctSess.start (peerOfFrame f))
      Leaves (.nctAckRx t f) t s (setNct m1 (ncTenant b) (ncSession b) (takeAck n (ncAck b) (ncSack b)))) ∧
    (∀ (ten sid : Nat) (n : NctSess), nctOf m ten sid = some n → m.powered = true →
      let w := nctWindow m ten
      (∀ (d : Nat), n.ackDue = some d → d ≤ m.clk →
        Leaves (.nctAckDelayExpiry t ten sid) t s
          (sendNct (setNct m ten sid { n with ackDue := none, window := some w }) n.peer
            (nctHeader 2 ten sid 0 n.ackDsn (nctSack n) w 0))) ∧
      (∀ (dsn : Nat) (x : NctSent), n.sent.find? (fun s => s.dsn == dsn && decide (s.due ≤ m.clk)) = some x →
        (x.tries < m.nif.retries →
          let y := { x with due := m.clk + 2 * x.gap, gap := 2 * x.gap, tries := x.tries + 1 }
          let n1 := { n with
            sent := n.sent.map (fun z => if z.dsn = x.dsn then y else z), window := some w, ackDue := none }
          Leaves (.nctRetransmit t ten sid dsn) t s
            (sendNct (setNct m ten sid n1) n.peer
              (nctHeader 1 ten sid x.dsn n.ackDsn (nctSack n) w x.count ++ x.recs))) ∧
        (m.nif.retries ≤ x.tries →
          let m1 := setNct m ten sid { n with sent := n.sent.filter (fun z => z.dsn != dsn) }
          Leaves (.nctRetransmit t ten sid dsn) t s { m1 with nif := { m1.nif with giveup := m1.nif.giveup + 1 } })) ∧
      (n.heldSince + m.nif.coalesce * 1000 ≤ m.clk → Leaves (.nctCoalesceExpiry t ten sid) t s (sendHeld m ten sid)))

/-- The module answers an ARP request, a neighbour solicitation and an echo request for an address of its own where a
next hop leads back; a port's link goes up or down (03 R93, R94, R97). A PCIe port: requests of a kind it does not
support, its configuration space with the completion timeout reading 0, its reset, and its link, with what waited for
it (02 R33, 01 Table 1.3, 03 R486, 06 R174, R176, 18 R462, 19 R470). It says that these complete: arpRequestRx,
neighborSolicitationRx, icmpEchoRequestRx, netPortLinkChange, pcieAtomicIoRequest, pcieConfigRequest, perstAssert,
perstRelease, portLinkUp, portLinkLoss. -/
def Obligations.NetAnswersAndPortsComplete : Prop :=
  (∀ (t : Nat) (s : State), let m := s.now t
     (∀ (f : NetFrame) (e : NetEntry), frameHeard m f = true → frameFits m f = true →
       nextHop m f.port f.vlan f.v6 f.src = some e → netPortSends m f.port = true →
       let h := netHdr m f.port f.vlan f.v6 e.mac
       (f.v6 = false → (ownAddress m f.port f.vlan false f.target).isSome = true →
         Leaves (.arpRequestRx t f) t s (emit m (.arpReply h (f.target.take 4) f.src f.srcMac))) ∧
       (f.v6 = true → (ownAddress m f.port f.vlan true f.target).isSome = true →
         Leaves (.neighborSolicitationRx t f) t s (emit m (.neighborAdvert h (f.target.take 16) f.src))) ∧
       ((ownAddress m f.port f.vlan f.v6 f.dst).isSome = true →
         Leaves (.icmpEchoRequestRx t f) t s (emit m (.echoReply h f.v6 f.dst f.src f.payload)))) ∧
     (∀ (n : Nat) (link fec : Bool), m.powered = true → n < 8 →
       Leaves (.netPortLinkChange t n link fec) t s
         { m with nif := { m.nif with
           port := tblUpd NetPort.reset m.nif.port n (fun p => { p with link := link, fec := fec }) } })) ∧
  (∀ (t : Nat) (s : State) (p : Port), let m := s.now t
     (∀ (addr : Nat), m.powered = true → (portOf m p).perst = false →
       Leaves (.pcieAtomicIoRequest t p addr) t s (emit m (.unsupported p))) ∧
     (∀ (fn reg : Nat) (v : W32), m.powered = true → (portOf m p).perst = false →
       (∀ (w : Bool), (portOf m p).cfgReady = false →
         Leaves (.pcieConfigRequest t ⟨p, fn⟩ w reg v) t s (emit m (.cfgRetry p))) ∧
       ((portOf m p).cfgReady = true →
         Leaves (.pcieConfigRequest t ⟨p, fn⟩ true reg v) t s
           (emit (updPort m p (fun s => { s with cfg := tblSet s.cfg (4096 * fn + reg) v })) (.cfgData p 0)) ∧
         Leaves (.pcieConfigRequest t ⟨p, fn⟩ false reg v) t s (emit m (.cfgData p
           (if reg = Config.pcieCap + 0x24 ∨ reg = Config.pcieCap + 0x28
           then tblGet 0 (portOf m p).cfg (4096 * fn + reg) &&& 0xFFFFFFE0
           else tblGet 0 (portOf m p).cfg (4096 * fn + reg)))))) ∧
     Leaves (.perstAssert t p) t s
       (updPort (if (portOf m p).linkUp then linkDown m p else m) p (fun s => { s with
         perst := true, cfgReady := false, cfg := [], msix := [], pba := [], vfMsix := [], vfPba := [], posted := [] })) ∧
     Leaves (.perstRelease t p) t s
       (updPort m p (fun s => { s with perst := false, cfgReady := m.powered && m.jnl.started })) ∧
     (∀ (width gen : Nat), m.powered = true → (portOf m p).perst = false → 1 ≤ gen → gen ≤ 5 → 1 ≤ width → width ≤ 16 →
       Leaves (.portLinkUp t p width gen) t s
         (drainAll (sendPosted
           (reissueBlobs (updPort m p (fun s => { s with linkUp := true, width := width, gen := gen }))) p))) ∧
     ((portOf m p).linkUp = true → Leaves (.portLinkLoss t p) t s (linkDown m p)))

/-! ### Register accesses (chapters 0, 2, 3) -/

/-- A block's control word: QUIESCE and ENABLE of a block that software can stop are written as given, ENABLE cleared
only once the block is quiesced; the blocks that cannot be stopped keep both (02 R35 to R37). A block's interrupt
status: bits cleared release the error record they name and signal the vector again while something is pending;
INT_TEST sets the bits the block has (02 R38, R39). A bit whose condition lasts stays set: SSV's ALARM (15 R393), and
those of SCH, KHS and KCH. It says that these complete: blkQuiesce, blkEnable, selftestReq, intStatClear, intTest. -/
def Obligations.BlockHeadersComplete : Prop :=
  (∀ (t : Nat) (s : State) (ini : Initiator) (b : Blk), let m := s.now t
     WritesReg m ini b 0 0x08 →
       let set := fun (keep v : W32) => updBlk m b (fun h => { h with ctl := (h.ctl &&& keep) ||| v })
       (fixedBlk b = false →
         (∀ (v : Bool), (blkOf m b).ctl.getLsbD 0 = true ∨ quiesced m b = true →
           Leaves (.blkQuiesce t ini b v) t s (set 0xFF000001 (if v then 2 else 0))) ∧
         Leaves (.blkEnable t ini b true) t s (set 0xFF000002 1) ∧
         (quiesced m b = true → Leaves (.blkEnable t ini b false) t s (set 0xFF000002 0)) ∧
         (quiesced m b = false → Leaves (.blkEnable t ini b false) t s m) ∧
         ((blkOf m b).ctl.getLsbD 0 = true ∨ quiesced m b = true →
           Leaves (.selftestReq t ini b) t s
             (updBlk m b (fun h => { h with ctl := h.ctl &&& 0xFF000003, testReq := true })))) ∧
       (fixedBlk b = true →
         (∀ (v : Bool), Leaves (.blkQuiesce t ini b v) t s (set 0xFF000003 0) ∧
           Leaves (.blkEnable t ini b v) t s (set 0xFF000003 0)) ∧
         Leaves (.selftestReq t ini b) t s
           (updBlk m b (fun h => { h with ctl := h.ctl &&& 0xFF000003, testReq := true })))) ∧
  (∀ (t : Nat) (s : State) (ini : Initiator) (b : Blk) (v : W32), let m := s.now t
     (WritesReg m ini b 0 0x10 →
       let x := v &&& intBits b
       let held : W32 :=
         if (b = .ssv ∧ m.ssv.latch ≠ 0) ∨ (b = .sch ∧ m.sch.overflow.isEmpty = false) then 1
         else if b = .khs ∧ kstHigh m = true then 8
         else if b = .kch then stashBits m.kch.stash.length &&& 3
         else 0
       let m1 := updBlk m b (fun h =>
         releaseErr { h with intStat := (h.intStat &&& ~~~x) ||| (h.intStat &&& x &&& held) } (x &&& ~~~held))
       Leaves (.intStatClear t ini b v) t s (if blkPending (blkOf m1 b) then signalBlk m1 b else m1)) ∧
     (WritesReg m ini b 0 0x18 → Leaves (.intTest t ini b v) t s (raiseInt m b (v &&& intBits b))))

/-- A queue pair's registers: a doorbell inside its queue moves the tail and stamps what it covers, or frees
completion slots; one outside is reported; ENABLE restarts a stopped queue pair; a base moves a queue pair at rest to
the port that carried it (02 R48, 03 R72 to R75). It says that these complete: qpSqTailDoorbell, qpCqHeadDoorbell,
qpEnable, qpDisable, qpSqBaseWrite. -/
def Obligations.QueuePairRegistersComplete : Prop :=
  ∀ (t : Nat) (s : State) (ini : Initiator) (ten q : Nat) (v : W32), let m := s.now t
    q < 4 →
      let at' := 0x1000 + 0x100 * q
      let x := qpOf m ten q
      let n := v.toNat % 4096
      let bad := raiseTen (updTen m ten (fun h => { h with errQp := q })) ten 2
      (WritesWindow m ini ten (at' + 0x0C) →
        (n < x.sqSize → Leaves (.qpSqTailDoorbell t ini ten q v) t s
          (updQp m ten q (fun y =>
            { y with sqTail := n, stamps := stampAll y.stamps (covered x.sqTail n x.sqSize) (stampNow m) }))) ∧
        (x.sqSize ≤ n → Leaves (.qpSqTailDoorbell t ini ten q v) t s bad)) ∧
      (WritesWindow m ini ten (at' + 0x1C) →
        (n < x.cqSize → Leaves (.qpCqHeadDoorbell t ini ten q v) t s
          (drainTenant (updQp m ten q (fun y => { y with cqHead := n })) ten)) ∧
        (x.cqSize ≤ n → Leaves (.qpCqHeadDoorbell t ini ten q v) t s bad)) ∧
      (WritesWindow m ini ten (at' + 0x20) → ∀ (intEn : Bool),
        (x.enable = false → Leaves (.qpEnable t ini ten q intEn) t s
          (drainTenant (updQp (updQp m ten q (fun y => { y with intEn := intEn })) ten q (fun y =>
            { y with enable := true, error := false, sqHead := 0, sqTail := 0, cqHead := 0, cqTail := 0, phase := true,
                     stamps := [], reading := none })) ten)) ∧
        (x.enable = true → Leaves (.qpEnable t ini ten q intEn) t s (updQp m ten q (fun y => { y with intEn := intEn }))) ∧
        Leaves (.qpDisable t ini ten q intEn) t s (updQp m ten q (fun y =>
          { y with enable := false, intEn := intEn, reading := none }))) ∧
      (∀ (hi : Bool), WritesWindow m ini ten (at' + (if hi then 0x04 else 0)) → qpActive m ten q = false →
        Leaves (.qpSqBaseWrite t ini ten q hi v) t s
          (updQp m ten q (fun y =>
            { y with sqBase := setHalf y.sqBase hi v &&& 0xFFFFFFFFFFFFF000, owner := (hostPort ini).getD .a })))

/-- A port's admin queue: its doorbells, and its sizes, which take the bases written and start the queue again (03
R487). It says that these complete: admqSqTailDoorbell, admqCqHeadDoorbell, admqSqSizeWrite, admqCqSizeWrite. -/
def Obligations.AdminQueueRegistersComplete : Prop :=
  ∀ (t : Nat) (s : State) (p : Port) (v : W32), let m := s.now t
    let grant := fun (off : Nat) => Granted m (write32 (.pf p) off 0) .inner off
    let x := admqOf m p
    let n := v.toNat % 4096
    let size := v.toNat % 8192
    let bad := raiseInt (updAdmq m p (fun x => { x with doorbellErr := true })) .hif 1
    (grant 0x4C →
      (n < x.sqSize → Leaves (.admqSqTailDoorbell t p v) t s
        (updAdmq m p (fun y =>
          { y with sqTail := n, stamps := stampAll y.stamps (covered x.sqTail n x.sqSize) (stampNow m) }))) ∧
      (x.sqSize ≤ n → Leaves (.admqSqTailDoorbell t p v) t s bad)) ∧
    (grant 0x5C →
      (n < x.cqSize → Leaves (.admqCqHeadDoorbell t p v) t s (drainDone (updAdmq m p (fun y => { y with cqHead := n })))) ∧
      (x.cqSize ≤ n → Leaves (.admqCqHeadDoorbell t p v) t s bad)) ∧
    (grant 0x48 →
      (size = 0 ∨ 2 ≤ size ∧ size ≤ 4096 → Leaves (.admqSqSizeWrite t p v) t s (updAdmq m p (fun y =>
        { y with sqSize := size, sqBase := y.sqBaseNew, sqHead := 0, sqTail := 0, stamps := [], stopped := false,
                 reading := none }))) ∧
      (size = 1 ∨ 4096 < size → Leaves (.admqSqSizeWrite t p v) t s m)) ∧
    (grant 0x58 →
      (size = 0 ∨ 2 ≤ size ∧ size ≤ 4096 → Leaves (.admqCqSizeWrite t p v) t s (drainDone (updAdmq m p (fun y =>
        { y with cqSize := size, cqBase := y.cqBaseNew, cqHead := 0, cqTail := 0, phase := true })))) ∧
      (size = 1 ∨ 4096 < size → Leaves (.admqCqSizeWrite t p v) t s m))

/-- The direct FIFOs: a word pushed joins the command being assembled, or is dropped and reported; a word popped comes
from the completion being read, then from the next; the flush and the drop (03 R78 to R80). It says that these
complete: cmdPush, cplPop, cplFlush, cmdDrop. -/
def Obligations.FifoRegistersComplete : Prop :=
  ∀ (t : Nat) (s : State) (ini : Initiator) (ten : Nat), let m := s.now t
    let x := (tenOf m ten).fifo
    (∀ (w : W64), ReachesWindow m ini ten 0x2000 (fun a => write64 ini a w) →
      (x.discard ≠ 0 → x.push.length < 512 →
        Leaves (.cmdPush t ini ten w) t s (updFifo m ten (fun x => { x with discard := x.discard - 1 }))) ∧
      (x.discard ≠ 0 → 512 ≤ x.push.length → Leaves (.cmdPush t ini ten w) t s
        (raiseTen (updFifo m ten (fun x => { x with discard := x.discard - 1, overrun := true })) ten 1)) ∧
      (x.discard = 0 → x.push.length < 512 → (partWords x ≠ [] ∨ descOk w = true) →
        Leaves (.cmdPush t ini ten w) t s
          (updFifo m ten (fun x => { x with push := x.push ++ [w], stamps := x.stamps ++ [stampNow m] }))) ∧
      (x.discard = 0 → x.push.length < 512 → partWords x = [] → descOk w = false →
        Leaves (.cmdPush t ini ten w) t s (raiseTen (updFifo m ten (fun x => { x with frameErr := true })) ten 1)) ∧
      (x.discard = 0 → 512 ≤ x.push.length →
        let rest := match partWords x with
          | [] => if descOk w then descWords w - 1 else 0
          | d :: r => descWords d - (r.length + 2)
        Leaves (.cmdPush t ini ten w) t s
          (raiseTen (updFifo m ten (fun y => { cutPart y with
            discard := rest, overrun := true, frameErr := y.frameErr || (partWords x == [] && !descOk w) })) ten 1))) ∧
    (ReachesWindow m ini ten 0x2010 (fun a => read64 ini a) →
      (∀ (w : W64) (r : List W64), x.left = w :: r → Leaves (.cplPop t ini ten) t s
        (emit (noteFifoPort (updFifo m ten (fun x => { x with left := r })) ten) (.readData (natLe 8 w.toNat)))) ∧
      (∀ (c : Bytes) (r : List Bytes), x.left = [] → x.cpl = c :: r → Leaves (.cplPop t ini ten) t s
        (emit (drainTenant (updFifo m ten (fun x => { x with cpl := r, left := (cplWords c).tail })) ten)
          (.readData (natLe 8 ((cplWords c).headD 0).toNat)))) ∧
      (x.left = [] → x.cpl = [] → Leaves (.cplPop t ini ten) t s (emit m (.readData (zeroBytes 8))))) ∧
    (WritesWindow m ini ten 0x2018 →
      Leaves (.cplFlush t ini ten) t s (noteFifoPort (drainTenant (updFifo m ten (fun x => { x with cpl := [] })) ten) ten) ∧
      Leaves (.cmdDrop t ini ten) t s (noteFifoPort (updFifo m ten (fun x => { cutPart x with discard := 0 })) ten))

/-- Settings of the scheduler, the key cache, the blob store windows and a tenant's paths (04 R101, R104, 06 R169,
R183, 03 R96, 12 R325); most are saved, which seals an object where the unit has its roots (05 R131, log 9). It says
that these complete: schAgeWrite, rehashStart, bsxWinWrite, vfBindWrite, cmqTcfgWrite. -/
def Obligations.SettingsWritesComplete : Prop :=
  ∀ (t : Nat) (s : State) (ini : Initiator) (v : W32), let m := s.now t
    (WritesReg m ini .sch 1 0x120 →
      let n := v.toNat % 8192
      (100 ≤ n → n ≤ 4000 → Leaves (.schAgeWrite t ini v) t s (noteSealed { m with sch := { m.sch with age := n } })) ∧
      (n < 100 ∨ 4000 < n → Leaves (.schAgeWrite t ini v) t s (noteSealed m))) ∧
    (WritesReg m ini .kch 1 0x120 →
      (m.kch.busy = true → Leaves (.rehashStart t ini) t s m) ∧
      (m.kch.busy = false → Leaves (.rehashStart t ini) t s
        { m with kch := { m.kch with newSeed := m.kch.seedNext, busy := true, busyAt := m.clk, moved := 0, other := [] } })) ∧
    (∀ (w : W64), Granted m (write64 ini (blkAddr .bsx 1 0x108) w) .inner (blkAddr .bsx 1 0x108) →
      let x := winOf m m.bsx.tsel m.bsx.wsel
      let y := { x with base := w &&& 0xFFFFFFFFFFE00000, refused := false }
      Leaves (.bsxWinWrite t ini .base w) t s
        (noteSealed { m with bsx := { m.bsx with win := tblSet m.bsx.win (m.bsx.tsel * 8 + m.bsx.wsel) y } })) ∧
    (∀ (reg : WinReg) (w : W64), reg ≠ .base → WritesReg m ini .bsx 1 (if reg = .size then 0x110 else 0x114) →
      let k := m.bsx.tsel * 8 + m.bsx.wsel
      match winWrite m m.bsx.tsel m.bsx.wsel reg ((low32 w).setWidth 64) with
      | some x => Leaves (.bsxWinWrite t ini reg w) t s
          (noteSealed { m with bsx := { m.bsx with win := tblSet m.bsx.win k { x with refused := false } } })
      | none => Leaves (.bsxWinWrite t ini reg w) t s
          (noteSealed (raiseInt { m with bsx := { m.bsx with
            win := tblSet m.bsx.win k { winOf m m.bsx.tsel m.bsx.wsel with refused := true } } } .bsx 1))) ∧
    (∀ (p : Port), WritesReg m ini .cmq 1 (0x180 + 4 * p.idx) →
      let ten := m.cmq.tsel
      let n := v.toNat % 8192
      let old := vfOf (tenOf m ten) p
      let taken := (tenantOfVf m p n).elim false (fun x => x != ten)
      (n ≤ 4096 → taken = false → (old = 0 ∨ n = old ∨ tenShown m ten ≠ .active) →
        Leaves (.vfBindWrite t ini p v) t s
          (noteSealed (updTen m ten (fun h => match p with | .a => { h with vfA := n } | .b => { h with vfB := n })))) ∧
      (4096 < n ∨ taken = true ∨ (old ≠ 0 ∧ n ≠ old ∧ tenShown m ten = .active) →
        Leaves (.vfBindWrite t ini p v) t s (noteSealed (updTen m ten (fun h => { h with bindRefused := true }))))) ∧
    (WritesReg m ini .cmq 1 0x110 →
      let p := portOfBit (v.getLsbD 4)
      Leaves (.cmqTcfgWrite t ini v) t s
        (noteSealed (noteFifoPort (updTen m m.cmq.tsel (fun h =>
          { h with attA := v.getLsbD 0, attB := v.getLsbD 1, attNet := v.getLsbD 2,
                   fifoPortNew := if h.fifoPort = p then none else some p })) m.cmq.tsel)))

/-- The supervisor's and the life-cycle block's commands: copied records discarded, latch bits cleared unless their
condition stays, a transition checked and its words programmed, a challenge drawn, a reopening granted and closed (15
R393, R399, 16 R411 to R423). It says that these complete: ssvRecClear, ssvLatchClear, lcTransition, dbgChallenge,
debugResponse, dbgClose. -/
def Obligations.GuardRegistersComplete : Prop :=
  ∀ (t : Nat) (s : State) (ini : Initiator) (v : W32), let m := s.now t
    (WritesReg m ini .ssv 1 0x158 →
      Leaves (.ssvRecClear t ini v) t s
        { m with ssv := { m.ssv with
          recs := m.ssv.recs.filter (fun p => !(p.2.copied && decide (p.2.seq.toNat ≤ v.toNat))) } }) ∧
    (∀ (word : Nat) (still : W32), word < 4 → WritesReg m ini .ssv 1 (0x110 + 4 * word) →
      let at' := fun (x : W32) => BitVec.ofNat 128 (x.toNat * 2 ^ (32 * word))
      let m1 := { m with ssv := { m.ssv with
        latch := (m.ssv.latch &&& ~~~(at' v)) ||| (m.ssv.latch &&& at' (v &&& still)) } }
      Leaves (.ssvLatchClear t ini word v still) t s (if m1.ssv.latch = 0 then m1 else raiseInt m1 .ssv 1)) ∧
    (WritesReg m ini .lcc 1 0x108 → lccLive m = true →
      let r := mboxBytes m 272
      (∀ (agree : Bool) (st : W16), lcState m ≠ 7 → transitionCheck m r (nowT m) agree = .error (.status st) →
        Leaves (.lcTransition t ini true agree) t s (lccRefuse m st agree 1)) ∧
      (∀ (q : List Effect), lcState m ≠ 7 → transitionCheck m r (nowT m) true = .ok q →
        let m1 := if q.isEmpty then m else issueOwn m q
        let m2 := stopAdmission
          { m1 with lcc := { m1.lcc with intent := some (sha384 (r.take 272)), nonceUsed := true } }
        let x := leaveEarly m2 (getNat8 r 2)
        Leaves (.lcTransition t ini true true) t s
          (if x.2 then progEnd (progWords x.1 (getNat8 r 2) (getNat8 r 3) true) true else progEnd x.1 false)) ∧
      ((blkOf m .lcc).locked = false → lcState m ≠ 7 → m.rng.halted = false →
        let n := drawn m 32
        let m1 := afterDraw m 32
        let b := [1, 3, byteOf (lcState m)] ++ zeroBytes 5 ++ le64 Config.devUid ++ n ++ idHash m
        Leaves (.dbgChallenge t ini) t s
          (lccResult { m1 with lcc := { m1.lcc with chal := some n, mbox := memWriteBytes m1.lcc.mbox 0 b } } stOk)) ∧
      (∀ (q : List Effect), debugCheck m r (nowT m) true = .ok q →
        let m1 := if q.isEmpty then m else issueOwn m q
        let f := getNat8 r 4
        let m2 := { m1 with lcc := { m1.lcc with
          chal := none, dbgOpen := true, scope := sliceOf r 0x70 64, readOnly := f.testBit 1, bscan := f.testBit 0 } }
        Leaves (.debugResponse t ini true) t s (raiseInt (lccResult m2 stOk) .lcc 2))) ∧
    (WritesReg m ini .lcc 1 0x108 → lccBusy m = false → m.lcc.dbgOpen = true →
      Leaves (.dbgClose t ini) t s (raiseInt { m with lcc := { m.lcc with
        dbgOpen := false, scope := zeroBytes 64, readOnly := false, bscan := false } } .lcc 2))

/-- The recorder's, the counters', the random source's and the divergence log's registers (05 R167, 14 R374, 17 R430,
R431, R434, R438). It says that these complete: evrFlush, evrCapply, evrCtlEnWrite, pmcSnap, pmcFreeze,
pmcCounterWrite, rngRawRead, twinDivLogRead. -/
def Obligations.MeasurementRegistersComplete : Prop :=
  ∀ (t : Nat) (s : State) (ini : Initiator), let m := s.now t
    (WritesReg m ini .evr 1 0x108 →
      Leaves (.evrFlush t ini) t s (if m.evr.buffer.isEmpty then m else { m with evr := { m.evr with writing := true } })) ∧
    (WritesReg m ini .evr 1 0x13C → Leaves (.evrCapply t ini) t s (noteSealed (applyChan m m.evr.sel))) ∧
    (∀ (v : Bool), WritesReg m ini .evr 1 0x100 →
      (m.evr.en = v → Leaves (.evrCtlEnWrite t ini v) t s m) ∧
      (m.evr.en ≠ v →
        let m1 := (List.range 64).foldl applyChan { m with evr := { m.evr with en := v } }
        Leaves (.evrCtlEnWrite t ini v) t s (if v then m1 else closeEpochs m1))) ∧
    (WritesReg m ini .pmc 1 0x100 →
      Leaves (.pmcSnap t ini) t s { m with pmc := { m.pmc with snap := m.pmc.cnt } } ∧
      ∀ (v : Bool), Leaves (.pmcFreeze t ini v) t s { m with pmc := { m.pmc with freeze := v } }) ∧
    (∀ (n : Nat) (v : W64), n < 256 →
      Granted m (write64 ini (blkAddr .pmc 2 (8 * n)) v) .inner (blkAddr .pmc 2 (8 * n)) →
      Leaves (.pmcCounterWrite t ini n v) t s
        { m with pmc := { m.pmc with cnt := tblSet m.pmc.cnt n (v.toNat % 2 ^ 48) } }) ∧
    (Granted m (read64 ini (blkAddr .rng 2 0x100)) .inner (blkAddr .rng 2 0x100) →
      Leaves (.rngRawRead t ini) t s
        (emit { m with free := m.free + 8 } (.readData (natLe 8 (Config.rawSample m.rng.rawSel m.free).toNat)))) ∧
    (Granted m (read64 ini (blkAddr .tlk 1 0x160)) .inner (blkAddr .tlk 1 0x160) →
      (∀ (x : W64) (r : List W64), m.tlk.divLog = x :: r → Leaves (.twinDivLogRead t ini) t s
        (emit { m with tlk := { m.tlk with divLog := r } } (.readData (natLe 8 x.toNat)))) ∧
      (m.tlk.divLog = [] → Leaves (.twinDivLogRead t ini) t s (emit m (.readData (zeroBytes 8)))))

/-- A write to a 32-bit register of any block but ACU's page 1, and of the tenant windows, is that register's write;
one to a reserved offset does nothing (00 R9 to R11, 02 R33). It says that these complete: registerWrite. -/
def Obligations.RegisterWriteCompletes : Prop :=
  ∀ (t : Nat) (s : State) (ini : Initiator) (sp : Space) (off addr : Nat) (v : W32), let m := s.now t
    let n := choice m
    let e := envOf ini (BitVec.ofNat 32 n) (n / 2 ^ 32 % 2 == 1) (n / 2 ^ 33 % 2 == 1)
    Granted m (write32 ini addr v) sp off → off % 4 = 0 → (sp = .inner → off ≠ 0x1E1020 ∧ off ≠ 0x1E1028) →
    ((regAt e sp (off / 8 * 8)).filter (fun r => r.wide)) = none →
      (∀ (r : Reg), regAt e sp off = some r →
        Leaves (.registerWrite t (write32 ini addr v)) t s (r.put 0xFFFFFFFF (v.setWidth 64) (afterChoice m))) ∧
      (regAt e sp off = none → Leaves (.registerWrite t (write32 ini addr v)) t s (afterChoice m))

/-! ### The machine -/

/-- A step takes the command at the front of the queue and runs it on the block with the queue's rest. -/
def Obligations.StepRunsFront : Prop :=
  ∀ (c : Instr) (q : List Instr) (s : State), s.pending = c :: q → step s = exec c { s with pending := q }

/-- With no command waiting a step changes nothing (the model's choice, log 2). -/
def Obligations.StepIdles : Prop :=
  ∀ (s : State), s.pending = [] → step s = .next s

/-- Every command of the table answers a next state, whatever the block holds: none faults, none is refused. It leaves
the queue alone, and the clock never goes back. -/
def Obligations.EveryCommandCompletes : Prop :=
  ∀ (c : Instr) (s : State), ∃ m, exec c s = .next { s with mod := m } ∧ s.mod.clk ≤ m.clk

/-- What reset leaves, as the tables of the spec give it: every block enabled and idle with no error, no violation
stored, queue pairs and FIFOs empty, the capsule transport's, the scheduler's and the engines' settings, counters at
0, the unit unpaired and its time unset (02 Tables 2.3 to 2.6, 2.15, 03 Tables 3.6, 3.17, 3.19, 04 Table 4.7, 08 Table
8.14, 13 Table 13.9, 14 Table 14.10). -/
def Obligations.ResetValues : Prop :=
  let m := State.reset.mod
  State.reset.pending = [] ∧
    (∀ (b : Blk), ctlRead m b = 1 ∧ blkStat m b = 0 ∧ (blkOf m b).intStat = 0 ∧ (blkOf m b).intEn = 0 ∧
      (blkOf m b).errCode = 0 ∧ (blkOf m b).errAddr = 0) ∧
    m.devReady = false ∧ m.acu.fifo = [] ∧ m.acu.lost = 0 ∧ (∀ (p : Port), (portOf m p).bar2En = false ∧ (portOf m p).intEn = 0) ∧
    (∀ (t q : Nat), let x := qpOf m t q
      x.sqBase = 0 ∧ x.sqSize = 0 ∧ x.sqTail = 0 ∧ x.cqBase = 0 ∧ x.cqSize = 0 ∧ x.cqHead = 0 ∧ x.enable = false ∧
        x.intEn = false ∧ x.error = false) ∧
    (∀ (t : Nat), (tenOf m t).fifo.push = [] ∧ (tenOf m t).fifo.cpl = [] ∧ (tenOf m t).weight = 16 ∧ (tenOf m t).cap = 256 ∧
      (tenOf m t).maxPrio = 4 ∧ (tenOf m t).tnct = 128 ∧ (tenOf m t).sessCap = 256 ∧ (tenantOf m t).state = .closed) ∧
    m.nif.udpPort = 47420 ∧ m.nif.rto = 100 ∧ m.nif.retries = 6 ∧ m.nif.ackDelay = 2 ∧
    m.sch.age = 1000 ∧ m.sch.quantum = 8 ∧ m.sce.streamIdle = 60 ∧ m.bsx.retryGap = 20 ∧ m.rtb.poolLow = 262144 ∧
    m.tim.mode = .unset ∧ m.tlk.role = .unpaired ∧ m.tlk.paired = false ∧ m.dur.revertEn = false ∧ m.dur.revertHold = 60 ∧
    m.lcc.dbgOpen = false ∧ m.evr.en = true ∧ m.pmc.cnt = [] ∧ m.hlt.seq = 0

/-- The invariant of the violation store holds after reset. -/
def Obligations.InvAtReset : Prop :=
  Inv State.reset.mod

/-- Every step keeps the invariant of the violation store, whichever of the commands it runs. -/
def Obligations.InvKept : Prop :=
  ∀ (s s' : State), Inv s.mod → step s = .next s' → Inv s'.mod

/-- Where nothing waits for an event and no output or status of the device changes, a command that leaves the block as
`m` changes nothing else: no register, counter, FIFO, key, journal or durable state but what `m` says, and the clock.
-/
def Obligations.QuietCommandsChangeNothingElse : Prop :=
  ∀ (i : Instr) (t : Nat) (s : State) (m : Mod), let m0 := advance t s.mod
    Leaves i t s m → Quiet m → m.ssv.squalled = m0.ssv.squalled →
    (∀ (b : Blk), (blkOf m b).fault = true → (blkOf m0 b).fault = true) → devStat m = devStat s.mod →
    statusPins m = statusPins s.mod → m.resets = s.mod.resets →
    exec i s = .next { s with mod := { m with clk := max s.mod.clk t, acu := m0.acu } }

/-! ### Rules of the spec -/

/-- 02 R44: tenant t's window lies at t × 0x0001_0000 of the 256 MiB of PF BAR2; while BAR2 is disabled on a port
every access to it reads 0, ignores writes and is not recorded. It says that these complete: registerWrite. -/
def Obligations.BarTwoWindows : Prop :=
  ∀ (t : Nat) (s : State) (a : Access) (p : Port), let m := s.now t
    a.ini = .bar2 p →
      (∀ (ten off : Nat), ten < 4096 → off < 65536 → a.addr = ten * 65536 + off → (portOf m p).bar2En = true →
        vfOf (tenOf m ten) p = 0 → spaceOf m a = (.window ten, off)) ∧
      (arrives m a.ini = true → (portOf m p).bar2En = false →
        Leaves (.registerWrite t a) t s
          (if a.write then afterChoice m else emit (afterChoice m) (.readData (zeroBytes a.len))))

/-- 02 R47: every access to the window of a VF that no tenant is bound to reads 0 or is dropped, and is recorded with
the flag UNBOUND. It says that these complete: registerWrite. -/
def Obligations.UnboundWindows : Prop :=
  ∀ (t : Nat) (s : State) (a : Access) (p : Port) (n : Nat), let m := s.now t
    a.ini = .vf p n → a.vfTable = false → tenantOfVf m p n = none → 0 < a.len → arrives m a.ini = true →
      ∃ f slot page, f.unbound = true ∧ judge m a .unbound (a.addr % 65536) = .refused f slot page ∧
        (let m1 := happens t (fun _ => reply a (zeroBytes a.len) (tellSsv (afterChoice m) f))
          (fun x => x.acu.store (vioRecord x a .unbound f slot page)) s.mod
        exec (.registerWrite t a) s = .next { s with mod := m1 }) ∧
        (vioRecord m a .unbound f slot page).w0.getLsbD 36 = true

/-- 02 R57: no read of a key-bearing page by any colour, and no write by any colour but 0, in any life-cycle state or
debug scope; the refusal is recorded with the flag KEY_REGION, and the SSV takes it as source 0x6B. It says that these
complete: registerWrite. -/
def Obligations.KeyPagesAreClosed : Prop :=
  ∀ (t : Nat) (s : State) (a : Access) (off n : Nat), let m := s.now t
    arrives m a.ini = true → spaceOf m a = (.inner, off) → n ∈ pagesOf a off → innerMapped n = true →
    keyPage (slotOf .inner n) (n % 16) = true → (a.write = false ∨ a.ini.colour ≠ 0) →
      ∃ f slot page, judge m a .inner off = .refused f slot page ∧
        (let m1 := happens t (fun _ => reply a (zeroBytes a.len) (trigger (afterChoice m) 0x6B 0 0))
          (fun x => x.acu.store (vioRecord x a .inner f slot page)) s.mod
        exec (.registerWrite t a) s = .next { s with mod := m1 }) ∧
        (vioRecord m a .inner f slot page).w0.getLsbD 33 = true

/-- 02 R60: the record words change only where ACU_VIO_NEXT is written and where a violation is stored in an empty
store, or where the core die is reset; an empty store reads 0; a full one keeps its 1,024 records, counts the loss and
still advances SEQ; a record's stamp is the instant of the refusal. It says that these complete: acuVioNext. -/
def Obligations.ViolationStore : Prop :=
  (∀ (c : Instr) (s s' : State), exec c s = .next s' → s'.mod.resets = s.mod.resets →
    let q := s.mod.acu
    s'.mod.acu.fifo.head? = q.fifo.head? ∨ (∃ v, q.fifo = [] ∧ s'.mod.acu.fifo = [v]) ∨
      s'.mod.acu.fifo = q.fifo.drop 1) ∧
  (∀ (t : Nat) (s : State) (ini : Initiator), let m := s.now t
    WritesReg m ini .acu 1 0x20 →
      exec (.acuVioNext t ini) s =
        .next { s with mod := happens t (fun _ => m) (fun x => { x.acu with fifo := x.acu.fifo.drop 1 }) s.mod }) ∧
  (∀ (m : Mod) (f : Violation → W64), m.acu.fifo = [] → vioWord m f = 0) ∧
  (∀ (m : Mod) (a : Access) (sp : Space) (off slot page : Nat) (f : VioFlags), TurnedAway m a sp off f slot page →
    let v := vioRecord m a sp f slot page
    v.w1 = nowT m ∧ (acuNext a m).seq = m.acu.seq + 1 ∧
      (m.acu.fifo.length < 1024 → (acuNext a m).fifo = m.acu.fifo ++ [v] ∧ (acuNext a m).lost = m.acu.lost) ∧
      (1024 ≤ m.acu.fifo.length → (acuNext a m).fifo = m.acu.fifo ∧
        (acuNext a m).lost = if m.acu.lost = 0xFFFFFFFF then m.acu.lost else m.acu.lost + 1))

/-- 12 R333: from a session's opening on, whatever sequence numbers arrive, H is the highest accepted, and the window
takes exactly the SEQ that are at least 1, above H − 1,024 and not accepted before; any other completes with
ST_REPLAY. -/
def Obligations.ReplayWindowIsExact : Prop :=
  (∀ (seqs : List Nat),
    let run := seqs.foldl (fun (w : Nat × Nat × List Nat) n =>
      if winFresh w.1 w.2.1 n then ((winAccept w.1 w.2.1 n).1, (winAccept w.1 w.2.1 n).2, n :: w.2.2) else w) (0, 0, [])
    run.1 = run.2.2.foldl max 0 ∧
      ∀ (n : Nat), winFresh run.1 run.2.1 n = true ↔ 1 ≤ n ∧ run.1 < n + 1024 ∧ n ∉ run.2.2) ∧
  (∀ (m : Mod) (tag : Nat) (c : Cmd) (x : Session), cmdOf m tag = some c → c.wasSealed = true →
    sessOf m c.tenant c.session = some x → gated m x c.seq.toNat = false →
    winFresh x.h x.bitmap c.seq.toNat = false → acceptTail m tag = complete m tag stReplay [])

/-- 15 R404: disagreements are counted, and neither the count nor what is remembered of them falls to a reset of the
core die; a third within 60 s of the first of the three squalls. -/
def Obligations.DisagreementsSquall : Prop :=
  (∀ (m : Mod) (b : Blk), let seen := m.ssv.fi.filter (fun a => decide (m.clk ≤ a + 60000000000))
    (disagree m b).ssv.fiTotal = min 0xFFFFFF (m.ssv.fiTotal + 1) ∧
      (seen.length < 2 → (disagree m b).ssv.fi = seen ++ [m.clk]) ∧
      (2 ≤ seen.length → (disagree m b).ssv.squalled = true ∧ (disagree m b).ssv.esh = none)) ∧
  (∀ (m : Mod), (coreReset m).ssv.fi = m.ssv.fi ∧ (coreReset m).ssv.fiTotal = m.ssv.fiTotal)

/-- 17 R437: an even counter and its chained odd neighbour count as one 96-bit number (while the odd one is enabled:
log 41); the odd one takes no event of its own; an unchained counter, or the odd one of a pair, wraps to 0 at its
maximum and sets its bit in PMC_OVF; CHAIN on an even counter is ignored. -/
def Obligations.ChainedCountersCountAsOne : Prop :=
  (∀ (m : Mod) (n : Nat), n % 2 = 0 → pselChain (pmcSel m (n + 1)) = true → pselEn (pmcSel m (n + 1)) = true →
    tblGet 0 m.pmc.cnt n < 2 ^ 48 → tblGet 0 m.pmc.cnt (n + 1) < 2 ^ 48 →
    let value := fun (x : Mod) => tblGet 0 x.pmc.cnt n + tblGet 0 x.pmc.cnt (n + 1) * 2 ^ 48
    value (pmcCount m n 1) = (value m + 1) % 2 ^ 96 ∧
      (value m + 1 < 2 ^ 96 → (pmcCount m n 1).pmc.ovf = m.pmc.ovf) ∧
      (value m + 1 = 2 ^ 96 → (pmcCount m n 1).pmc.ovf = m.pmc.ovf ||| BitVec.ofNat 256 (2 ^ (n + 1)))) ∧
  (∀ (m : Mod) (n : Nat), n % 2 = 1 → pselChain (pmcSel m n) = true →
    ∀ (code : Nat) (ten : Option Nat), n ∉ pmcTakers m code ten) ∧
  (∀ (m : Mod) (n : Nat), tblGet 0 m.pmc.cnt n < 2 ^ 48 → (n % 2 = 0 → pselChain (pmcSel m (n + 1)) = false) →
    tblGet 0 (pmcCount m n 1).pmc.cnt n = (tblGet 0 m.pmc.cnt n + 1) % 2 ^ 48 ∧
      (pmcCount m n 1).pmc.ovf =
        if tblGet 0 m.pmc.cnt n + 1 = 2 ^ 48 then m.pmc.ovf ||| BitVec.ofNat 256 (2 ^ n) else m.pmc.ovf) ∧
  (∀ (m : Mod) (n : Nat), n % 2 = 0 → pmcChained m n = false)

/-- 17 R438: PMC_CTL.SNAP copies all 256 counters at once, and PMC_SNAP reads what was copied. It says that these
complete: pmcSnap. -/
def Obligations.SnapshotCopiesCounters : Prop :=
  (∀ (t : Nat) (s : State) (ini : Initiator), let m := s.now t
    WritesReg m ini .pmc 1 0x100 →
      Leaves (.pmcSnap t ini) t s { m with pmc := { m.pmc with snap := m.pmc.cnt } }) ∧
  (∀ (m : Mod) (n : Nat), n < 256 → ∃ r, pmcSnapRegs (8 * n) = some r ∧ r.wide = true ∧
    (r.read m).1 = BitVec.ofNat 64 (tblGet 0 m.pmc.snap n) ∧ (r.read m).2 = m)

/-- An access by a tenant reaches its own tenant's window alone: a VF that of the tenant it is bound to, a network
initiator, of the windows, that of its tenant tag (02 R46, R52, R55). -/
def Obligations.TenantsReachOnlyTheirWindow : Prop :=
  ∀ (m : Mod) (a : Access) (sp : Space) (off : Nat), Granted m a sp off → 0 < a.len → a.vfTable = false →
    (∀ (p : Port) (n : Nat), a.ini = .vf p n → ∃ ten, tenantOfVf m p n = some ten ∧ sp = .window ten) ∧
    (∀ (ten : Nat), a.ini = .net ten → sp = .inner ∨ sp = .window ten)
end

