-- ==== Sys2Proof/Laws/Table.lean ====
section
/-! SUPPORT. Tables and buffers: reading after writing, and that every operation on a buffer keeps its canonical form. -/

namespace Sys2Proof.Machine

/-! ### Tables -/

theorem tblFind_tblSet {α : Type} (t : Tbl α) (k j : Nat) (v : α) :
    tblFind (tblSet t k v) j = if j = k then some v else tblFind t j := by
  induction t with
  | nil =>
    simp only [tblSet, tblFind, eq_comm]
  | cons p r ih =>
    obtain ⟨k', v'⟩ := p
    simp only [tblSet]
    split
    · rename_i h
      subst h
      simp only [tblFind]
      by_cases hj : j = k'
      · simp [hj]
      · simp [hj, Ne.symm hj]
    · rename_i h
      split
      · simp only [tblFind]
        by_cases hj : j = k
        · simp [hj]
        · simp [hj, Ne.symm hj]
      · simp only [tblFind, ih]
        by_cases hj : k' = j
        · subst hj
          simp [h]
        · simp [hj]

@[simp] theorem tblFind_tblSet_same {α : Type} (t : Tbl α) (k : Nat) (v : α) : tblFind (tblSet t k v) k = some v := by
  simp [tblFind_tblSet]

theorem tblFind_tblSet_other {α : Type} (t : Tbl α) {k j : Nat} (v : α) (h : j ≠ k) :
    tblFind (tblSet t k v) j = tblFind t j := by
  simp [tblFind_tblSet, h]

@[simp] theorem tblGet_tblSet_same {α : Type} (d : α) (t : Tbl α) (k : Nat) (v : α) : tblGet d (tblSet t k v) k = v := by
  simp [tblGet]

theorem tblGet_tblSet_other {α : Type} (d : α) (t : Tbl α) {k j : Nat} (v : α) (h : j ≠ k) :
    tblGet d (tblSet t k v) j = tblGet d t j := by
  simp [tblGet, tblFind_tblSet, h]

@[simp] theorem tblGet_tblUpd_same {α : Type} (d : α) (t : Tbl α) (k : Nat) (f : α → α) :
    tblGet d (tblUpd d t k f) k = f (tblGet d t k) := by
  simp [tblUpd]

theorem tblGet_tblUpd_other {α : Type} (d : α) (t : Tbl α) {k j : Nat} (f : α → α) (h : j ≠ k) :
    tblGet d (tblUpd d t k f) j = tblGet d t j := tblGet_tblSet_other d t _ h

theorem tblFind_tblErase {α : Type} (t : Tbl α) (k j : Nat) :
    tblFind (tblErase t k) j = if j = k then none else tblFind t j := by
  induction t with
  | nil => simp [tblErase, tblFind]
  | cons p r ih =>
    obtain ⟨k', v'⟩ := p
    unfold tblErase at ih ⊢
    by_cases hk : k' = k
    · subst hk
      simp only [List.filter_cons, beq_self_eq_true, Bool.not_true, Bool.false_eq_true, if_false, ih, tblFind]
      by_cases hj : j = k'
      · simp [hj]
      · simp [hj, Ne.symm hj]
    · have : (k' == k) = false := by simp [hk]
      simp only [List.filter_cons, this, Bool.not_false, if_true, tblFind, ih]
      by_cases hj : k' = j
      · subst hj
        simp [hk]
      · simp [hj]

/-! ### Buffers -/

theorem memWfFrom_mono {lo hi : Nat} {m : Memory} (h : memWfFrom hi m = true) (hl : lo ≤ hi) : memWfFrom lo m = true := by
  cases m with
  | nil => rfl
  | cons c r =>
    obtain ⟨a, b⟩ := c
    simp only [memWfFrom, Bool.and_eq_true, decide_eq_true_eq] at h ⊢
    exact ⟨⟨Nat.le_trans hl h.1.1, h.1.2⟩, h.2⟩

theorem memDrop_wf {m : Memory} {lo : Nat} (a : Nat) (h : memWfFrom lo m = true) : memWfFrom lo (memDrop m a) = true := by
  induction m generalizing lo with
  | nil => rfl
  | cons c r ih =>
    obtain ⟨a', b⟩ := c
    simp only [memWfFrom, Bool.and_eq_true, decide_eq_true_eq] at h
    simp only [memDrop]
    split
    · exact memWfFrom_mono h.2 (by omega)
    · simp only [memWfFrom, Bool.and_eq_true, decide_eq_true_eq]
      exact ⟨h.1, ih h.2⟩

theorem memPut_wf {m : Memory} {lo a : Nat} {b : Byte} (ha : lo ≤ a) (hb : b ≠ memDefault) (h : memWfFrom lo m = true) :
    memWfFrom lo (memPut m a b) = true := by
  induction m generalizing lo with
  | nil => simp [memPut, memWfFrom, ha, hb]
  | cons c r ih =>
    obtain ⟨a', b'⟩ := c
    have h' := h
    simp only [memWfFrom, Bool.and_eq_true, decide_eq_true_eq] at h
    simp only [memPut]
    split
    · rename_i he
      subst he
      simp [memWfFrom, ha, hb, h.2]
    · split
      · rename_i hlt
        have : memWfFrom (a + 1) ((a', b') :: r) = true := by
          simp only [memWfFrom, Bool.and_eq_true, decide_eq_true_eq]
          exact ⟨⟨by omega, h.1.2⟩, h.2⟩
        simp [memWfFrom, ha, hb] at this ⊢
        exact this
      · simp only [memWfFrom, Bool.and_eq_true, decide_eq_true_eq]
        exact ⟨h.1, ih (by omega) h.2⟩

/-- Writing a byte keeps a buffer's canonical form. -/
theorem memWrite_wf {m : Memory} (a : Nat) (b : Byte) (h : memWf m = true) : memWf (memWrite m a b) = true := by
  unfold memWrite
  split
  · exact memDrop_wf a h
  · rename_i hb
    exact memPut_wf (Nat.zero_le a) hb h

/-- Writing a string of bytes keeps a buffer's canonical form. -/
theorem memWriteBytes_wf {m : Memory} (a : Nat) (bs : Bytes) (h : memWf m = true) : memWf (memWriteBytes m a bs) = true := by
  induction bs generalizing m a with
  | nil => exact h
  | cons b bs ih => exact ih (a + 1) (memWrite_wf a b h)

theorem memRead_low {m : Memory} {lo a : Nat} (h : memWfFrom lo m = true) (ha : a < lo) : memRead m a = memDefault := by
  induction m generalizing lo with
  | nil => rfl
  | cons c r ih =>
    obtain ⟨a', b⟩ := c
    simp only [memWfFrom, Bool.and_eq_true, decide_eq_true_eq] at h
    simp only [memRead]
    rw [if_neg (by omega)]
    exact ih h.2 (by omega)

theorem memRead_memDrop {m : Memory} {lo : Nat} (a j : Nat) (h : memWfFrom lo m = true) :
    memRead (memDrop m a) j = if j = a then memDefault else memRead m j := by
  induction m generalizing lo with
  | nil => simp [memDrop, memRead]
  | cons c r ih =>
    obtain ⟨a', b⟩ := c
    simp only [memWfFrom, Bool.and_eq_true, decide_eq_true_eq] at h
    simp only [memDrop]
    split
    · rename_i he
      subst he
      by_cases hj : j = a'
      · subst hj
        simp [memRead_low h.2 (Nat.lt_succ_self j)]
      · simp [memRead, hj, Ne.symm hj]
    · rename_i he
      simp only [memRead, ih h.2]
      by_cases hj : a' = j
      · subst hj
        simp [he]
      · simp [hj]

theorem memRead_memPut (m : Memory) (a j : Nat) (b : Byte) :
    memRead (memPut m a b) j = if j = a then b else memRead m j := by
  induction m with
  | nil => simp [memPut, memRead, eq_comm]
  | cons c r ih =>
    obtain ⟨a', b'⟩ := c
    simp only [memPut]
    split
    · rename_i h
      subst h
      by_cases hj : j = a'
      · simp [memRead, hj]
      · simp [memRead, hj, Ne.symm hj]
    · rename_i h
      split
      · by_cases hj : j = a
        · simp [memRead, hj]
        · simp [memRead, hj, Ne.symm hj]
      · simp only [memRead, ih]
        by_cases hj : a' = j
        · subst hj
          simp [h]
        · simp [hj]

/-- A byte written reads back, and no other byte changes. -/
theorem memRead_memWrite {m : Memory} (a j : Nat) (b : Byte) (h : memWf m = true) :
    memRead (memWrite m a b) j = if j = a then b else memRead m j := by
  unfold memWrite
  split
  · rename_i hb
    rw [memRead_memDrop a j h, hb]
  · exact memRead_memPut m a j b

end Sys2Proof.Machine
end

