-- ==== Sys2Proof/Laws/State.lean ====
section
/-! SUPPORT. What each update of the block's state leaves in each field, and what reading gives after a change. -/

namespace Sys2Proof.Machine

/-- A command changed where the tag is held leaves the block but for the commands. -/
theorem updCmd_eq (m : Mod) (tag : Nat) (f : Cmd → Cmd) : updCmd m tag f = { m with cmq := (updCmd m tag f).cmq } := by
  unfold updCmd
  split <;> rfl

/-- A draw of bytes leaves the block but for the generators. -/
theorem afterDraw_eq (m : Mod) (n : Nat) :
    afterDraw m n = { m with free := (afterDraw m n).free, rng := (afterDraw m n).rng } := by
  unfold afterDraw countDraw
  split <;> rfl

@[simp] theorem afterDraw_free (m : Mod) (n : Nat) : (afterDraw m n).free = m.free + n := by
  unfold afterDraw countDraw
  split <;> rfl

/-! ### `updBlk` -/

@[simp] theorem updBlk_clk (m : Mod) (b : Blk) (f : BlkHdr → BlkHdr) : (updBlk m b f).clk = m.clk := rfl
@[simp] theorem updBlk_free (m : Mod) (b : Blk) (f : BlkHdr → BlkHdr) : (updBlk m b f).free = m.free := rfl
@[simp] theorem updBlk_out (m : Mod) (b : Blk) (f : BlkHdr → BlkHdr) : (updBlk m b f).out = m.out := rfl
@[simp] theorem updBlk_resets (m : Mod) (b : Blk) (f : BlkHdr → BlkHdr) : (updBlk m b f).resets = m.resets := rfl
@[simp] theorem updBlk_powered (m : Mod) (b : Blk) (f : BlkHdr → BlkHdr) : (updBlk m b f).powered = m.powered := rfl
@[simp] theorem updBlk_devReady (m : Mod) (b : Blk) (f : BlkHdr → BlkHdr) : (updBlk m b f).devReady = m.devReady := rfl
@[simp] theorem updBlk_blk (m : Mod) (b : Blk) (f : BlkHdr → BlkHdr) :
    (updBlk m b f).blk = tblUpd BlkHdr.reset m.blk b.idx f := rfl
@[simp] theorem updBlk_port (m : Mod) (b : Blk) (f : BlkHdr → BlkHdr) : (updBlk m b f).port = m.port := rfl
@[simp] theorem updBlk_dmaErr (m : Mod) (b : Blk) (f : BlkHdr → BlkHdr) : (updBlk m b f).dmaErr = m.dmaErr := rfl
@[simp] theorem updBlk_acu (m : Mod) (b : Blk) (f : BlkHdr → BlkHdr) : (updBlk m b f).acu = m.acu := rfl
@[simp] theorem updBlk_nif (m : Mod) (b : Blk) (f : BlkHdr → BlkHdr) : (updBlk m b f).nif = m.nif := rfl
@[simp] theorem updBlk_ten (m : Mod) (b : Blk) (f : BlkHdr → BlkHdr) : (updBlk m b f).ten = m.ten := rfl
@[simp] theorem updBlk_tenBase (m : Mod) (b : Blk) (f : BlkHdr → BlkHdr) : (updBlk m b f).tenBase = m.tenBase := rfl
@[simp] theorem updBlk_cmq (m : Mod) (b : Blk) (f : BlkHdr → BlkHdr) : (updBlk m b f).cmq = m.cmq := rfl
@[simp] theorem updBlk_sch (m : Mod) (b : Blk) (f : BlkHdr → BlkHdr) : (updBlk m b f).sch = m.sch := rfl
@[simp] theorem updBlk_txp (m : Mod) (b : Blk) (f : BlkHdr → BlkHdr) : (updBlk m b f).txp = m.txp := rfl
@[simp] theorem updBlk_sce (m : Mod) (b : Blk) (f : BlkHdr → BlkHdr) : (updBlk m b f).sce = m.sce := rfl
@[simp] theorem updBlk_dge (m : Mod) (b : Blk) (f : BlkHdr → BlkHdr) : (updBlk m b f).dge = m.dge := rfl
@[simp] theorem updBlk_pke (m : Mod) (b : Blk) (f : BlkHdr → BlkHdr) : (updBlk m b f).pke = m.pke := rfl
@[simp] theorem updBlk_khs (m : Mod) (b : Blk) (f : BlkHdr → BlkHdr) : (updBlk m b f).khs = m.khs := rfl
@[simp] theorem updBlk_rng (m : Mod) (b : Blk) (f : BlkHdr → BlkHdr) : (updBlk m b f).rng = m.rng := rfl
@[simp] theorem updBlk_kch (m : Mod) (b : Blk) (f : BlkHdr → BlkHdr) : (updBlk m b f).kch = m.kch := rfl
@[simp] theorem updBlk_bsx (m : Mod) (b : Blk) (f : BlkHdr → BlkHdr) : (updBlk m b f).bsx = m.bsx := rfl
@[simp] theorem updBlk_rtb (m : Mod) (b : Blk) (f : BlkHdr → BlkHdr) : (updBlk m b f).rtb = m.rtb := rfl
@[simp] theorem updBlk_tim (m : Mod) (b : Blk) (f : BlkHdr → BlkHdr) : (updBlk m b f).tim = m.tim := rfl
@[simp] theorem updBlk_dcu (m : Mod) (b : Blk) (f : BlkHdr → BlkHdr) : (updBlk m b f).dcu = m.dcu := rfl
@[simp] theorem updBlk_tlk (m : Mod) (b : Blk) (f : BlkHdr → BlkHdr) : (updBlk m b f).tlk = m.tlk := rfl
@[simp] theorem updBlk_jnl (m : Mod) (b : Blk) (f : BlkHdr → BlkHdr) : (updBlk m b f).jnl = m.jnl := rfl
@[simp] theorem updBlk_ssv (m : Mod) (b : Blk) (f : BlkHdr → BlkHdr) : (updBlk m b f).ssv = m.ssv := rfl
@[simp] theorem updBlk_lcc (m : Mod) (b : Blk) (f : BlkHdr → BlkHdr) : (updBlk m b f).lcc = m.lcc := rfl
@[simp] theorem updBlk_sb (m : Mod) (b : Blk) (f : BlkHdr → BlkHdr) : (updBlk m b f).sb = m.sb := rfl
@[simp] theorem updBlk_evr (m : Mod) (b : Blk) (f : BlkHdr → BlkHdr) : (updBlk m b f).evr = m.evr := rfl
@[simp] theorem updBlk_pmc (m : Mod) (b : Blk) (f : BlkHdr → BlkHdr) : (updBlk m b f).pmc = m.pmc := rfl
@[simp] theorem updBlk_hlt (m : Mod) (b : Blk) (f : BlkHdr → BlkHdr) : (updBlk m b f).hlt = m.hlt := rfl
@[simp] theorem updBlk_dur (m : Mod) (b : Blk) (f : BlkHdr → BlkHdr) : (updBlk m b f).dur = m.dur := rfl

/-! ### `updPort` -/

@[simp] theorem updPort_clk (m : Mod) (p : Port) (f : PortState → PortState) : (updPort m p f).clk = m.clk := rfl
@[simp] theorem updPort_free (m : Mod) (p : Port) (f : PortState → PortState) : (updPort m p f).free = m.free := rfl
@[simp] theorem updPort_out (m : Mod) (p : Port) (f : PortState → PortState) : (updPort m p f).out = m.out := rfl
@[simp] theorem updPort_resets (m : Mod) (p : Port) (f : PortState → PortState) : (updPort m p f).resets = m.resets := rfl
@[simp] theorem updPort_powered (m : Mod) (p : Port) (f : PortState → PortState) : (updPort m p f).powered = m.powered := rfl
@[simp] theorem updPort_devReady (m : Mod) (p : Port) (f : PortState → PortState) : (updPort m p f).devReady = m.devReady := rfl
@[simp] theorem updPort_blk (m : Mod) (p : Port) (f : PortState → PortState) : (updPort m p f).blk = m.blk := rfl
@[simp] theorem updPort_port (m : Mod) (p : Port) (f : PortState → PortState) :
    (updPort m p f).port = tblUpd PortState.reset m.port p.idx f := rfl
@[simp] theorem updPort_dmaErr (m : Mod) (p : Port) (f : PortState → PortState) : (updPort m p f).dmaErr = m.dmaErr := rfl
@[simp] theorem updPort_acu (m : Mod) (p : Port) (f : PortState → PortState) : (updPort m p f).acu = m.acu := rfl
@[simp] theorem updPort_nif (m : Mod) (p : Port) (f : PortState → PortState) : (updPort m p f).nif = m.nif := rfl
@[simp] theorem updPort_ten (m : Mod) (p : Port) (f : PortState → PortState) : (updPort m p f).ten = m.ten := rfl
@[simp] theorem updPort_tenBase (m : Mod) (p : Port) (f : PortState → PortState) : (updPort m p f).tenBase = m.tenBase := rfl
@[simp] theorem updPort_cmq (m : Mod) (p : Port) (f : PortState → PortState) : (updPort m p f).cmq = m.cmq := rfl
@[simp] theorem updPort_sch (m : Mod) (p : Port) (f : PortState → PortState) : (updPort m p f).sch = m.sch := rfl
@[simp] theorem updPort_txp (m : Mod) (p : Port) (f : PortState → PortState) : (updPort m p f).txp = m.txp := rfl
@[simp] theorem updPort_sce (m : Mod) (p : Port) (f : PortState → PortState) : (updPort m p f).sce = m.sce := rfl
@[simp] theorem updPort_dge (m : Mod) (p : Port) (f : PortState → PortState) : (updPort m p f).dge = m.dge := rfl
@[simp] theorem updPort_pke (m : Mod) (p : Port) (f : PortState → PortState) : (updPort m p f).pke = m.pke := rfl
@[simp] theorem updPort_khs (m : Mod) (p : Port) (f : PortState → PortState) : (updPort m p f).khs = m.khs := rfl
@[simp] theorem updPort_rng (m : Mod) (p : Port) (f : PortState → PortState) : (updPort m p f).rng = m.rng := rfl
@[simp] theorem updPort_kch (m : Mod) (p : Port) (f : PortState → PortState) : (updPort m p f).kch = m.kch := rfl
@[simp] theorem updPort_bsx (m : Mod) (p : Port) (f : PortState → PortState) : (updPort m p f).bsx = m.bsx := rfl
@[simp] theorem updPort_rtb (m : Mod) (p : Port) (f : PortState → PortState) : (updPort m p f).rtb = m.rtb := rfl
@[simp] theorem updPort_tim (m : Mod) (p : Port) (f : PortState → PortState) : (updPort m p f).tim = m.tim := rfl
@[simp] theorem updPort_dcu (m : Mod) (p : Port) (f : PortState → PortState) : (updPort m p f).dcu = m.dcu := rfl
@[simp] theorem updPort_tlk (m : Mod) (p : Port) (f : PortState → PortState) : (updPort m p f).tlk = m.tlk := rfl
@[simp] theorem updPort_jnl (m : Mod) (p : Port) (f : PortState → PortState) : (updPort m p f).jnl = m.jnl := rfl
@[simp] theorem updPort_ssv (m : Mod) (p : Port) (f : PortState → PortState) : (updPort m p f).ssv = m.ssv := rfl
@[simp] theorem updPort_lcc (m : Mod) (p : Port) (f : PortState → PortState) : (updPort m p f).lcc = m.lcc := rfl
@[simp] theorem updPort_sb (m : Mod) (p : Port) (f : PortState → PortState) : (updPort m p f).sb = m.sb := rfl
@[simp] theorem updPort_evr (m : Mod) (p : Port) (f : PortState → PortState) : (updPort m p f).evr = m.evr := rfl
@[simp] theorem updPort_pmc (m : Mod) (p : Port) (f : PortState → PortState) : (updPort m p f).pmc = m.pmc := rfl
@[simp] theorem updPort_hlt (m : Mod) (p : Port) (f : PortState → PortState) : (updPort m p f).hlt = m.hlt := rfl
@[simp] theorem updPort_dur (m : Mod) (p : Port) (f : PortState → PortState) : (updPort m p f).dur = m.dur := rfl

/-! ### `updTen` -/

@[simp] theorem updTen_clk (m : Mod) (t : Nat) (f : TenHost → TenHost) : (updTen m t f).clk = m.clk := rfl
@[simp] theorem updTen_free (m : Mod) (t : Nat) (f : TenHost → TenHost) : (updTen m t f).free = m.free := rfl
@[simp] theorem updTen_out (m : Mod) (t : Nat) (f : TenHost → TenHost) : (updTen m t f).out = m.out := rfl
@[simp] theorem updTen_resets (m : Mod) (t : Nat) (f : TenHost → TenHost) : (updTen m t f).resets = m.resets := rfl
@[simp] theorem updTen_powered (m : Mod) (t : Nat) (f : TenHost → TenHost) : (updTen m t f).powered = m.powered := rfl
@[simp] theorem updTen_devReady (m : Mod) (t : Nat) (f : TenHost → TenHost) : (updTen m t f).devReady = m.devReady := rfl
@[simp] theorem updTen_blk (m : Mod) (t : Nat) (f : TenHost → TenHost) : (updTen m t f).blk = m.blk := rfl
@[simp] theorem updTen_port (m : Mod) (t : Nat) (f : TenHost → TenHost) : (updTen m t f).port = m.port := rfl
@[simp] theorem updTen_dmaErr (m : Mod) (t : Nat) (f : TenHost → TenHost) : (updTen m t f).dmaErr = m.dmaErr := rfl
@[simp] theorem updTen_acu (m : Mod) (t : Nat) (f : TenHost → TenHost) : (updTen m t f).acu = m.acu := rfl
@[simp] theorem updTen_nif (m : Mod) (t : Nat) (f : TenHost → TenHost) : (updTen m t f).nif = m.nif := rfl
@[simp] theorem updTen_ten (m : Mod) (t : Nat) (f : TenHost → TenHost) :
    (updTen m t f).ten = tblUpd m.tenBase m.ten t f := rfl
@[simp] theorem updTen_tenBase (m : Mod) (t : Nat) (f : TenHost → TenHost) : (updTen m t f).tenBase = m.tenBase := rfl
@[simp] theorem updTen_cmq (m : Mod) (t : Nat) (f : TenHost → TenHost) : (updTen m t f).cmq = m.cmq := rfl
@[simp] theorem updTen_sch (m : Mod) (t : Nat) (f : TenHost → TenHost) : (updTen m t f).sch = m.sch := rfl
@[simp] theorem updTen_txp (m : Mod) (t : Nat) (f : TenHost → TenHost) : (updTen m t f).txp = m.txp := rfl
@[simp] theorem updTen_sce (m : Mod) (t : Nat) (f : TenHost → TenHost) : (updTen m t f).sce = m.sce := rfl
@[simp] theorem updTen_dge (m : Mod) (t : Nat) (f : TenHost → TenHost) : (updTen m t f).dge = m.dge := rfl
@[simp] theorem updTen_pke (m : Mod) (t : Nat) (f : TenHost → TenHost) : (updTen m t f).pke = m.pke := rfl
@[simp] theorem updTen_khs (m : Mod) (t : Nat) (f : TenHost → TenHost) : (updTen m t f).khs = m.khs := rfl
@[simp] theorem updTen_rng (m : Mod) (t : Nat) (f : TenHost → TenHost) : (updTen m t f).rng = m.rng := rfl
@[simp] theorem updTen_kch (m : Mod) (t : Nat) (f : TenHost → TenHost) : (updTen m t f).kch = m.kch := rfl
@[simp] theorem updTen_bsx (m : Mod) (t : Nat) (f : TenHost → TenHost) : (updTen m t f).bsx = m.bsx := rfl
@[simp] theorem updTen_rtb (m : Mod) (t : Nat) (f : TenHost → TenHost) : (updTen m t f).rtb = m.rtb := rfl
@[simp] theorem updTen_tim (m : Mod) (t : Nat) (f : TenHost → TenHost) : (updTen m t f).tim = m.tim := rfl
@[simp] theorem updTen_dcu (m : Mod) (t : Nat) (f : TenHost → TenHost) : (updTen m t f).dcu = m.dcu := rfl
@[simp] theorem updTen_tlk (m : Mod) (t : Nat) (f : TenHost → TenHost) : (updTen m t f).tlk = m.tlk := rfl
@[simp] theorem updTen_jnl (m : Mod) (t : Nat) (f : TenHost → TenHost) : (updTen m t f).jnl = m.jnl := rfl
@[simp] theorem updTen_ssv (m : Mod) (t : Nat) (f : TenHost → TenHost) : (updTen m t f).ssv = m.ssv := rfl
@[simp] theorem updTen_lcc (m : Mod) (t : Nat) (f : TenHost → TenHost) : (updTen m t f).lcc = m.lcc := rfl
@[simp] theorem updTen_sb (m : Mod) (t : Nat) (f : TenHost → TenHost) : (updTen m t f).sb = m.sb := rfl
@[simp] theorem updTen_evr (m : Mod) (t : Nat) (f : TenHost → TenHost) : (updTen m t f).evr = m.evr := rfl
@[simp] theorem updTen_pmc (m : Mod) (t : Nat) (f : TenHost → TenHost) : (updTen m t f).pmc = m.pmc := rfl
@[simp] theorem updTen_hlt (m : Mod) (t : Nat) (f : TenHost → TenHost) : (updTen m t f).hlt = m.hlt := rfl
@[simp] theorem updTen_dur (m : Mod) (t : Nat) (f : TenHost → TenHost) : (updTen m t f).dur = m.dur := rfl

/-! ### `setCmd` -/

@[simp] theorem setCmd_clk (m : Mod) (tag : Nat) (c : Cmd) : (setCmd m tag c).clk = m.clk := rfl
@[simp] theorem setCmd_free (m : Mod) (tag : Nat) (c : Cmd) : (setCmd m tag c).free = m.free := rfl
@[simp] theorem setCmd_out (m : Mod) (tag : Nat) (c : Cmd) : (setCmd m tag c).out = m.out := rfl
@[simp] theorem setCmd_resets (m : Mod) (tag : Nat) (c : Cmd) : (setCmd m tag c).resets = m.resets := rfl
@[simp] theorem setCmd_powered (m : Mod) (tag : Nat) (c : Cmd) : (setCmd m tag c).powered = m.powered := rfl
@[simp] theorem setCmd_devReady (m : Mod) (tag : Nat) (c : Cmd) : (setCmd m tag c).devReady = m.devReady := rfl
@[simp] theorem setCmd_blk (m : Mod) (tag : Nat) (c : Cmd) : (setCmd m tag c).blk = m.blk := rfl
@[simp] theorem setCmd_port (m : Mod) (tag : Nat) (c : Cmd) : (setCmd m tag c).port = m.port := rfl
@[simp] theorem setCmd_dmaErr (m : Mod) (tag : Nat) (c : Cmd) : (setCmd m tag c).dmaErr = m.dmaErr := rfl
@[simp] theorem setCmd_acu (m : Mod) (tag : Nat) (c : Cmd) : (setCmd m tag c).acu = m.acu := rfl
@[simp] theorem setCmd_nif (m : Mod) (tag : Nat) (c : Cmd) : (setCmd m tag c).nif = m.nif := rfl
@[simp] theorem setCmd_ten (m : Mod) (tag : Nat) (c : Cmd) : (setCmd m tag c).ten = m.ten := rfl
@[simp] theorem setCmd_tenBase (m : Mod) (tag : Nat) (c : Cmd) : (setCmd m tag c).tenBase = m.tenBase := rfl
@[simp] theorem setCmd_cmq (m : Mod) (tag : Nat) (c : Cmd) :
    (setCmd m tag c).cmq = { m.cmq with cmds := tblSet m.cmq.cmds tag c } := rfl
@[simp] theorem setCmd_sch (m : Mod) (tag : Nat) (c : Cmd) : (setCmd m tag c).sch = m.sch := rfl
@[simp] theorem setCmd_txp (m : Mod) (tag : Nat) (c : Cmd) : (setCmd m tag c).txp = m.txp := rfl
@[simp] theorem setCmd_sce (m : Mod) (tag : Nat) (c : Cmd) : (setCmd m tag c).sce = m.sce := rfl
@[simp] theorem setCmd_dge (m : Mod) (tag : Nat) (c : Cmd) : (setCmd m tag c).dge = m.dge := rfl
@[simp] theorem setCmd_pke (m : Mod) (tag : Nat) (c : Cmd) : (setCmd m tag c).pke = m.pke := rfl
@[simp] theorem setCmd_khs (m : Mod) (tag : Nat) (c : Cmd) : (setCmd m tag c).khs = m.khs := rfl
@[simp] theorem setCmd_rng (m : Mod) (tag : Nat) (c : Cmd) : (setCmd m tag c).rng = m.rng := rfl
@[simp] theorem setCmd_kch (m : Mod) (tag : Nat) (c : Cmd) : (setCmd m tag c).kch = m.kch := rfl
@[simp] theorem setCmd_bsx (m : Mod) (tag : Nat) (c : Cmd) : (setCmd m tag c).bsx = m.bsx := rfl
@[simp] theorem setCmd_rtb (m : Mod) (tag : Nat) (c : Cmd) : (setCmd m tag c).rtb = m.rtb := rfl
@[simp] theorem setCmd_tim (m : Mod) (tag : Nat) (c : Cmd) : (setCmd m tag c).tim = m.tim := rfl
@[simp] theorem setCmd_dcu (m : Mod) (tag : Nat) (c : Cmd) : (setCmd m tag c).dcu = m.dcu := rfl
@[simp] theorem setCmd_tlk (m : Mod) (tag : Nat) (c : Cmd) : (setCmd m tag c).tlk = m.tlk := rfl
@[simp] theorem setCmd_jnl (m : Mod) (tag : Nat) (c : Cmd) : (setCmd m tag c).jnl = m.jnl := rfl
@[simp] theorem setCmd_ssv (m : Mod) (tag : Nat) (c : Cmd) : (setCmd m tag c).ssv = m.ssv := rfl
@[simp] theorem setCmd_lcc (m : Mod) (tag : Nat) (c : Cmd) : (setCmd m tag c).lcc = m.lcc := rfl
@[simp] theorem setCmd_sb (m : Mod) (tag : Nat) (c : Cmd) : (setCmd m tag c).sb = m.sb := rfl
@[simp] theorem setCmd_evr (m : Mod) (tag : Nat) (c : Cmd) : (setCmd m tag c).evr = m.evr := rfl
@[simp] theorem setCmd_pmc (m : Mod) (tag : Nat) (c : Cmd) : (setCmd m tag c).pmc = m.pmc := rfl
@[simp] theorem setCmd_hlt (m : Mod) (tag : Nat) (c : Cmd) : (setCmd m tag c).hlt = m.hlt := rfl
@[simp] theorem setCmd_dur (m : Mod) (tag : Nat) (c : Cmd) : (setCmd m tag c).dur = m.dur := rfl

/-! ### `dropCmd` -/

@[simp] theorem dropCmd_clk (m : Mod) (tag : Nat) : (dropCmd m tag).clk = m.clk := rfl
@[simp] theorem dropCmd_free (m : Mod) (tag : Nat) : (dropCmd m tag).free = m.free := rfl
@[simp] theorem dropCmd_out (m : Mod) (tag : Nat) : (dropCmd m tag).out = m.out := rfl
@[simp] theorem dropCmd_resets (m : Mod) (tag : Nat) : (dropCmd m tag).resets = m.resets := rfl
@[simp] theorem dropCmd_powered (m : Mod) (tag : Nat) : (dropCmd m tag).powered = m.powered := rfl
@[simp] theorem dropCmd_devReady (m : Mod) (tag : Nat) : (dropCmd m tag).devReady = m.devReady := rfl
@[simp] theorem dropCmd_blk (m : Mod) (tag : Nat) : (dropCmd m tag).blk = m.blk := rfl
@[simp] theorem dropCmd_port (m : Mod) (tag : Nat) : (dropCmd m tag).port = m.port := rfl
@[simp] theorem dropCmd_dmaErr (m : Mod) (tag : Nat) : (dropCmd m tag).dmaErr = m.dmaErr := rfl
@[simp] theorem dropCmd_acu (m : Mod) (tag : Nat) : (dropCmd m tag).acu = m.acu := rfl
@[simp] theorem dropCmd_nif (m : Mod) (tag : Nat) : (dropCmd m tag).nif = m.nif := rfl
@[simp] theorem dropCmd_ten (m : Mod) (tag : Nat) : (dropCmd m tag).ten = m.ten := rfl
@[simp] theorem dropCmd_tenBase (m : Mod) (tag : Nat) : (dropCmd m tag).tenBase = m.tenBase := rfl
@[simp] theorem dropCmd_cmq (m : Mod) (tag : Nat) :
    (dropCmd m tag).cmq = { m.cmq with cmds := tblErase m.cmq.cmds tag, waiting := m.cmq.waiting.erase tag } := rfl
@[simp] theorem dropCmd_sch (m : Mod) (tag : Nat) : (dropCmd m tag).sch = m.sch := rfl
@[simp] theorem dropCmd_txp (m : Mod) (tag : Nat) : (dropCmd m tag).txp = m.txp := rfl
@[simp] theorem dropCmd_sce (m : Mod) (tag : Nat) : (dropCmd m tag).sce = m.sce := rfl
@[simp] theorem dropCmd_dge (m : Mod) (tag : Nat) : (dropCmd m tag).dge = m.dge := rfl
@[simp] theorem dropCmd_pke (m : Mod) (tag : Nat) : (dropCmd m tag).pke = m.pke := rfl
@[simp] theorem dropCmd_khs (m : Mod) (tag : Nat) : (dropCmd m tag).khs = m.khs := rfl
@[simp] theorem dropCmd_rng (m : Mod) (tag : Nat) : (dropCmd m tag).rng = m.rng := rfl
@[simp] theorem dropCmd_kch (m : Mod) (tag : Nat) : (dropCmd m tag).kch = m.kch := rfl
@[simp] theorem dropCmd_bsx (m : Mod) (tag : Nat) : (dropCmd m tag).bsx = m.bsx := rfl
@[simp] theorem dropCmd_rtb (m : Mod) (tag : Nat) : (dropCmd m tag).rtb = m.rtb := rfl
@[simp] theorem dropCmd_tim (m : Mod) (tag : Nat) : (dropCmd m tag).tim = m.tim := rfl
@[simp] theorem dropCmd_dcu (m : Mod) (tag : Nat) : (dropCmd m tag).dcu = m.dcu := rfl
@[simp] theorem dropCmd_tlk (m : Mod) (tag : Nat) : (dropCmd m tag).tlk = m.tlk := rfl
@[simp] theorem dropCmd_jnl (m : Mod) (tag : Nat) : (dropCmd m tag).jnl = m.jnl := rfl
@[simp] theorem dropCmd_ssv (m : Mod) (tag : Nat) : (dropCmd m tag).ssv = m.ssv := rfl
@[simp] theorem dropCmd_lcc (m : Mod) (tag : Nat) : (dropCmd m tag).lcc = m.lcc := rfl
@[simp] theorem dropCmd_sb (m : Mod) (tag : Nat) : (dropCmd m tag).sb = m.sb := rfl
@[simp] theorem dropCmd_evr (m : Mod) (tag : Nat) : (dropCmd m tag).evr = m.evr := rfl
@[simp] theorem dropCmd_pmc (m : Mod) (tag : Nat) : (dropCmd m tag).pmc = m.pmc := rfl
@[simp] theorem dropCmd_hlt (m : Mod) (tag : Nat) : (dropCmd m tag).hlt = m.hlt := rfl
@[simp] theorem dropCmd_dur (m : Mod) (tag : Nat) : (dropCmd m tag).dur = m.dur := rfl

/-! ### `setSess` -/

@[simp] theorem setSess_clk (m : Mod) (t id : Nat) (x : Session) : (setSess m t id x).clk = m.clk := rfl
@[simp] theorem setSess_free (m : Mod) (t id : Nat) (x : Session) : (setSess m t id x).free = m.free := rfl
@[simp] theorem setSess_out (m : Mod) (t id : Nat) (x : Session) : (setSess m t id x).out = m.out := rfl
@[simp] theorem setSess_resets (m : Mod) (t id : Nat) (x : Session) : (setSess m t id x).resets = m.resets := rfl
@[simp] theorem setSess_powered (m : Mod) (t id : Nat) (x : Session) : (setSess m t id x).powered = m.powered := rfl
@[simp] theorem setSess_devReady (m : Mod) (t id : Nat) (x : Session) : (setSess m t id x).devReady = m.devReady := rfl
@[simp] theorem setSess_blk (m : Mod) (t id : Nat) (x : Session) : (setSess m t id x).blk = m.blk := rfl
@[simp] theorem setSess_port (m : Mod) (t id : Nat) (x : Session) : (setSess m t id x).port = m.port := rfl
@[simp] theorem setSess_dmaErr (m : Mod) (t id : Nat) (x : Session) : (setSess m t id x).dmaErr = m.dmaErr := rfl
@[simp] theorem setSess_acu (m : Mod) (t id : Nat) (x : Session) : (setSess m t id x).acu = m.acu := rfl
@[simp] theorem setSess_nif (m : Mod) (t id : Nat) (x : Session) : (setSess m t id x).nif = m.nif := rfl
@[simp] theorem setSess_ten (m : Mod) (t id : Nat) (x : Session) : (setSess m t id x).ten = m.ten := rfl
@[simp] theorem setSess_tenBase (m : Mod) (t id : Nat) (x : Session) : (setSess m t id x).tenBase = m.tenBase := rfl
@[simp] theorem setSess_cmq (m : Mod) (t id : Nat) (x : Session) : (setSess m t id x).cmq = m.cmq := rfl
@[simp] theorem setSess_sch (m : Mod) (t id : Nat) (x : Session) : (setSess m t id x).sch = m.sch := rfl
@[simp] theorem setSess_txp (m : Mod) (t id : Nat) (x : Session) : (setSess m t id x).txp = m.txp := rfl
@[simp] theorem setSess_sce (m : Mod) (t id : Nat) (x : Session) : (setSess m t id x).sce = m.sce := rfl
@[simp] theorem setSess_dge (m : Mod) (t id : Nat) (x : Session) : (setSess m t id x).dge = m.dge := rfl
@[simp] theorem setSess_pke (m : Mod) (t id : Nat) (x : Session) : (setSess m t id x).pke = m.pke := rfl
@[simp] theorem setSess_khs (m : Mod) (t id : Nat) (x : Session) : (setSess m t id x).khs = m.khs := rfl
@[simp] theorem setSess_rng (m : Mod) (t id : Nat) (x : Session) : (setSess m t id x).rng = m.rng := rfl
@[simp] theorem setSess_kch (m : Mod) (t id : Nat) (x : Session) : (setSess m t id x).kch = m.kch := rfl
@[simp] theorem setSess_bsx (m : Mod) (t id : Nat) (x : Session) : (setSess m t id x).bsx = m.bsx := rfl
@[simp] theorem setSess_rtb (m : Mod) (t id : Nat) (x : Session) : (setSess m t id x).rtb = m.rtb := rfl
@[simp] theorem setSess_tim (m : Mod) (t id : Nat) (x : Session) : (setSess m t id x).tim = m.tim := rfl
@[simp] theorem setSess_dcu (m : Mod) (t id : Nat) (x : Session) : (setSess m t id x).dcu = m.dcu := rfl
@[simp] theorem setSess_tlk (m : Mod) (t id : Nat) (x : Session) : (setSess m t id x).tlk = m.tlk := rfl
@[simp] theorem setSess_jnl (m : Mod) (t id : Nat) (x : Session) : (setSess m t id x).jnl = m.jnl := rfl
@[simp] theorem setSess_ssv (m : Mod) (t id : Nat) (x : Session) : (setSess m t id x).ssv = m.ssv := rfl
@[simp] theorem setSess_lcc (m : Mod) (t id : Nat) (x : Session) : (setSess m t id x).lcc = m.lcc := rfl
@[simp] theorem setSess_sb (m : Mod) (t id : Nat) (x : Session) : (setSess m t id x).sb = m.sb := rfl
@[simp] theorem setSess_evr (m : Mod) (t id : Nat) (x : Session) : (setSess m t id x).evr = m.evr := rfl
@[simp] theorem setSess_pmc (m : Mod) (t id : Nat) (x : Session) : (setSess m t id x).pmc = m.pmc := rfl
@[simp] theorem setSess_hlt (m : Mod) (t id : Nat) (x : Session) : (setSess m t id x).hlt = m.hlt := rfl
@[simp] theorem setSess_dur (m : Mod) (t id : Nat) (x : Session) :
    (setSess m t id x).dur = { m.dur with sess := tblSet m.dur.sess (sessKey t id) x } := rfl

/-! ### `emit` -/

@[simp] theorem emit_clk (m : Mod) (o : Output) : (emit m o).clk = m.clk := rfl
@[simp] theorem emit_free (m : Mod) (o : Output) : (emit m o).free = m.free := rfl
@[simp] theorem emit_out (m : Mod) (o : Output) :
    (emit m o).out = m.out ++ [o] := rfl
@[simp] theorem emit_resets (m : Mod) (o : Output) : (emit m o).resets = m.resets := rfl
@[simp] theorem emit_powered (m : Mod) (o : Output) : (emit m o).powered = m.powered := rfl
@[simp] theorem emit_devReady (m : Mod) (o : Output) : (emit m o).devReady = m.devReady := rfl
@[simp] theorem emit_blk (m : Mod) (o : Output) : (emit m o).blk = m.blk := rfl
@[simp] theorem emit_port (m : Mod) (o : Output) : (emit m o).port = m.port := rfl
@[simp] theorem emit_dmaErr (m : Mod) (o : Output) : (emit m o).dmaErr = m.dmaErr := rfl
@[simp] theorem emit_acu (m : Mod) (o : Output) : (emit m o).acu = m.acu := rfl
@[simp] theorem emit_nif (m : Mod) (o : Output) : (emit m o).nif = m.nif := rfl
@[simp] theorem emit_ten (m : Mod) (o : Output) : (emit m o).ten = m.ten := rfl
@[simp] theorem emit_tenBase (m : Mod) (o : Output) : (emit m o).tenBase = m.tenBase := rfl
@[simp] theorem emit_cmq (m : Mod) (o : Output) : (emit m o).cmq = m.cmq := rfl
@[simp] theorem emit_sch (m : Mod) (o : Output) : (emit m o).sch = m.sch := rfl
@[simp] theorem emit_txp (m : Mod) (o : Output) : (emit m o).txp = m.txp := rfl
@[simp] theorem emit_sce (m : Mod) (o : Output) : (emit m o).sce = m.sce := rfl
@[simp] theorem emit_dge (m : Mod) (o : Output) : (emit m o).dge = m.dge := rfl
@[simp] theorem emit_pke (m : Mod) (o : Output) : (emit m o).pke = m.pke := rfl
@[simp] theorem emit_khs (m : Mod) (o : Output) : (emit m o).khs = m.khs := rfl
@[simp] theorem emit_rng (m : Mod) (o : Output) : (emit m o).rng = m.rng := rfl
@[simp] theorem emit_kch (m : Mod) (o : Output) : (emit m o).kch = m.kch := rfl
@[simp] theorem emit_bsx (m : Mod) (o : Output) : (emit m o).bsx = m.bsx := rfl
@[simp] theorem emit_rtb (m : Mod) (o : Output) : (emit m o).rtb = m.rtb := rfl
@[simp] theorem emit_tim (m : Mod) (o : Output) : (emit m o).tim = m.tim := rfl
@[simp] theorem emit_dcu (m : Mod) (o : Output) : (emit m o).dcu = m.dcu := rfl
@[simp] theorem emit_tlk (m : Mod) (o : Output) : (emit m o).tlk = m.tlk := rfl
@[simp] theorem emit_jnl (m : Mod) (o : Output) : (emit m o).jnl = m.jnl := rfl
@[simp] theorem emit_ssv (m : Mod) (o : Output) : (emit m o).ssv = m.ssv := rfl
@[simp] theorem emit_lcc (m : Mod) (o : Output) : (emit m o).lcc = m.lcc := rfl
@[simp] theorem emit_sb (m : Mod) (o : Output) : (emit m o).sb = m.sb := rfl
@[simp] theorem emit_evr (m : Mod) (o : Output) : (emit m o).evr = m.evr := rfl
@[simp] theorem emit_pmc (m : Mod) (o : Output) : (emit m o).pmc = m.pmc := rfl
@[simp] theorem emit_hlt (m : Mod) (o : Output) : (emit m o).hlt = m.hlt := rfl
@[simp] theorem emit_dur (m : Mod) (o : Output) : (emit m o).dur = m.dur := rfl

/-! ### `emitAll` -/

@[simp] theorem emitAll_clk (m : Mod) (o : List Output) : (emitAll m o).clk = m.clk := rfl
@[simp] theorem emitAll_free (m : Mod) (o : List Output) : (emitAll m o).free = m.free := rfl
@[simp] theorem emitAll_out (m : Mod) (o : List Output) :
    (emitAll m o).out = m.out ++ o := rfl
@[simp] theorem emitAll_resets (m : Mod) (o : List Output) : (emitAll m o).resets = m.resets := rfl
@[simp] theorem emitAll_powered (m : Mod) (o : List Output) : (emitAll m o).powered = m.powered := rfl
@[simp] theorem emitAll_devReady (m : Mod) (o : List Output) : (emitAll m o).devReady = m.devReady := rfl
@[simp] theorem emitAll_blk (m : Mod) (o : List Output) : (emitAll m o).blk = m.blk := rfl
@[simp] theorem emitAll_port (m : Mod) (o : List Output) : (emitAll m o).port = m.port := rfl
@[simp] theorem emitAll_dmaErr (m : Mod) (o : List Output) : (emitAll m o).dmaErr = m.dmaErr := rfl
@[simp] theorem emitAll_acu (m : Mod) (o : List Output) : (emitAll m o).acu = m.acu := rfl
@[simp] theorem emitAll_nif (m : Mod) (o : List Output) : (emitAll m o).nif = m.nif := rfl
@[simp] theorem emitAll_ten (m : Mod) (o : List Output) : (emitAll m o).ten = m.ten := rfl
@[simp] theorem emitAll_tenBase (m : Mod) (o : List Output) : (emitAll m o).tenBase = m.tenBase := rfl
@[simp] theorem emitAll_cmq (m : Mod) (o : List Output) : (emitAll m o).cmq = m.cmq := rfl
@[simp] theorem emitAll_sch (m : Mod) (o : List Output) : (emitAll m o).sch = m.sch := rfl
@[simp] theorem emitAll_txp (m : Mod) (o : List Output) : (emitAll m o).txp = m.txp := rfl
@[simp] theorem emitAll_sce (m : Mod) (o : List Output) : (emitAll m o).sce = m.sce := rfl
@[simp] theorem emitAll_dge (m : Mod) (o : List Output) : (emitAll m o).dge = m.dge := rfl
@[simp] theorem emitAll_pke (m : Mod) (o : List Output) : (emitAll m o).pke = m.pke := rfl
@[simp] theorem emitAll_khs (m : Mod) (o : List Output) : (emitAll m o).khs = m.khs := rfl
@[simp] theorem emitAll_rng (m : Mod) (o : List Output) : (emitAll m o).rng = m.rng := rfl
@[simp] theorem emitAll_kch (m : Mod) (o : List Output) : (emitAll m o).kch = m.kch := rfl
@[simp] theorem emitAll_bsx (m : Mod) (o : List Output) : (emitAll m o).bsx = m.bsx := rfl
@[simp] theorem emitAll_rtb (m : Mod) (o : List Output) : (emitAll m o).rtb = m.rtb := rfl
@[simp] theorem emitAll_tim (m : Mod) (o : List Output) : (emitAll m o).tim = m.tim := rfl
@[simp] theorem emitAll_dcu (m : Mod) (o : List Output) : (emitAll m o).dcu = m.dcu := rfl
@[simp] theorem emitAll_tlk (m : Mod) (o : List Output) : (emitAll m o).tlk = m.tlk := rfl
@[simp] theorem emitAll_jnl (m : Mod) (o : List Output) : (emitAll m o).jnl = m.jnl := rfl
@[simp] theorem emitAll_ssv (m : Mod) (o : List Output) : (emitAll m o).ssv = m.ssv := rfl
@[simp] theorem emitAll_lcc (m : Mod) (o : List Output) : (emitAll m o).lcc = m.lcc := rfl
@[simp] theorem emitAll_sb (m : Mod) (o : List Output) : (emitAll m o).sb = m.sb := rfl
@[simp] theorem emitAll_evr (m : Mod) (o : List Output) : (emitAll m o).evr = m.evr := rfl
@[simp] theorem emitAll_pmc (m : Mod) (o : List Output) : (emitAll m o).pmc = m.pmc := rfl
@[simp] theorem emitAll_hlt (m : Mod) (o : List Output) : (emitAll m o).hlt = m.hlt := rfl
@[simp] theorem emitAll_dur (m : Mod) (o : List Output) : (emitAll m o).dur = m.dur := rfl

/-! ### `afterChoice` -/

@[simp] theorem afterChoice_clk (m : Mod) : (afterChoice m).clk = m.clk := rfl
@[simp] theorem afterChoice_free (m : Mod) :
    (afterChoice m).free = m.free + 1 := rfl
@[simp] theorem afterChoice_out (m : Mod) : (afterChoice m).out = m.out := rfl
@[simp] theorem afterChoice_resets (m : Mod) : (afterChoice m).resets = m.resets := rfl
@[simp] theorem afterChoice_powered (m : Mod) : (afterChoice m).powered = m.powered := rfl
@[simp] theorem afterChoice_devReady (m : Mod) : (afterChoice m).devReady = m.devReady := rfl
@[simp] theorem afterChoice_blk (m : Mod) : (afterChoice m).blk = m.blk := rfl
@[simp] theorem afterChoice_port (m : Mod) : (afterChoice m).port = m.port := rfl
@[simp] theorem afterChoice_dmaErr (m : Mod) : (afterChoice m).dmaErr = m.dmaErr := rfl
@[simp] theorem afterChoice_acu (m : Mod) : (afterChoice m).acu = m.acu := rfl
@[simp] theorem afterChoice_nif (m : Mod) : (afterChoice m).nif = m.nif := rfl
@[simp] theorem afterChoice_ten (m : Mod) : (afterChoice m).ten = m.ten := rfl
@[simp] theorem afterChoice_tenBase (m : Mod) : (afterChoice m).tenBase = m.tenBase := rfl
@[simp] theorem afterChoice_cmq (m : Mod) : (afterChoice m).cmq = m.cmq := rfl
@[simp] theorem afterChoice_sch (m : Mod) : (afterChoice m).sch = m.sch := rfl
@[simp] theorem afterChoice_txp (m : Mod) : (afterChoice m).txp = m.txp := rfl
@[simp] theorem afterChoice_sce (m : Mod) : (afterChoice m).sce = m.sce := rfl
@[simp] theorem afterChoice_dge (m : Mod) : (afterChoice m).dge = m.dge := rfl
@[simp] theorem afterChoice_pke (m : Mod) : (afterChoice m).pke = m.pke := rfl
@[simp] theorem afterChoice_khs (m : Mod) : (afterChoice m).khs = m.khs := rfl
@[simp] theorem afterChoice_rng (m : Mod) : (afterChoice m).rng = m.rng := rfl
@[simp] theorem afterChoice_kch (m : Mod) : (afterChoice m).kch = m.kch := rfl
@[simp] theorem afterChoice_bsx (m : Mod) : (afterChoice m).bsx = m.bsx := rfl
@[simp] theorem afterChoice_rtb (m : Mod) : (afterChoice m).rtb = m.rtb := rfl
@[simp] theorem afterChoice_tim (m : Mod) : (afterChoice m).tim = m.tim := rfl
@[simp] theorem afterChoice_dcu (m : Mod) : (afterChoice m).dcu = m.dcu := rfl
@[simp] theorem afterChoice_tlk (m : Mod) : (afterChoice m).tlk = m.tlk := rfl
@[simp] theorem afterChoice_jnl (m : Mod) : (afterChoice m).jnl = m.jnl := rfl
@[simp] theorem afterChoice_ssv (m : Mod) : (afterChoice m).ssv = m.ssv := rfl
@[simp] theorem afterChoice_lcc (m : Mod) : (afterChoice m).lcc = m.lcc := rfl
@[simp] theorem afterChoice_sb (m : Mod) : (afterChoice m).sb = m.sb := rfl
@[simp] theorem afterChoice_evr (m : Mod) : (afterChoice m).evr = m.evr := rfl
@[simp] theorem afterChoice_pmc (m : Mod) : (afterChoice m).pmc = m.pmc := rfl
@[simp] theorem afterChoice_hlt (m : Mod) : (afterChoice m).hlt = m.hlt := rfl
@[simp] theorem afterChoice_dur (m : Mod) : (afterChoice m).dur = m.dur := rfl

/-! ### `afterDraw` -/

@[simp] theorem afterDraw_clk (m : Mod) (n : Nat) : (afterDraw m n).clk = m.clk := by
  rw [afterDraw_eq]
@[simp] theorem afterDraw_out (m : Mod) (n : Nat) : (afterDraw m n).out = m.out := by
  rw [afterDraw_eq]
@[simp] theorem afterDraw_resets (m : Mod) (n : Nat) : (afterDraw m n).resets = m.resets := by
  rw [afterDraw_eq]
@[simp] theorem afterDraw_powered (m : Mod) (n : Nat) : (afterDraw m n).powered = m.powered := by
  rw [afterDraw_eq]
@[simp] theorem afterDraw_devReady (m : Mod) (n : Nat) : (afterDraw m n).devReady = m.devReady := by
  rw [afterDraw_eq]
@[simp] theorem afterDraw_blk (m : Mod) (n : Nat) : (afterDraw m n).blk = m.blk := by
  rw [afterDraw_eq]
@[simp] theorem afterDraw_port (m : Mod) (n : Nat) : (afterDraw m n).port = m.port := by
  rw [afterDraw_eq]
@[simp] theorem afterDraw_dmaErr (m : Mod) (n : Nat) : (afterDraw m n).dmaErr = m.dmaErr := by
  rw [afterDraw_eq]
@[simp] theorem afterDraw_acu (m : Mod) (n : Nat) : (afterDraw m n).acu = m.acu := by
  rw [afterDraw_eq]
@[simp] theorem afterDraw_nif (m : Mod) (n : Nat) : (afterDraw m n).nif = m.nif := by
  rw [afterDraw_eq]
@[simp] theorem afterDraw_ten (m : Mod) (n : Nat) : (afterDraw m n).ten = m.ten := by
  rw [afterDraw_eq]
@[simp] theorem afterDraw_tenBase (m : Mod) (n : Nat) : (afterDraw m n).tenBase = m.tenBase := by
  rw [afterDraw_eq]
@[simp] theorem afterDraw_cmq (m : Mod) (n : Nat) : (afterDraw m n).cmq = m.cmq := by
  rw [afterDraw_eq]
@[simp] theorem afterDraw_sch (m : Mod) (n : Nat) : (afterDraw m n).sch = m.sch := by
  rw [afterDraw_eq]
@[simp] theorem afterDraw_txp (m : Mod) (n : Nat) : (afterDraw m n).txp = m.txp := by
  rw [afterDraw_eq]
@[simp] theorem afterDraw_sce (m : Mod) (n : Nat) : (afterDraw m n).sce = m.sce := by
  rw [afterDraw_eq]
@[simp] theorem afterDraw_dge (m : Mod) (n : Nat) : (afterDraw m n).dge = m.dge := by
  rw [afterDraw_eq]
@[simp] theorem afterDraw_pke (m : Mod) (n : Nat) : (afterDraw m n).pke = m.pke := by
  rw [afterDraw_eq]
@[simp] theorem afterDraw_khs (m : Mod) (n : Nat) : (afterDraw m n).khs = m.khs := by
  rw [afterDraw_eq]
@[simp] theorem afterDraw_kch (m : Mod) (n : Nat) : (afterDraw m n).kch = m.kch := by
  rw [afterDraw_eq]
@[simp] theorem afterDraw_bsx (m : Mod) (n : Nat) : (afterDraw m n).bsx = m.bsx := by
  rw [afterDraw_eq]
@[simp] theorem afterDraw_rtb (m : Mod) (n : Nat) : (afterDraw m n).rtb = m.rtb := by
  rw [afterDraw_eq]
@[simp] theorem afterDraw_tim (m : Mod) (n : Nat) : (afterDraw m n).tim = m.tim := by
  rw [afterDraw_eq]
@[simp] theorem afterDraw_dcu (m : Mod) (n : Nat) : (afterDraw m n).dcu = m.dcu := by
  rw [afterDraw_eq]
@[simp] theorem afterDraw_tlk (m : Mod) (n : Nat) : (afterDraw m n).tlk = m.tlk := by
  rw [afterDraw_eq]
@[simp] theorem afterDraw_jnl (m : Mod) (n : Nat) : (afterDraw m n).jnl = m.jnl := by
  rw [afterDraw_eq]
@[simp] theorem afterDraw_ssv (m : Mod) (n : Nat) : (afterDraw m n).ssv = m.ssv := by
  rw [afterDraw_eq]
@[simp] theorem afterDraw_lcc (m : Mod) (n : Nat) : (afterDraw m n).lcc = m.lcc := by
  rw [afterDraw_eq]
@[simp] theorem afterDraw_sb (m : Mod) (n : Nat) : (afterDraw m n).sb = m.sb := by
  rw [afterDraw_eq]
@[simp] theorem afterDraw_evr (m : Mod) (n : Nat) : (afterDraw m n).evr = m.evr := by
  rw [afterDraw_eq]
@[simp] theorem afterDraw_pmc (m : Mod) (n : Nat) : (afterDraw m n).pmc = m.pmc := by
  rw [afterDraw_eq]
@[simp] theorem afterDraw_hlt (m : Mod) (n : Nat) : (afterDraw m n).hlt = m.hlt := by
  rw [afterDraw_eq]
@[simp] theorem afterDraw_dur (m : Mod) (n : Nat) : (afterDraw m n).dur = m.dur := by
  rw [afterDraw_eq]

/-! ### `updCmd` -/

@[simp] theorem updCmd_clk (m : Mod) (tag : Nat) (f : Cmd → Cmd) : (updCmd m tag f).clk = m.clk := by
  rw [updCmd_eq]
@[simp] theorem updCmd_free (m : Mod) (tag : Nat) (f : Cmd → Cmd) : (updCmd m tag f).free = m.free := by
  rw [updCmd_eq]
@[simp] theorem updCmd_out (m : Mod) (tag : Nat) (f : Cmd → Cmd) : (updCmd m tag f).out = m.out := by
  rw [updCmd_eq]
@[simp] theorem updCmd_resets (m : Mod) (tag : Nat) (f : Cmd → Cmd) : (updCmd m tag f).resets = m.resets := by
  rw [updCmd_eq]
@[simp] theorem updCmd_powered (m : Mod) (tag : Nat) (f : Cmd → Cmd) : (updCmd m tag f).powered = m.powered := by
  rw [updCmd_eq]
@[simp] theorem updCmd_devReady (m : Mod) (tag : Nat) (f : Cmd → Cmd) : (updCmd m tag f).devReady = m.devReady := by
  rw [updCmd_eq]
@[simp] theorem updCmd_blk (m : Mod) (tag : Nat) (f : Cmd → Cmd) : (updCmd m tag f).blk = m.blk := by
  rw [updCmd_eq]
@[simp] theorem updCmd_port (m : Mod) (tag : Nat) (f : Cmd → Cmd) : (updCmd m tag f).port = m.port := by
  rw [updCmd_eq]
@[simp] theorem updCmd_dmaErr (m : Mod) (tag : Nat) (f : Cmd → Cmd) : (updCmd m tag f).dmaErr = m.dmaErr := by
  rw [updCmd_eq]
@[simp] theorem updCmd_acu (m : Mod) (tag : Nat) (f : Cmd → Cmd) : (updCmd m tag f).acu = m.acu := by
  rw [updCmd_eq]
@[simp] theorem updCmd_nif (m : Mod) (tag : Nat) (f : Cmd → Cmd) : (updCmd m tag f).nif = m.nif := by
  rw [updCmd_eq]
@[simp] theorem updCmd_ten (m : Mod) (tag : Nat) (f : Cmd → Cmd) : (updCmd m tag f).ten = m.ten := by
  rw [updCmd_eq]
@[simp] theorem updCmd_tenBase (m : Mod) (tag : Nat) (f : Cmd → Cmd) : (updCmd m tag f).tenBase = m.tenBase := by
  rw [updCmd_eq]
@[simp] theorem updCmd_sch (m : Mod) (tag : Nat) (f : Cmd → Cmd) : (updCmd m tag f).sch = m.sch := by
  rw [updCmd_eq]
@[simp] theorem updCmd_txp (m : Mod) (tag : Nat) (f : Cmd → Cmd) : (updCmd m tag f).txp = m.txp := by
  rw [updCmd_eq]
@[simp] theorem updCmd_sce (m : Mod) (tag : Nat) (f : Cmd → Cmd) : (updCmd m tag f).sce = m.sce := by
  rw [updCmd_eq]
@[simp] theorem updCmd_dge (m : Mod) (tag : Nat) (f : Cmd → Cmd) : (updCmd m tag f).dge = m.dge := by
  rw [updCmd_eq]
@[simp] theorem updCmd_pke (m : Mod) (tag : Nat) (f : Cmd → Cmd) : (updCmd m tag f).pke = m.pke := by
  rw [updCmd_eq]
@[simp] theorem updCmd_khs (m : Mod) (tag : Nat) (f : Cmd → Cmd) : (updCmd m tag f).khs = m.khs := by
  rw [updCmd_eq]
@[simp] theorem updCmd_rng (m : Mod) (tag : Nat) (f : Cmd → Cmd) : (updCmd m tag f).rng = m.rng := by
  rw [updCmd_eq]
@[simp] theorem updCmd_kch (m : Mod) (tag : Nat) (f : Cmd → Cmd) : (updCmd m tag f).kch = m.kch := by
  rw [updCmd_eq]
@[simp] theorem updCmd_bsx (m : Mod) (tag : Nat) (f : Cmd → Cmd) : (updCmd m tag f).bsx = m.bsx := by
  rw [updCmd_eq]
@[simp] theorem updCmd_rtb (m : Mod) (tag : Nat) (f : Cmd → Cmd) : (updCmd m tag f).rtb = m.rtb := by
  rw [updCmd_eq]
@[simp] theorem updCmd_tim (m : Mod) (tag : Nat) (f : Cmd → Cmd) : (updCmd m tag f).tim = m.tim := by
  rw [updCmd_eq]
@[simp] theorem updCmd_dcu (m : Mod) (tag : Nat) (f : Cmd → Cmd) : (updCmd m tag f).dcu = m.dcu := by
  rw [updCmd_eq]
@[simp] theorem updCmd_tlk (m : Mod) (tag : Nat) (f : Cmd → Cmd) : (updCmd m tag f).tlk = m.tlk := by
  rw [updCmd_eq]
@[simp] theorem updCmd_jnl (m : Mod) (tag : Nat) (f : Cmd → Cmd) : (updCmd m tag f).jnl = m.jnl := by
  rw [updCmd_eq]
@[simp] theorem updCmd_ssv (m : Mod) (tag : Nat) (f : Cmd → Cmd) : (updCmd m tag f).ssv = m.ssv := by
  rw [updCmd_eq]
@[simp] theorem updCmd_lcc (m : Mod) (tag : Nat) (f : Cmd → Cmd) : (updCmd m tag f).lcc = m.lcc := by
  rw [updCmd_eq]
@[simp] theorem updCmd_sb (m : Mod) (tag : Nat) (f : Cmd → Cmd) : (updCmd m tag f).sb = m.sb := by
  rw [updCmd_eq]
@[simp] theorem updCmd_evr (m : Mod) (tag : Nat) (f : Cmd → Cmd) : (updCmd m tag f).evr = m.evr := by
  rw [updCmd_eq]
@[simp] theorem updCmd_pmc (m : Mod) (tag : Nat) (f : Cmd → Cmd) : (updCmd m tag f).pmc = m.pmc := by
  rw [updCmd_eq]
@[simp] theorem updCmd_hlt (m : Mod) (tag : Nat) (f : Cmd → Cmd) : (updCmd m tag f).hlt = m.hlt := by
  rw [updCmd_eq]
@[simp] theorem updCmd_dur (m : Mod) (tag : Nat) (f : Cmd → Cmd) : (updCmd m tag f).dur = m.dur := by
  rw [updCmd_eq]

/-! ### The queue -/

@[simp] theorem State.now_pending (s : State) (q : List Instr) (t : Nat) : State.now { s with pending := q } t = s.now t := rfl

/-! ### Reading what was changed -/

theorem idx_ne {b c : Blk} (h : c ≠ b) : c.idx ≠ b.idx := by
  intro e
  exact h (by cases b <;> cases c <;> first | rfl | cases e)

@[simp] theorem blkOf_updBlk_same (m : Mod) (b : Blk) (f : BlkHdr → BlkHdr) : blkOf (updBlk m b f) b = f (blkOf m b) :=
  tblGet_tblUpd_same _ _ _ _

theorem blkOf_updBlk_other (m : Mod) {b c : Blk} (f : BlkHdr → BlkHdr) (h : c ≠ b) :
    blkOf (updBlk m b f) c = blkOf m c :=
  tblGet_tblUpd_other _ _ _ (idx_ne h)

@[simp] theorem portOf_updPort_same (m : Mod) (p : Port) (f : PortState → PortState) :
    portOf (updPort m p f) p = f (portOf m p) :=
  tblGet_tblUpd_same _ _ _ _

theorem portOf_updPort_other (m : Mod) {p q : Port} (f : PortState → PortState) (h : q ≠ p) :
    portOf (updPort m p f) q = portOf m q :=
  tblGet_tblUpd_other _ _ _ (by intro e; exact h (by cases p <;> cases q <;> first | rfl | cases e))

@[simp] theorem tenOf_updTen_same (m : Mod) (t : Nat) (f : TenHost → TenHost) : tenOf (updTen m t f) t = f (tenOf m t) :=
  tblGet_tblUpd_same _ _ _ _

theorem tenOf_updTen_other (m : Mod) {t u : Nat} (f : TenHost → TenHost) (h : u ≠ t) :
    tenOf (updTen m t f) u = tenOf m u :=
  tblGet_tblUpd_other _ _ _ h

@[simp] theorem cmdOf_setCmd_same (m : Mod) (tag : Nat) (c : Cmd) : cmdOf (setCmd m tag c) tag = some c :=
  tblFind_tblSet_same _ _ _

theorem cmdOf_setCmd_other (m : Mod) {tag u : Nat} (c : Cmd) (h : u ≠ tag) : cmdOf (setCmd m tag c) u = cmdOf m u :=
  tblFind_tblSet_other _ _ h

theorem cmdOf_updCmd_same (m : Mod) (tag : Nat) (f : Cmd → Cmd) :
    cmdOf (updCmd m tag f) tag = (cmdOf m tag).map f := by
  unfold updCmd
  split
  · simp [*]
  · simp [*]

/-! ### What the interrupt operations can change -/

/-- A message leaves, or waits at its port. -/
theorem postMsg_eq (m : Mod) (p : Port) (x : MsixMsg) :
    postMsg m p x = { m with port := (postMsg m p x).port, out := (postMsg m p x).out } := by
  unfold postMsg
  split <;> rfl

/-- A PF vector changes the pending bits of its port, or drives a message. -/
theorem msixPf_eq (m : Mod) (p : Port) (v : Nat) :
    msixPf m p v = { m with port := (msixPf m p v).port, out := (msixPf m p v).out } := by
  simp only [msixPf]
  split
  · rfl
  · exact postMsg_eq _ _ _

/-- So does a VF's. -/
theorem msixVf_eq (m : Mod) (p : Port) (vf v : Nat) :
    msixVf m p vf v = { m with port := (msixVf m p vf v).port, out := (msixVf m p vf v).out } := by
  simp only [msixVf]
  split
  · rfl
  · exact postMsg_eq _ _ _

/-- A block's vector on the ports that enable it. -/
theorem signalBlk_eq (m : Mod) (b : Blk) :
    signalBlk m b = { m with port := (signalBlk m b).port, out := (signalBlk m b).out } := by
  have one : ∀ (m : Mod) (p : Port), ∃ x y,
      (if (portOf m p).intEn.getLsbD b.idx then msixPf m p (2 + b.idx) else m) = { m with port := x, out := y } := by
    intro m p
    split
    · exact ⟨_, _, msixPf_eq _ _ _⟩
    · exact ⟨m.port, m.out, rfl⟩
  obtain ⟨x1, y1, h1⟩ := one m .a
  obtain ⟨x2, y2, h2⟩ := one { m with port := x1, out := y1 } .b
  have e : signalBlk m b = { m with port := x2, out := y2 } := by
    simp only [signalBlk]
    rw [h1, h2]
  rw [e]

/-- A change of a block's header reaches that header, and the pending bits and messages of its vector. -/
theorem withPending_eq (m : Mod) (b : Blk) (f : BlkHdr → BlkHdr) :
    withPending m b f =
      { m with blk := (updBlk m b f).blk, port := (withPending m b f).port, out := (withPending m b f).out } := by
  simp only [withPending]
  split
  · rw [signalBlk_eq]
    rfl
  · rfl

/-- INT_STAT bits set in a block leave its header with those bits and nothing else of the block changed but the
signalling of its vector (02 R39). -/
theorem raiseInt_eq (m : Mod) (b : Blk) (bits : W32) :
    raiseInt m b bits =
      { m with
        blk := (updBlk m b (fun h => { h with intStat := h.intStat ||| bits })).blk
        port := (raiseInt m b bits).port
        out := (raiseInt m b bits).out } :=
  withPending_eq _ _ _

end Sys2Proof.Machine
end

