-- ==== Sys2Proof/Laws/Happens.lean ====
section
/-! SUPPORT. What every command does around its own effect: the clock, the queue, the store of violations, and what is
left where nothing waits. -/

namespace Sys2Proof.Machine

@[simp] theorem noteTrust_clk (m : Mod) : (noteTrust m).clk = m.clk := by
  unfold noteTrust
  split <;> rfl

/-- Time passing moves the clock up to the instant and never back. -/
@[simp] theorem advance_clk (t : Nat) (m : Mod) : (advance t m).clk = max m.clk t := by
  unfold advance
  exact noteTrust_clk _

/-! ### Time alone leaves the store of violations -/

@[simp] theorem raiseInt_acu (m : Mod) (b : Blk) (bits : W32) : (raiseInt m b bits).acu = m.acu := by
  rw [raiseInt_eq]

@[simp] theorem pmcCount_acu (m : Mod) (n k : Nat) : (pmcCount m n k).acu = m.acu := by
  unfold pmcCount pmcAdd pmcOver
  dsimp only
  split
  · rfl
  · split
    · split
      · split
        · rfl
        · simp
      · rfl
    · simp

theorem foldl_acu {α : Type} {f : Mod → α → Mod} (h : ∀ m x, (f m x).acu = m.acu) (l : List α) (m : Mod) :
    (l.foldl f m).acu = m.acu := by
  induction l generalizing m with
  | nil => rfl
  | cons x l ih => rw [List.foldl_cons, ih, h]

@[simp] theorem pmcAdvance_acu (m : Mod) (a b : Nat) : (pmcAdvance m a b).acu = m.acu := by
  unfold pmcAdvance
  split
  · rfl
  · refine foldl_acu (fun m p => ?_) _ _
    dsimp only
    split
    · split <;> simp
    · rfl

@[simp] theorem evrSamples_acu (m : Mod) (src : Nat) (ten : Option Nat) (v : Nat) (split' : EvrEpoch → Nat × Nat) :
    (evrSamples m src ten v split').acu = m.acu := by
  unfold evrSamples
  split <;> rfl

@[simp] theorem noteTrust_acu (m : Mod) : (noteTrust m).acu = m.acu := by
  unfold noteTrust
  split <;> rfl

@[simp] theorem advance_acu (t : Nat) (m : Mod) : (advance t m).acu = m.acu := by
  unfold advance
  dsimp only
  rw [noteTrust_acu]
  split
  · simp [evrAdvance]
  · rfl

@[simp] theorem elapse_acu (m : Mod) : (elapse m).acu = m.acu := rfl

/-- An effect counts only for what it makes of the block at the instant. -/
theorem happens_congr {t : Nat} {f g : Mod → Mod} {a b : Mod → AcuState} {m : Mod}
    (hf : f (elapse (advance t m)) = g (elapse (advance t m))) (ha : a (elapse (advance t m)) = b (elapse (advance t m))) :
    happens t f a m = happens t g b m := by
  unfold happens atInstant
  simp only [hf, ha]

/-- Whatever its effect, a command leaves the clock at its instant, or where it was if that is later. -/
@[simp] theorem happens_clk (t : Nat) (f : Mod → Mod) (a : Mod → AcuState) (m : Mod) :
    (happens t f a m).clk = max m.clk t := rfl

/-- A command that is no access leaves the store of violations alone, but for a reset of the core die. -/
theorem happens_acu (t : Nat) (f : Mod → Mod) (a : Mod → AcuState) (m : Mod) :
    (happens t f a m).acu = a (elapse (advance t m)) ∨ (happens t f a m).acu = AcuState.reset := by
  unfold happens
  dsimp only
  split
  · exact Or.inl rfl
  · exact Or.inr rfl

/-- A command that is no access completes as its effect on the block at its instant. -/
theorem acts_eq {t : Nat} {f : Mod → Mod} {s : State} {m : Mod} (h : f (s.now t) = m) :
    acts t f s = left t s m := by
  exact congrArg (fun x => (Host.Outcome.next { s with mod := x } : Result)) (happens_congr h rfl)

/-- An access that leaves the store of violations alone completes as its effect on the block at its instant. -/
theorem accesses_eq {t : Nat} {row : Row} {s : State} {e : RegEnv} {a : Access} {m : Mod}
    (hr : row (s.now t) = some (e, a)) (hm : regAccess e a (s.now t) = m)
    (hq : acuNext a (s.now t) = (s.now t).acu) : accesses t row s = left t s m := by
  have h : (row (s.now t)).elim (s.now t) (fun x => regAccess x.1 x.2 (s.now t)) = m := by
    rw [hr]
    exact hm
  have hq' : rowAcu row (s.now t) = (s.now t).acu := by
    simp only [rowAcu, hr, Option.elim_some, hq]
  exact congrArg (fun x => (Host.Outcome.next { s with mod := x } : Result)) (happens_congr h hq')

/-! ### Quiet states -/

theorem foldl_fixed {α β : Type} {f : β → α → β} {b : β} (l : List α) (h : ∀ x ∈ l, f b x = b) : l.foldl f b = b := by
  induction l with
  | nil => rfl
  | cons x r ih =>
    rw [List.foldl_cons, h x (by simp)]
    exact ih (fun y hy => h y (by simp [hy]))

/-- Where no path waits and no tag is kept, free tags go nowhere. -/
theorem serveTags_quiet {m : Mod} (h : NoneHeld m) : serveTags m = m := by
  obtain ⟨ha, ht⟩ := h
  have h1 : (m.ten.map Prod.fst).foldl dropGrant m = m :=
    foldl_fixed _ (fun t hm => by simp [dropGrant, (ht t hm).1])
  have h2 : ∀ p, issueEntry m (.admin p) = m := fun p => by simp [issueEntry, fetchable, ha p]
  unfold serveTags
  simp only [h1, h2]
  apply foldl_fixed
  intro p hp
  have hp' : p.1 ∈ m.ten.map Prod.fst ∧ p.2 < 5 := by
    simp only [pathRing, List.mem_append, List.mem_filter, List.mem_flatMap, List.mem_map, List.mem_range] at hp
    rcases hp with ⟨⟨x, hx, k, hk, rfl⟩, _⟩ | ⟨⟨x, hx, k, hk, rfl⟩, _⟩ <;> exact ⟨List.mem_map_of_mem (f := Prod.fst) hx, hk⟩
  simp [servePath, (ht p.1 hp'.1).2 p.2 hp'.2]

theorem follow_quiet {old m : Mod} (h : Quiet m) (hs : m.ssv.squalled = old.ssv.squalled)
    (hf : ∀ b, (blkOf m b).fault = true → (blkOf old b).fault = true) : follow old m = m := by
  obtain ⟨hc, hq, ⟨hp, hy, hst, hh, hb, hv⟩, hn, he, hl, hx, _⟩ := h
  have h1 : settle m = m := by
    simp [settle, settleKeys, hc, resumePk, resumeImages, resumeLcc, hp, hl]
  have h2 : noteReadyClear old m = m := by
    unfold noteReadyClear
    split
    · simp [hc]
    · rfl
  have h3 : noteErase old m = m := by
    unfold noteErase
    rw [hs]
    simp
  have h4 : noteFault old m = m := by
    unfold noteFault
    split
    · rename_i hx
      simp only [List.any_eq_true, Bool.and_eq_true, Bool.not_eq_true'] at hx
      obtain ⟨b, _, h0, h1⟩ := hx
      rw [hf b h1] at h0
      cases h0
    · rfl
  have h5 : noteProgress m = m := by simp [noteProgress, hst]
  have h6 : noteServeLoss m = m := by simp [noteServeLoss, hv]
  have h7 : noteRevert m = m := by
    have : revertHolds m = false := by simp [revertHolds, hp]
    simp [noteRevert, this, hh, hb]
  have h8 : noteReadmitted m = m := by simp [noteReadmitted, hy]
  have h9 : withdrawCores m = m := by simp [withdrawCores, hx]
  have h10 : acceptHeld m = m := by simp [acceptHeld, hq]
  simp only [follow, h1, h2, h3, h4, h5, h6, h7, h8, h9, h10, serveTags_quiet hn]

/-- Where nothing waits, passing time alone does nothing but move the clock. -/
theorem elapse_quiet {m : Mod} (h : Quiet m) : elapse m = m := by
  obtain ⟨hc, _, _, _, _, _, _, hb⟩ := h
  have : walk m = m := by simp [walk, hb]
  simp [elapse, this, expirePk, hc]

theorem noteTrust_quiet {m : Mod} (h : m.evr.chan = []) : noteTrust m = m := by
  unfold noteTrust
  split
  · rfl
  · cases m
    rename_i evr _ _ _ _
    cases evr
    simp only at h
    subst h
    rfl

/-- Where nothing waits and no status output or bit of DEV_STAT changes, a command's effect is all that happens. -/
theorem happens_quiet {t : Nat} {m m1 : Mod} {a : Mod → AcuState} (h : Quiet m1)
    (hs : m1.ssv.squalled = (advance t m).ssv.squalled)
    (hf : ∀ b, (blkOf m1 b).fault = true → (blkOf (advance t m) b).fault = true)
    (hd : devStat m1 = devStat m) (hp : statusPins m1 = statusPins m) (hr : m1.resets = m.resets) :
    happens t (fun _ => m1) a m = { m1 with clk := max m.clk t, acu := a (elapse (advance t m)) } := by
  have h1 : atInstant t (fun x => follow x m1) m = m1 := by
    unfold atInstant
    dsimp only
    rw [follow_quiet h hs hf]
    have : noteDevStat (devStat m) m1 = m1 := by simp [noteDevStat, hd]
    rw [this]
    have : notePins (statusPins m) m1 = m1 := by
      unfold notePins
      rw [hp]
      have : (statusPins m).filter (fun p => !(statusPins m).contains p) = [] := by
        apply List.filter_eq_nil_iff.mpr
        intro x hx
        simp [hx]
      rw [this]
      simp [emitAll]
    rw [this]
    exact noteTrust_quiet h.2.2.2.2.1
  unfold happens
  dsimp only
  rw [h1]
  simp [hr]

end Sys2Proof.Machine
end

