-- ==== Sys2Proof/Laws/Access.lean ====
section
/-! SUPPORT. What a granted access to one register does: the register's own write or read, and nothing to the store of
violations. -/

namespace Sys2Proof.Machine

/-! ### One whole register -/

theorem dwords_word {a : Access} {off : Nat} (hl : a.len = 4) (hb : a.be = []) (h4 : off % 4 = 0) : dwords a off = [off] := by
  have h1 : off / 4 * 4 = off := by omega
  unfold dwords
  simp [hl, hb, h4, h1, byteOn, List.range_succ]

theorem dwords_pair {a : Access} {off : Nat} (hl : a.len = 8) (hb : a.be = []) (h8 : off % 8 = 0) :
    dwords a off = [off, off + 4] := by
  have h1 : off / 4 * 4 = off := by omega
  have h2 : off % 4 = 0 := by omega
  unfold dwords
  simp [hl, hb, h2, h1, byteOn, List.range_succ]

theorem mask_word {a : Access} {off : Nat} (hl : a.len = 4) (hb : a.be = []) : laneMask a off off 4 = 0xFFFFFFFF#64 := by
  unfold laneMask
  simp [hl, hb, byteOn, List.range_succ, leNat]

theorem mask_pair {a : Access} {off : Nat} (hl : a.len = 8) (hb : a.be = []) :
    laneMask a off off 8 = 0xFFFFFFFFFFFFFFFF#64 := by
  unfold laneMask
  simp [hl, hb, byteOn, List.range_succ, leNat]

theorem leNat_natLe (n v : Nat) : leNat (natLe n v) = v % 256 ^ n := by
  induction n generalizing v with
  | zero => simp [natLe, leNat, Nat.mod_one]
  | succ n ih =>
    have := ih (v / 256)
    unfold leNat at this ⊢
    simp only [natLe, List.foldr_cons, this, byteOf, BitVec.toNat_ofNat]
    rw [show (256 : Nat) ^ (n + 1) = 256 * 256 ^ n from by rw [Nat.pow_succ, Nat.mul_comm], Nat.mod_mul]
    omega

theorem range_data {a : Access} {off n : Nat} (hl : a.len = n) (hd : a.data.length = n) :
    (List.range n).map (fun k => if off ≤ off + k ∧ off + k < off + a.len then a.data.getD (off + k - off) 0 else 0) = a.data := by
  apply List.ext_getElem
  · simp [hd]
  · intro i h1 h2
    have : i < n := by simpa using h1
    simp [hl, this, List.getElem?_eq_getElem h2]

theorem data_word (ini : Initiator) (addr off : Nat) (v : W32) :
    laneData (write32 ini addr v) off off 4 = v.setWidth 64 := by
  have h : (write32 ini addr v).data = natLe 4 v.toNat := rfl
  unfold laneData
  rw [range_data (n := 4) rfl rfl, h, leNat_natLe]
  apply BitVec.eq_of_toNat_eq
  have := v.isLt
  simp
  omega

theorem data_pair (ini : Initiator) (addr off : Nat) (v : W64) : laneData (write64 ini addr v) off off 8 = v := by
  have h : (write64 ini addr v).data = natLe 8 v.toNat := rfl
  unfold laneData
  rw [range_data (n := 8) rfl rfl, h, leNat_natLe]
  apply BitVec.eq_of_toNat_eq
  have := v.isLt
  simp
  omega

/-! ### Granted accesses -/

theorem spaceOf_data (m : Mod) (a : Access) (d : Bytes) : spaceOf m { a with data := d } = spaceOf m a := rfl

theorem judge_data (m : Mod) (a : Access) (d : Bytes) (sp : Space) (off : Nat) :
    judge m { a with data := d } sp off = judge m a sp off := rfl

/-- What a write carries decides nothing about whether it is granted. -/
theorem Granted.data {m : Mod} {ini : Initiator} {addr : Nat} {sp : Space} {off : Nat} {w : W32} (v : W32)
    (h : Granted m (write32 ini addr w) sp off) : Granted m (write32 ini addr v) sp off := by
  have e : write32 ini addr v = { write32 ini addr w with data := natLe 4 v.toNat } := rfl
  obtain ⟨h1, h2, h3⟩ := h
  unfold Granted
  rw [e, spaceOf_data, judge_data]
  exact ⟨h1, h2, h3⟩

/-- A granted 32-bit write to a 32-bit register is the register's write, whole. -/
theorem granted_write32 {m : Mod} {e : RegEnv} {ini : Initiator} {addr off : Nat} {v : W32} {sp : Space} {r : Reg}
    (h : Granted m (write32 ini addr v) sp off) (h4 : off % 4 = 0) (hr : regAt e sp off = some r)
    (hw : (regAt e sp (off / 8 * 8)).filter (fun r => r.wide) = none) :
    regAccess e (write32 ini addr v) m = r.put 0xFFFFFFFF (v.setWidth 64) m := by
  obtain ⟨ha, hs, hj⟩ := h
  have ha' : arrives m (write32 ini addr v).ini = true := ha
  unfold regAccess
  rw [ha']
  simp only [hs, hj]
  rw [dwords_word rfl rfl h4]
  simp only [perform, hw, hr, touch, reply]
  have hm : laneMask (write32 ini addr v) off off 4 = 0xFFFFFFFF#64 := mask_word rfl rfl
  have hwr : (write32 ini addr v).write = true := rfl
  simp [hm, data_word, hwr]

/-- A granted 64-bit write to a 64-bit register is the register's write, whole. -/
theorem granted_write64 {m : Mod} {e : RegEnv} {ini : Initiator} {addr off : Nat} {v : W64} {sp : Space} {r : Reg}
    (h : Granted m (write64 ini addr v) sp off) (h8 : off % 8 = 0) (hr : regAt e sp off = some r) (hw : r.wide = true) :
    regAccess e (write64 ini addr v) m = r.put 0xFFFFFFFFFFFFFFFF v m := by
  obtain ⟨ha, hs, hj⟩ := h
  have ha' : arrives m (write64 ini addr v).ini = true := ha
  have h1 : off / 8 * 8 = off := by omega
  have hf : (regAt e sp (off / 8 * 8)).filter (fun r => r.wide) = some r := by simp [h1, hr, hw]
  unfold regAccess
  rw [ha']
  simp only [hs, hj]
  rw [dwords_pair rfl rfl h8]
  have hm : laneMask (write64 ini addr v) off off 8 = 0xFFFFFFFFFFFFFFFF#64 := mask_pair rfl rfl
  have hwr : (write64 ini addr v).write = true := rfl
  unfold perform
  simp [hf, h8, touch, reply, hm, data_pair, hwr, perform]

/-- A granted 64-bit read of a 64-bit register reads it and hands its value back. -/
theorem granted_read64 {m : Mod} {e : RegEnv} {ini : Initiator} {addr off : Nat} {sp : Space} {r : Reg}
    (h : Granted m (read64 ini addr) sp off) (h8 : off % 8 = 0) (hr : regAt e sp off = some r) (hw : r.wide = true) :
    regAccess e (read64 ini addr) m = emit (r.read m).2 (.readData (natLe 8 (r.read m).1.toNat)) := by
  obtain ⟨ha, hs, hj⟩ := h
  have ha' : arrives m (read64 ini addr).ini = true := ha
  have h1 : off / 8 * 8 = off := by omega
  have hf : (regAt e sp (off / 8 * 8)).filter (fun r => r.wide) = some r := by simp [h1, hr, hw]
  unfold regAccess
  rw [ha']
  simp only [hs, hj]
  rw [dwords_pair rfl rfl h8]
  have hwr : (read64 ini addr).write = false := rfl
  unfold perform
  simp only [hf, h8, touch, reply, hwr, perform]
  have hl : (natLe 8 (r.read m).1.toNat).length = 8 := rfl
  have hb : readBytes (read64 ini addr) off [(off, natLe 8 (r.read m).1.toNat)] = natLe 8 (r.read m).1.toNat := by
    unfold readBytes
    apply List.ext_getElem
    · simp [read64, hl]
    · intro i h1 h2
      have : i < 8 := by simpa [hl] using h2
      simp [read64, byteOn, hl, this]
  simp [hb]

/-! ### The store of violations -/

/-- A granted access leaves the store of violations alone, but for a write to its own two registers. -/
theorem granted_acu {m : Mod} {a : Access} {sp : Space} {off : Nat} (h : Granted m a sp off)
    (hn : a.write = false ∨ sp ≠ .inner ∨ (dwords a off).all (fun d => d != 0x1E1020 && d != 0x1E1028) = true) :
    acuNext a m = m.acu := by
  obtain ⟨ha, hs, hj⟩ := h
  unfold acuNext
  rw [ha, hs]
  simp only [hj, Bool.not_true, Bool.false_eq_true, if_false]
  rcases hn with hn | hn | hn
  · simp [hn]
  · simp [hn]
  · have : ∀ (l : List Nat) (q : AcuState), l.all (fun d => d != 0x1E1020 && d != 0x1E1028) = true →
        l.foldl (fun q d =>
          if !(laneMask a off d 4 &&& laneData a off d 4).getLsbD 0 then q
          else if d = 0x1E1000 + 0x20 then { q with fifo := q.fifo.drop 1 }
          else if d = 0x1E1000 + 0x28 then { q with lost := 0 }
          else q) q = q := by
      intro l
      induction l with
      | nil => intro q _; rfl
      | cons d l ih =>
        intro q hq
        simp only [List.all_cons, Bool.and_eq_true, bne_iff_ne] at hq
        rw [List.foldl_cons, ih _ (by simpa using hq.2)]
        simp [hq.1.1, hq.1.2]
    split
    · exact this _ _ hn
    · rfl

/-! ### Registers of a block -/

theorem blkAddr_eq (b : Blk) (page off : Nat) : blkAddr b page off = 1048576 + b.idx * 65536 + page * 4096 + off := rfl

theorem idx_lt (b : Blk) : b.idx < 23 := by cases b <;> decide

theorem blkList_idx (b : Blk) : blkList[b.idx]? = some b := by cases b <;> rfl

/-- The register at a block's address is the block's. -/
theorem regAt_blk (e : RegEnv) (b : Blk) {page off : Nat} (hp : page < 16) (ho : off < 4096) :
    regAt e .inner (blkAddr b page off) = blkRegs e b page off := by
  have h1 := idx_lt b
  have h2 := blkAddr_eq b page off
  have h3 : (blkAddr b page off - 1048576) / 65536 = b.idx := by omega
  have h4 : blkAddr b page off / 4096 % 16 = page := by omega
  have h5 : blkAddr b page off % 4096 = off := by omega
  unfold regAt
  rw [if_neg (by omega), if_neg (by omega), if_neg (by omega), if_neg (by omega), h3, h4, h5, blkList_idx]
  rfl

/-- A granted 32-bit write to a block's register completes as the register's write. -/
theorem blk_write {t : Nat} {s : State} {row : Row} {e : RegEnv} {ini : Initiator} {b : Blk} {page off : Nat} {v : W32} {r : Reg}
    (h : WritesReg (s.now t) ini b page off) (hrow : row (s.now t) = some (e, write32 ini (blkAddr b page off) v))
    (hp : page < 16) (ho : off < 4096) (h4 : off % 4 = 0) (hr : blkRegs e b page off = some r)
    (hw : (blkRegs e b page (off / 8 * 8)).filter (fun r => r.wide) = none)
    (hn : b = .acu → page ≠ 1) :
    accesses t row s = left t s (r.put 0xFFFFFFFF (v.setWidth 64) (s.now t)) := by
  have h1 := idx_lt b
  have h2 := blkAddr_eq b page off
  have hg : Granted (s.now t) (write32 ini (blkAddr b page off) v) .inner (blkAddr b page off) := Granted.data v h
  refine accesses_eq hrow ?_ (granted_acu hg (Or.inr (Or.inr ?_)))
  · refine granted_write32 hg (by omega) ((regAt_blk e b hp ho).trans hr) ?_
    have : blkAddr b page off / 8 * 8 = blkAddr b page (off / 8 * 8) := by rw [blkAddr_eq, blkAddr_eq]; omega
    rw [this, regAt_blk e b hp (by omega)]
    exact hw
  · rw [dwords_word rfl rfl (by omega)]
    have : ¬ (b.idx = 14 ∧ page = 1) := by
      rintro ⟨hb, hpg⟩
      exact hn (by cases b <;> simp_all [Blk.idx]) hpg
    simp
    omega

/-! ### Registers of a tenant's window -/

/-- A place of a window that is reached: the row's access is made there. -/
theorem windowAccess_eq {m : Mod} {ini : Initiator} {ten off addr : Nat} {f : Nat → Access}
    (ha : windowAddr ini ten off = some addr) (hs : spaceOf m (f addr) = (.window ten, off)) :
    windowAccess ini ten off f m = some (envOf (f addr).ini 0 true true, f addr) := by
  simp [windowAccess, ha, hs, plainAccess]

theorem window_acu {m : Mod} {a : Access} {ten off : Nat} (h : Granted m a (.window ten) off) : acuNext a m = m.acu :=
  granted_acu h (Or.inr (Or.inl (by simp)))

/-- A granted 32-bit write to a register of a tenant's window completes as the register's write. -/
theorem window_write {t : Nat} {s : State} {ini : Initiator} {ten off : Nat} {v : W32} {r : Reg}
    (h : WritesWindow (s.now t) ini ten off) (h4 : off % 4 = 0)
    (hr : regAt (envOf ini 0 true true) (.window ten) off = some r)
    (hw : (regAt (envOf ini 0 true true) (.window ten) (off / 8 * 8)).filter (fun r => r.wide) = none) :
    accesses t (windowWrite ini ten off v) s = left t s (r.put 0xFFFFFFFF (v.setWidth 64) (s.now t)) := by
  obtain ⟨addr, ha, hg⟩ := h
  have hg : Granted (s.now t) (write32 ini addr v) (.window ten) off := Granted.data v hg
  exact accesses_eq (windowAccess_eq ha hg.2.1) (granted_write32 hg h4 hr hw) (window_acu hg)

/-- A granted 64-bit write to a 64-bit register of a tenant's window completes as the register's write. -/
theorem window_write64 {t : Nat} {s : State} {ini : Initiator} {ten off : Nat} {v : W64} {r : Reg}
    (h : ReachesWindow (s.now t) ini ten off (fun a => write64 ini a v)) (h8 : off % 8 = 0)
    (hr : regAt (envOf ini 0 true true) (.window ten) off = some r) (hw : r.wide = true) :
    accesses t (windowAccess ini ten off (fun a => write64 ini a v)) s =
      left t s (r.put 0xFFFFFFFFFFFFFFFF v (s.now t)) := by
  obtain ⟨addr, ha, hg⟩ := h
  exact accesses_eq (windowAccess_eq ha hg.2.1) (granted_write64 hg h8 hr hw) (window_acu hg)

/-- A granted 64-bit read of a 64-bit register of a tenant's window. -/
theorem window_read64 {t : Nat} {s : State} {ini : Initiator} {ten off : Nat} {r : Reg}
    (h : ReachesWindow (s.now t) ini ten off (fun a => read64 ini a)) (h8 : off % 8 = 0)
    (hr : regAt (envOf ini 0 true true) (.window ten) off = some r) (hw : r.wide = true) :
    accesses t (windowAccess ini ten off (fun a => read64 ini a)) s =
      left t s (emit (r.read (s.now t)).2 (.readData (natLe 8 (r.read (s.now t)).1.toNat))) := by
  obtain ⟨addr, ha, hg⟩ := h
  exact accesses_eq (windowAccess_eq ha hg.2.1) (granted_read64 hg h8 hr hw) (window_acu hg)

/-! ### Registers of the device header -/

/-- A granted 32-bit write through a port to one of its own registers completes as the register's write. -/
theorem dev_write {t : Nat} {s : State} {p : Port} {off : Nat} {v : W32} {r : Reg}
    (h : Granted (s.now t) (write32 (.pf p) off 0) .inner off) (h4 : off % 4 = 0) (ho : off < 0x1000)
    (hr : devRegs (envOf (.pf p) 0 true true) off = some r)
    (hw : (devRegs (envOf (.pf p) 0 true true) (off / 8 * 8)).filter (fun r => r.wide) = none) :
    accesses t (plainAccess (write32 (.pf p) off v)) s = left t s (r.put 0xFFFFFFFF (v.setWidth 64) (s.now t)) := by
  have hg : Granted (s.now t) (write32 (.pf p) off v) .inner off := Granted.data v h
  refine accesses_eq rfl (granted_write32 hg h4 ?_ ?_) (granted_acu hg (Or.inr (Or.inr ?_)))
  · unfold regAt
    rw [if_pos (by omega)]
    exact hr
  · unfold regAt
    rw [if_pos (by omega)]
    exact hw
  · rw [dwords_word rfl rfl h4]
    simp
    omega

/-- A granted 64-bit write to a 64-bit register of a block. -/
theorem blk_write64 {t : Nat} {s : State} {ini : Initiator} {b : Blk} {page off : Nat} {v : W64} {r : Reg}
    (h : Granted (s.now t) (write64 ini (blkAddr b page off) v) .inner (blkAddr b page off)) (hp : page < 16) (ho : off < 4096)
    (h8 : off % 8 = 0) (hr : blkRegs (envOf ini 0 true true) b page off = some r) (hw : r.wide = true)
    (hn : b = .acu → page ≠ 1) :
    accesses t (plainAccess (write64 ini (blkAddr b page off) v)) s =
      left t s (r.put 0xFFFFFFFFFFFFFFFF v (s.now t)) := by
  have h1 := idx_lt b
  have h2 := blkAddr_eq b page off
  refine accesses_eq rfl (granted_write64 h (by omega) ((regAt_blk _ b hp ho).trans hr) hw)
    (granted_acu h (Or.inr (Or.inr ?_)))
  rw [dwords_pair rfl rfl (by omega)]
  have : ¬ (b.idx = 14 ∧ page = 1) := by
    rintro ⟨hb, hpg⟩
    exact hn (by cases b <;> simp_all [Blk.idx]) hpg
  simp
  omega

/-- A granted 64-bit read of a 64-bit register of a block. -/
theorem blk_read64 {t : Nat} {s : State} {ini : Initiator} {b : Blk} {page off : Nat} {r : Reg}
    (h : Granted (s.now t) (read64 ini (blkAddr b page off)) .inner (blkAddr b page off)) (hp : page < 16) (ho : off < 4096)
    (h8 : off % 8 = 0) (hr : blkRegs (envOf ini 0 true true) b page off = some r) (hw : r.wide = true) :
    accesses t (plainAccess (read64 ini (blkAddr b page off))) s =
      left t s (emit (r.read (s.now t)).2 (.readData (natLe 8 (r.read (s.now t)).1.toNat))) := by
  have h2 := blkAddr_eq b page off
  exact accesses_eq rfl (granted_read64 h (by omega) ((regAt_blk _ b hp ho).trans hr) hw) (granted_acu h (Or.inl rfl))

end Sys2Proof.Machine
end

