-- ==== Sys2Proof/Laws/Links.lean ====
section
/-! SUPPORT. What accepting a frame of a Crosswind link leaves as it was, and what a frame brings. -/

namespace Sys2Proof.Machine

/-- A link changed is that link's change alone. -/
theorem linkOf_updLink (m : Mod) (l k : Nat) (f : Link → Link) :
    linkOf (updLink m l f) k = if k = l then f (linkOf m l) else linkOf m k := by
  unfold linkOf updLink
  split
  · rename_i h; subst h; simp
  · rename_i h; exact tblGet_tblUpd_other _ _ f h

/-- A frame accepted opens or closes no link. -/
@[simp] theorem linkPasses_noteFrame (m : Mod) (f : LinkFrame) (l : Nat) :
    linkPasses (noteFrame m f) l = linkPasses m l := by
  have hp : (noteFrame m f).powered = m.powered := rfl
  unfold linkPasses
  rw [hp, noteFrame, linkOf_updLink]
  split
  · rename_i h; subst h; rfl
  · rfl

/-- A frame accepted acts on the block with its counter kept (14 R363). -/
theorem onLink_taken {m : Mod} {f : LinkFrame} (g : Nat → Mod → Mod) (hp : linkPasses m f.link = true)
    (hf : frameTaken m f = true) : onLink f g m = g f.link (noteFrame m f) := by
  unfold onLink; rw [hp, hf]; rfl

/-- A frame not accepted is counted, and LINK_TAG_FAIL is set (14 R363, R385). -/
theorem onLink_dropped {m : Mod} {f : LinkFrame} (g : Nat → Mod → Mod) (hp : linkPasses m f.link = true)
    (hf : frameTaken m f = false) :
    onLink f g m = raiseInt (updLink m f.link (fun x => { x with tagFail := x.tagFail + 1 })) .tlk 0x20 := by
  unfold onLink; rw [hp, hf]; rfl

end Sys2Proof.Machine
end

