-- ==== Sys2Proof/Laws/Programs.lean ====
section
/-! SUPPORT. What an opcode comes to: its program runs at its start, and each thing a program can come to. -/

namespace Sys2Proof.Machine

/-- At its start an opcode is its program, run on the command at the tag. -/
theorem runOpcode_starts {op tag : Nat} {prog : Prog} {m m1 : Mod} {c : Cmd} (h : starts op tag m = some (m1, c)) :
    runOpcode op prog tag m = runProg prog (64 + m1.dur.kst.length) m1 tag ∧ cmdOf m1 tag = some c := by
  unfold starts at h
  simp only [Option.bind_eq_some_iff] at h
  obtain ⟨c0, h0, h⟩ := h
  split at h
  · cases h
  · rename_i hop
    simp only [Option.bind_eq_some_iff] at h
    obtain ⟨m0, hctx, c1, hc, h⟩ := h
    split at h
    · cases h
    · rename_i hs
      simp only [Option.some.injEq, Prod.mk.injEq] at h
      obtain ⟨rfl, rfl⟩ := h
      simp only [Bool.or_eq_true, Bool.not_eq_true', not_or, Bool.not_eq_false, Bool.and_eq_true, decide_eq_true_eq,
        not_and] at hs
      obtain ⟨⟨hsv, hl⟩, hr⟩ := hs
      have hr' : ¬(c1.runs ≤ 1 ∧ resultShort c1 = true) := fun x => hr x.1 x.2
      have key : dispatch prog m0 tag = runProg prog (64 + m0.dur.kst.length) m0 tag := by
        simp only [dispatch, hsv, if_true, runCmd, hc, hl, Bool.false_eq_true, if_false, hr']
      refine ⟨?_, hc⟩
      unfold runOpcode
      unfold contextFor at hctx
      simp only [h0, hop, if_false]
      cases hp : c0.phase <;> simp only [hp] at hctx ⊢
      case ready l at' =>
        simp only [hctx]
        exact key
      case running =>
        cases hctx
        exact key
      all_goals cases hctx

/-- The command at the tag when a program starts. -/
theorem starts_cmd {op tag : Nat} {m m1 : Mod} {c : Cmd} (h : starts op tag m = some (m1, c)) : cmdOf m1 tag = some c :=
  (runOpcode_starts (prog := fun _ _ _ => .error (.stop 0)) h).2

/-- One run of a program: what it does with what it comes to. -/
def Act.apply (m : Mod) (tag : Nat) (c : Cmd) (again : Mod → Mod) : Act → Mod
  | .stop st => endCmd m tag st []
  | .finish m1 st res => endCmd m1 tag st res
  | .journal m1 effs st res own => issueFor (releaseKeys m1 tag) tag effs st res own (takesEntry c)
  | .hold m1 => m1
  | .stage m1 mem => again (updCmd (releaseKeys m1 tag) tag (fun c => { c with stage := c.stage + 1, mem := mem }))
  | .reach h => again (updCmd m tag (fun c => { c with reached := some h }))
  | .need hs =>
    match askKeys m tag hs with
    | (m1, .refused st) => endCmd m1 tag st []
    | (m1, .waiting) => updCmd m1 tag (fun c => { c with phase := .keys })
    | (m1, .have) => again m1

theorem runProg_step {prog : Prog} {f tag : Nat} {m : Mod} {c : Cmd} (h : cmdOf m tag = some c) :
    runProg prog (f + 1) m tag = (actOf (prog m tag c)).apply m tag c (fun x => runProg prog f x tag) := by
  rw [runProg]
  simp only [h, actOf]
  cases prog m tag c <;> (rename_i a; cases a <;> rfl)

/-- A program that has come to a block acts there. -/
theorem comes_run {prog : Prog} {tag n : Nat} {m m1 : Mod} {c : Cmd} (h : Comes prog tag n m m1 c) (f : Nat) :
    runProg prog (n + f) m tag = runProg prog f m1 tag ∧ cmdOf m1 tag = some c := by
  induction h with
  | here hc => exact ⟨by simp, hc⟩
  | @keys k m m1 m2 c c2 hs hc ha hk _ ih =>
    refine ⟨?_, ih.2⟩
    have : k + 1 + f = (k + f) + 1 := by omega
    rw [this, runProg_step hc, ha]
    simp only [Act.apply, hk]
    exact ih.1
  | @stage k m m1 m2 c c2 mem hc ha _ ih =>
    refine ⟨?_, ih.2⟩
    have : k + 1 + f = (k + f) + 1 := by omega
    rw [this, runProg_step hc, ha]
    simp only [Act.apply]
    exact ih.1
  | @reach k m m2 c c2 h hc ha _ ih =>
    refine ⟨?_, ih.2⟩
    have : k + 1 + f = (k + f) + 1 := by omega
    rw [this, runProg_step hc, ha]
    simp only [Act.apply]
    exact ih.1

/-- An opcode whose program runs on a block does what the program comes to there; `again` is not needed once it neither
asks for keys nor goes to a further stage. -/
theorem opcode_eq {op t tag : Nat} {prog : Prog} {s : State} {m m1 : Mod} {c : Cmd} (hop : programOf op = some prog)
    (h : Starts op t tag s m c) (hm : ∀ again, (actOf (prog m tag c)).apply m tag c again = m1) :
    acts t (runOpcode op prog tag) s = left t s m1 := by
  obtain ⟨p, m0, c0, n, hp, h0, hn, hc⟩ := h
  rw [hop] at hp
  obtain rfl := Option.some.inj hp
  apply acts_eq
  rw [(runOpcode_starts h0).1]
  have : 64 + m0.dur.kst.length = n + ((63 - n + m0.dur.kst.length) + 1) := by omega
  rw [this]
  obtain ⟨hr, hcm⟩ := comes_run hc ((63 - n + m0.dur.kst.length) + 1)
  rw [hr, runProg_step hcm]
  exact hm _

/-- A program that ends. -/
theorem opcode_ends {op t tag : Nat} {prog : Prog} {s : State} {m m1 : Mod} {c : Cmd} {st : W16} {res : Bytes}
    (hop : programOf op = some prog) (h : Starts op t tag s m c)
    (hp : prog m tag c = .ok (.finish m1 st res) ∨ prog m tag c = .error (.finish m1 st res)) :
    acts t (runOpcode op prog tag) s =
      left t s (endCmd m1 tag st res) := by
  refine opcode_eq hop h (fun again => ?_)
  rcases hp with hp | hp <;> rw [hp] <;> rfl

/-- A program that ends with a status, the block as it was. -/
theorem opcode_stops {op t tag : Nat} {prog : Prog} {s : State} {m : Mod} {c : Cmd} {st : W16}
    (hop : programOf op = some prog) (h : Starts op t tag s m c)
    (hp : prog m tag c = .ok (.stop st) ∨ prog m tag c = .error (.stop st)) :
    acts t (runOpcode op prog tag) s = left t s (endCmd m tag st []) := by
  refine opcode_eq hop h (fun again => ?_)
  rcases hp with hp | hp <;> rw [hp] <;> rfl

/-- A program that issues its record. -/
theorem opcode_journals {op t tag : Nat} {prog : Prog} {s : State} {m m1 : Mod} {c : Cmd} {effs : List Effect} {st : W16}
    {res : Bytes} {own : Bool} (hop : programOf op = some prog) (h : Starts op t tag s m c)
    (hp : prog m tag c = .ok (.journal m1 effs st res own) ∨ prog m tag c = .error (.journal m1 effs st res own)) :
    acts t (runOpcode op prog tag) s =
      left t s (issueFor (releaseKeys m1 tag) tag effs st res own (takesEntry c)) := by
  refine opcode_eq hop h (fun again => ?_)
  rcases hp with hp | hp <;> rw [hp] <;> rfl

/-- A program that places its command in a wait. -/
theorem opcode_holds {op t tag : Nat} {prog : Prog} {s : State} {m m1 : Mod} {c : Cmd} (hop : programOf op = some prog) (h : Starts op t tag s m c)
    (hp : prog m tag c = .ok (.hold m1) ∨ prog m tag c = .error (.hold m1)) :
    acts t (runOpcode op prog tag) s =
      left t s m1 := by
  refine opcode_eq hop h (fun again => ?_)
  rcases hp with hp | hp <;> rw [hp] <;> rfl

/-- A program whose failed attempt is counted. -/
theorem opcode_counts {op t tag : Nat} {prog : Prog} {s : State} {m m1 : Mod} {c : Cmd} {i : Instr} {h : W64} {b : Budget}
    {st : W16} (hop : programOf op = some prog) (hs : Starts op t tag s m c)
    (hi : exec i s = acts t (runOpcode op prog tag) s) (hp : prog m tag c = .error (countedStop m1 tag h b st)) :
    Counts i t s tag m1 h b st := by
  by_cases hq : (m1.tlk.paired && m1.tlk.sync) = true
  · simp only [countedStop, hq, if_true] at hp
    simp only [Counts, hq, if_true, Leaves, hi]
    exact opcode_holds hop hs (Or.inr hp)
  · simp only [countedStop, hq] at hp
    simp only [Counts, hq, Ends, Leaves, hi]
    exact opcode_ends hop hs (Or.inr hp)

/-! ### Checks in programs -/

@[simp] theorem checkedPin_some {α : Type} (m : Mod) (tag : Nat) (h : W64) (b : Budget) (p : α) :
    checkedPin m tag h b (some p) = .ok p := rfl
@[simp] theorem checkedPin_none {α : Type} (m : Mod) (tag : Nat) (h : W64) (b : Budget) :
    checkedPin m tag h b (none : Option α) = .error (countedStop m tag h b stVerifyFail) := rfl
theorem matchedPin_of (m : Mod) (tag : Nat) (h : W64) (b : Budget) {ok : Bool} (e : ok = true) :
    matchedPin m tag h b ok = .ok (returned m h b) := by rw [e]; rfl
theorem matchedPin_not (m : Mod) (tag : Nat) (h : W64) (b : Budget) {ok : Bool} (e : ok = false) :
    matchedPin m tag h b ok = .error (countedStop m tag h b stPinMismatch) := by rw [e]; rfl

@[simp] theorem ensure_true (st : W16) : ensure true st = .ok () := rfl
@[simp] theorem ensure_of {b : Bool} (st : W16) (h : b = true) : ensure b st = .ok () := by rw [h]; rfl
@[simp] theorem ensure_not {b : Bool} (st : W16) (h : b = false) : ensure b st = .error (.stop st) := by rw [h]; rfl
@[simp] theorem ensure_false (st : W16) : ensure false st = .error (.stop st) := rfl
@[simp] theorem orStop_some {α : Type} (a : α) (st : W16) : orStop (some a) st = .ok a := rfl
@[simp] theorem orStop_none {α : Type} (st : W16) : orStop (none : Option α) st = .error (.stop st) := rfl
@[simp] theorem range_eq (b : Bool) : range b = ensure b stBadFormat := rfl
@[simp] theorem ok_bind {ε α β : Type} (a : α) (f : α → Except ε β) : (Except.ok a >>= f) = f a := rfl
@[simp] theorem error_bind {ε α β : Type} (e : ε) (f : α → Except ε β) : (Except.error e >>= f) = .error e := rfl
@[simp] theorem pure_ok {ε α : Type} (a : α) : (pure a : Except ε α) = .ok a := rfl

end Sys2Proof.Machine
end

