-- ==== Sys2Proof/WellFormed.lean ====
section
/-! DEFINITION. Well-formed commands: every operand in the range the spec gives it. The meanings are total on the others
too; the ranges serve statements and tests. -/

namespace Sys2Proof

open Sys2Proof.Machine

/-- A number below a bound. -/
def below (n x : Nat) : Bool := decide (x < n)

/-- A tag of the pool (01 Table 1.5) and a tenant (12 R319). -/
def tagOk (tag : Nat) : Bool := below 16384 tag
def tenOk (ten : Nat) : Bool := below 4096 ten

/-- An initiator: a VF that exists, a tenant that exists (02 R50, Table 2.12). -/
def iniOk : Initiator → Bool
  | .vf _ n => decide (1 ≤ n ∧ n ≤ 4096)
  | .net t => tenOk t
  | .txp t => t.all tenOk
  | .dma t => t.all tenOk
  | _ => true

/-- A queue: one of the four pairs of a tenant, or an admin queue (03 R70). -/
def queueOk : QId → Bool
  | .qp ten q => tenOk ten && below 4 q
  | .admin _ => true

/-- What a read was for. -/
def sourceOk : ReadSrc → Bool
  | .entry q => queueOk q
  | .capsule _ => true
  | .blob slot => below 1024 slot
  | .job tag _ => tagOk tag

/-- Whether an initiator reaches the module as PCIe requests. -/
def pcieIni : Initiator → Bool
  | .pf _ => true
  | .vf _ _ => true
  | .bar2 _ => true
  | _ => false

/-- An access: bytes to read or write, as many data bytes as it writes, byte enables for all of them or none. A PCIe
request covers 1 to 16 doublewords of one 4 KiB page (02 R33). -/
def accessOk (a : Access) : Bool :=
  iniOk a.ini && decide (1 ≤ a.len ∧ a.len ≤ 4096) && (a.data.length == if a.write then a.len else 0) &&
    (a.be.isEmpty || a.be.length == a.len) &&
    (!pcieIni a.ini || (a.addr % 4 == 0 && a.len % 4 == 0 && decide (a.len ≤ 64) && decide (a.addr % 4096 + a.len ≤ 4096))) &&
    (!a.vfTable || (match a.ini with | .vf _ _ => decide (a.addr < 4096) | _ => false))

/-- A network frame: a port, a VLAN, addresses of their family (03 R86). -/
def frameOk (f : NetFrame) : Bool :=
  let n := if f.v6 then 16 else 4
  below 8 f.port && below 4096 f.vlan && f.srcMac.length == 6 && f.src.length == n && f.dst.length == n &&
    below 65536 f.srcPort && below 65536 f.dstPort

/-- A custodian port's frame (11 R315). -/
def custOk (f : CustFrame) : Bool := below 8 f.port && below 256 f.seq

/-- A PTP message (13 R347). -/
def ptpOk (m : PtpMsg) : Bool := below 8 m.port && below 4096 m.vlan && below 256 m.domain && below (10 ^ 9) m.nanos

/-- A tested unit (17 Table 17.5). -/
def unitOk : KatUnit → Bool
  | .scePipe n | .ghash n | .numeral n => below 10 n
  | .dgePipe n => below 8 n
  | .pkeEngine n => below 64 n
  | .core n => below 64 n
  | .block _ => true

/-- The entries of scatter-gather lists have 16 bytes each (08 Table 8.5). -/
def jobOk : JobIo → Bool
  | .data ins outs aads _ _ _ => [ins, outs, aads].all (fun b => b.length % 16 == 0)
  | _ => true

/-- A well-formed command. -/
def Instr.wf : Instr → Bool
  | .sqEntryFetch _ q entry => queueOk q && below 129 entry.length
  | .sqEntryReadFail _ q _ => queueOk q
  | .pointerCapsuleRead _ _ _ | .pcieAtomicIoRequest _ _ _ | .perstAssert _ _ | .perstRelease _ _
  | .admqSqTailDoorbell _ _ _ | .admqCqHeadDoorbell _ _ _ | .admqSqSizeWrite _ _ _ | .admqCqSizeWrite _ _ _
  | .keyScheduleTimer _ | .budgetRolloverTimer _ | .budgetSnapshot _ | .rehashDone _ | .compactionDone _
  | .approvalVerifyDone _ _ _ | .ceremonyWindowEnd _ _ | .maintWindowEnd _ | .ppsEdge _ _ | .timeSourceLost _ _
  | .holdoverExpired _ | .sourceRejectEnd _ _ | .journalAckTimeout _ _ | .heartbeatSend _ | .promotionAdmission _
  | .resyncComplete _ _ | .handoverStart _ | .handoverCutoff _ | .revertHoldMet _ | .startHandshakeTimeout _
  | .journalBufferSpace _ | .ssvPowerStateChange _ _ | .ssvColdStart _ | .ssvRecordCopy _ | .lcTransitionReset _
  | .tapInstruction _ _ | .sramScrub _ _ _ _ | .hltEpochEnd _ | .healthReportPublish _ | .suppliesValid _
  | .moduleStart _ _ | .holdupCharged _ _ | .modResetAssert _ | .modResetRelease _ | .flushComplete _ _ _ _
  | .holdupLow _ _ | .thermalTrip _ | .storeReclaim _ _ | .tableCheckpoint _ | .portLinkLoss _ _
  | .reqidEntryExpiry _ _ _ | .serveOkProgressTimeout _ | .evrLogWriteDone _ _ =>
    true
  | .hostReadTimeout _ src => sourceOk src
  | .fifoCommandTake _ ten | .ageEvictVisit _ ten | .rtbOldSetFree _ ten | .rerootArmingLapse _ ten
  | .tenantDrainDone _ ten | .migrationOfferExpiry _ ten =>
    tenOk ten
  | .nctDataRx _ f | .nctAckRx _ f | .arpRequestRx _ f | .neighborSolicitationRx _ f | .icmpEchoRequestRx _ f =>
    frameOk f
  | .nctAckDelayExpiry _ ten sid | .nctCoalesceExpiry _ ten sid | .sessionHalfOpenTimeout _ ten sid
  | .sessionMarkSend _ ten sid | .sessionMarkAck _ ten sid _ =>
    tenOk ten && below 65536 sid
  | .nctRetransmit _ ten sid dsn => tenOk ten && below 65536 sid && below (2 ^ 32) dsn
  | .pcieConfigRequest _ f _ reg _ => below 257 f.fn && below 4096 reg
  | .portLinkUp _ _ width gen => below 17 width && below 6 gen
  | .registerWrite _ a => accessOk a
  | .blkQuiesce _ ini _ _ | .blkEnable _ ini _ _ | .selftestReq _ ini _ | .intStatClear _ ini _ _ | .intTest _ ini _ _
  | .acuVioNext _ ini | .schAgeWrite _ ini _ | .rehashStart _ ini | .bsxWinWrite _ ini _ _ | .vfBindWrite _ ini _ _
  | .cmqTcfgWrite _ ini _ | .ssvRecClear _ ini _ | .lcTransition _ ini _ _ | .dbgChallenge _ ini
  | .debugResponse _ ini _ | .dbgClose _ ini | .evrFlush _ ini | .evrCapply _ ini | .evrCtlEnWrite _ ini _
  | .pmcSnap _ ini | .pmcFreeze _ ini _ | .rngRawRead _ ini | .twinDivLogRead _ ini =>
    iniOk ini
  | .qpSqTailDoorbell _ ini ten q _ | .qpCqHeadDoorbell _ ini ten q _ | .qpEnable _ ini ten q _
  | .qpDisable _ ini ten q _ | .qpSqBaseWrite _ ini ten q _ _ =>
    iniOk ini && tenOk ten && below 4 q
  | .cmdPush _ ini ten _ | .cplPop _ ini ten | .cplFlush _ ini ten | .cmdDrop _ ini ten => iniOk ini && tenOk ten
  | .getwork _ core ctx => below 64 core && below 4 ctx
  | .tagAgePromote _ tag | .yieldTag _ tag | .cycleBudgetExhausted _ tag | .keyGenerate _ tag | .keyImportBlock _ tag
  | .keyExportBlock _ tag | .keyImportPublic _ tag | .keyDerive _ tag | .keyRotate _ tag | .keyRetire _ tag
  | .keyDestroy _ tag | .keyInfo _ tag | .wrapAdvance _ tag | .pinTranslate _ tag | .pinTranslateRouted _ tag
  | .pinVerifyOffset _ tag | .pinVerifyReference _ tag | .pinChange _ tag | .pinOffsetGenerate _ tag
  | .pinBudgetSet _ tag | .pinBudgetGet _ tag | .dukptPinTranslate _ tag | .dukptPinTranslateRouted _ tag
  | .dukptMacVerify _ tag | .dukptIkExport _ tag | .macGenerate _ tag | .macVerify _ tag | .macVerifyRouted _ tag
  | .emvArqcVerify _ tag | .emvScriptMac _ tag | .emvScriptEncrypt _ tag | .cscGenerate _ tag | .cscVerify _ tag
  | .tokenise _ tag | .detokenise _ tag | .aeadEncrypt _ tag | .aeadDecrypt _ tag | .cipherEncrypt _ tag
  | .cipherDecrypt _ tag | .streamOpen _ tag | .streamUpdate _ tag | .streamFinal _ tag | .streamAbort _ tag
  | .randomGet _ tag | .digest _ tag | .hmacGenerate _ tag | .hmacVerify _ tag | .jobSlotGrant _ tag
  | .jobSlotTimeout _ tag | .pkSign _ tag | .pkVerify _ tag | .pkEncrypt _ tag | .pkDecrypt _ tag
  | .pkKeygen _ tag | .pkAgree _ tag | .pkAgreeCheck _ tag | .pkCancel _ tag | .pkDispatchDeadline _ tag
  | .pkLatestStartExpiry _ tag | .rtRecordSet _ tag | .rtRouteUpdate _ tag | .rtCommit _ tag | .rtAbort _ tag
  | .rtLookup _ tag | .rtStatus _ tag | .rtCompact _ tag | .quorumOpen _ tag | .quorumApprove _ tag
  | .quorumStatus _ tag | .quorumClose _ tag | .custEnrol _ tag | .custRemove _ tag | .policySet _ tag | .custList _ tag
  | .ceremonyOpen _ tag | .ceremonyComponent _ tag | .ceremonyClose _ tag | .maintOpen _ tag | .maintClose _ tag
  | .sessionHello _ tag | .sessionClose _ tag | .sessionStatus _ tag | .credEnrol _ tag | .credRemove _ tag
  | .tenantPolicySet _ tag | .tenantInfo _ tag | .tenantCreate _ tag | .tenantClose _ tag | .tenantReroot _ tag
  | .tenantFreeze _ tag | .tenantResume _ tag | .migratePrepare _ tag | .migrateSave _ tag | .migrateRestore _ tag
  | .timeConfigSet _ tag | .timeAccept _ tag | .twinPair _ tag | .twinPairTimeout _ tag | .twinUnpair _ tag
  | .twinStatus _ tag | .twinPromote _ tag | .twinHandover _ tag | .twinRevertSet _ tag | .twinRestart _ tag
  | .ssvReadmit _ tag | .ssvRestart _ tag | .ssvRelease _ tag | .calWrite _ tag | .calRead _ tag | .imgAccept _ tag
  | .evrRead _ tag | .evrClear _ tag =>
    tagOk tag
  | .blobReadComplete _ slot _ | .blobReadRetry _ slot | .blobFetchDeadline _ slot => below 1024 slot
  | .lineRemask _ line | .lineEccError _ line => below 393216 line
  | .streamIdleExpiry _ ten c => tenOk ten && below 8 c
  | .jobEnd _ tag io => tagOk tag && jobOk io
  | .jobTimeout _ j => tagOk j.tag && jobOk j.io
  | .pkeEngineGrant _ e => below 64 e.eng
  | .pkeOperationComplete _ eng _ | .pkeZeroingDone _ eng | .pkeEngineTest _ eng _ =>
    below 64 eng
  | .challengeWindowEnd _ dom _ => below 4097 dom
  | .custApprovalFrame _ f | .custComponentFrame _ f | .custHandshakeFrame _ f | .custListFrame _ f | .custAckFrame _ f =>
    custOk f
  | .custFrameRetransmit _ port seq => below 8 port && below 256 seq
  | .ptpSyncRx _ m | .ptpAnnounceRx _ m | .pdelayReqRx _ m | .delayRespRx _ m => ptpOk m
  | .todMessageRx _ msg => below 17 msg.length
  | .journalRecordRx _ f _ | .journalAckRx _ f _ | .commitNoticeRx _ f _ | .desyncNoticeRx _ f
  | .handoverRecordRx _ f _ _ => below 2 f.link
  | .linkHandshake _ l h => below 2 l && below 9 h.lanes && h.nonce.length == 32 && h.eph.length == 96
  | .linkRekey _ l => below 2 l
  | .imageStageRx _ f img _ => below 2 f.link && below 4194305 img.length
  | .heartbeatRx _ f _ => below 3 f.link
  | .pathSilent _ path => below 3 path
  | .sensorTrigger _ src _ detail => below 128 src && below 6 detail
  | .cellEvent _ cell _ => below 2 cell
  | .detectorSelftest _ src _ => below 128 src
  | .ssvLatchClear _ ini word _ _ => iniOk ini && below 4 word
  | .evrEpochEnd _ ch => below 64 ch
  | .pmcCounterWrite _ ini c _ => iniOk ini && below 256 c
  | .katRun _ u _ => unitOk u
  | .rngHealthTestFail _ r => below 2 r.src
  | .drbgReseed _ d => below 2 d
  | .maskSeedRenew _ pipe => below 10 pipe
  | .i3cAddressAssign _ addr => below 128 addr
  | .powerFailTrigger _ src => below 4 src && src != 0
  | .netPortLinkChange _ n _ _ => below 8 n
  | .custPortLinkChange _ port _ => below 8 port
  | .healthReportRx _ f rep => below 2 f.link && rep.length == 256
  | .delayReqSend _ e => below 2 e

end Sys2Proof
end

