-- ==== Sys2Proof/Tests/Slice0.lean ====
section
/-! SUPPORT. The model's own tests: the examples of the spec, ill-formed commands, and for every statement with
hypotheses one theorem, named after it, that shows each of its clauses where all its hypotheses hold together. No
state can be written out for a clause that needs an opaque function to answer in one way (a certificate, a signature by a
key it carries, an image, an agreement on a key drawn at random). -/

namespace Sys2Proof.Tests


open Sys2Proof.Machine

set_option Elab.async false

/-! ### Benches -/

/-- The value of a program that goes on. -/
def valOf {ε α : Type} : (x : Except ε α) → x.isOk = true → α
  | .ok a, _ => a

theorem eq_val {ε α : Type} : {x : Except ε α} → (h : x.isOk = true) → x = .ok (valOf x h)
  | .ok _, _ => rfl

theorem eq_unit {ε : Type} : {x : Except ε Unit} → x.isOk = true → x = .ok ()
  | .ok _, _ => rfl

theorem eq_ok {ε α : Type} : {x : Except ε α} → {v : α} → x.toOption = some v → x = .ok v
  | .ok _, _, h => congrArg Except.ok (Option.some.inj h)

theorem eq_error {ε α : Type} [DecidableEq ε] {v : ε} :
    {x : Except ε α} → (match x with | .error e => decide (e = v) | .ok _ => false) = true → x = .error v
  | .error _, h => congrArg Except.error (of_decide_eq_true h)

theorem eq_none {α : Type} : {x : Option α} → x.isNone = true → x = none
  | none, _ => rfl

theorem all_none {α : Type} {P : α → Prop} : {x : Option α} → x.isNone = true → ∀ a, x = some a → P a
  | none, _, _, h => nomatch h

theorem eq_get {α : Type} : {x : Option α} → (h : x.isSome = true) → x = some (x.get h)
  | some _, _ => rfl

theorem eq_get2 {α β : Type} : {x : Option (α × β)} → (h : x.isSome = true) → x = some ((x.get h).1, (x.get h).2)
  | some _, _ => rfl

theorem eq_val2 {ε α β : Type} {x : Except ε (α × β)} (h : x.isOk = true) :
    x = .ok ((valOf x h).1, (valOf x h).2) := eq_val h

theorem eq_ok2 {ε α β : Type} {x : Except ε (α × β)} {v : β} (h : x.isOk = true) (hv : (valOf x h).2 = v) :
    x = .ok ((valOf x h).1, v) := hv ▸ eq_val h

theorem eq_val3 {ε α β γ : Type} {x : Except ε (α × β × γ)} (h : x.isOk = true) :
    x = .ok ((valOf x h).1, (valOf x h).2.1, (valOf x h).2.2) := eq_val h

theorem eq_val5 {ε α β γ δ ζ : Type} {x : Except ε (α × β × γ × δ × ζ)} (h : x.isOk = true) :
    x = .ok ((valOf x h).1, (valOf x h).2.1, (valOf x h).2.2.1, (valOf x h).2.2.2.1, (valOf x h).2.2.2.2) := eq_val h

/-- A key of tenant 5 in a VALID line held for tag 1; its handle is `key i`. -/
def lineOf (i : Nat) (attr field : Bytes) : Line :=
  { state := .valid, use := .stored, tenant := 5, kind := 1, index := i, attr := attr, shareA := field
    shareB := zeroBytes 64, stamp := 0, pins := [1], deliveries := 0, remasked := 0, remasks := 0, slot := none
    zero := false }

/-- The handle of index `i` of tenant 5, its check code left out. -/
def key (i : Nat) : W64 := bareHandle 5 1 i

/-- Tenant 5, ACTIVE with a root. -/
def tenant5 : Tenant := { Tenant.none with state := .active, openCaps := true, epoch := 1, trk := some (zeroBytes 32) }

/-- The unit in service with one pipeline of each cipher, its ports up, tenant 5 on it with one window, its time trusted. -/
def unit : Mod :=
  { Mod.reset with
    powered := true, devReady := true
    port := [(0, { PortState.reset with linkUp := true }), (1, { PortState.reset with linkUp := true })]
    bsx := { BsxState.reset with win := [(40, { Window.reset with size := 1, valid := true })] }
    sce := { SceState.reset with pipes := 0x101 }
    tim := { TimState.reset with trust := [(0, true)] }
    jnl := { JnlState.reset with boot := 1, started := true, fit := true }
    dur := { Durable.reset with ten := [(5, tenant5)] } }

/-- A block with keys of tenant 5 held for tag 1, at indices from 0 on: attributes and field of each. -/
def withKeys (m : Mod) (ks : List (Bytes × Bytes)) : Mod :=
  let n := List.range ks.length
  { m with kch := { m.kch with
    lines := n.zip ((n.zip ks).map (fun p => lineOf p.1 p.2.1 p.2.2))
    stash := n.map (fun i => { tenant := 5, kind := 1, index := i, line := i }) } }

/-- A command of tenant 5 with a body, whose program runs. -/
def cmd (op : Nat) (body : Bytes) : Cmd :=
  { tenant := 5, admin := false, path := .fifo, sqHead := 0, resAddr := 0, resSize := 65535, opcode := op, session := 0,
    seq := 0, reqId := 0, prio := 0, wasSealed := false, sealKey := none, digest := [], body := body, stamp := 4, since := 0,
    entered := 0, level := 0, phase := .running, core := 0, ctx := 0, runs := 1, pins := [], slots := [], stage := 0,
    mem := [], outcome := none, dup := false, readAt := 0, reached := none, scratch := [], pipes := [], arpc := false }

/-- A block with a command at tag 1. -/
def hasCmd (m : Mod) (c : Cmd) : Mod := { m with cmq := { m.cmq with cmds := (1, c) :: m.cmq.cmds } }

/-- The unit with another command of tenant 5 at tag 2. -/
def busy (m : Mod) : Mod := { m with cmq := { m.cmq with cmds := [(2, cmd 0x0109 [])] } }

/-- The state in which a command's program is to run. -/
def bench (m : Mod) (c : Cmd) : State := { mod := hasCmd m c, pending := [] }

/-- A state in which no command waits. -/
def plain (m : Mod) : State := { mod := m, pending := [] }

/-- A body of `n` bytes, zero but for the fields given at their offsets. -/
def put (n : Nat) (fs : List (Nat × Bytes)) : Bytes :=
  fs.foldl (fun b p => b.take p.1 ++ p.2 ++ b.drop (p.1 + p.2.length)) (zeroBytes n)

/-- Attributes of an exportable key that is always active. -/
def attr (alg : Char) (len : Nat) (usage : String) (mode : Char) (param : Nat) : Bytes :=
  mkAttr (chr alg) 0 len (ascii usage) (chr mode) (chr 'S') (ascii "00") param 0 t64Never

/-- A block in whose domain two of three custodians have approved a command for a class. -/
def approved (m : Mod) (dom k : Nat) (c : Cmd) : Mod :=
  { m with dur := { m.dur with
    dom := m.dur.dom ++ [(dom, {
      cust := [(0, { key := [], stamp := 0 }), (1, { key := [], stamp := 0 }), (2, { key := [], stamp := 0 })], m := [(k, 2)]
      chal := [(1, { cls := k, opDigest := cmdDigest c, bytes := [], opened := 0, ends := 8, approvals := [(0, 4), (1, 4)],
                     state := 0, localOnly := false })] })] } }

/-- A block in whose tables the key of index 0 has that of index 1 as its successor. -/
def followed (m : Mod) : Mod :=
  { m with dur := { m.dur with kst := [((key 0).toNat, { KstEntry.none with successor := some (key 1) })] } }

/-- The handle of tenant 5's small private key of index 0, its check code left out. -/
def smallKey : W64 := bareHandle 5 2 0

/-- Its blob, of a P-256 signing key whose field is 0, sealed under the first key of a root of zeros. -/
def smallBlob : Bytes :=
  natBe 32 0x01020500010000000000000000000000937ceb122ffcfed71d931104ca4c2188 ++
  natBe 32 0x7eda1af731c0a9999d35a16472dc5e7a199ae48bddbd59ca0ae63f2f1258482e ++
  natBe 32 0xa7f8f1ce135b6aa34cbf831c0f0f6430b6eabb2b8a4f81c065a54ff3a7399f0e ++
  natBe 32 0x6a3efaaf8f79afa28ea797ed6dd2d8b1119883de99751c76888cf93dca347481

/-- The unit with that blob read into a fetch slot. -/
def fetched : Mod :=
  { unit with bsx := { unit.bsx with slots := [(0, {
    handle := smallKey, line := none, first := 0, issued := 0, pk := true, waiters := [1], retryAt := none
    blob := some smallBlob })] } }

/-- A block with a budget of three attempts a minute under the key of index 1. -/
def budgeted (m : Mod) : Mod :=
  { m with dur := { m.dur with
    bud := [((key 1).toNat, { limit := 3, window := 60, current := 0, count := 0, spent := none })] } }

/-- A challenge of class KEY_CREATE that is open. -/
def challenge : Challenge :=
  { cls := 1, opDigest := zeroBytes 48, bytes := zeroBytes 32, opened := 0, ends := 8, approvals := [], state := 0,
    localOnly := false }

/-- The unit with that challenge in tenant 5's domain, which has one custodian. -/
def challenged : Mod :=
  { unit with dur := { unit.dur with
    dom := [(5, { cust := [(0, { key := [], stamp := 0 })], m := [], chal := [(1, challenge)] })] } }

/-- A P-384 key as a body carries it: the base point. -/
def point : Bytes := [4] ++ NistCurve.p384.pointBytes (NistCurve.p384.params.gx, NistCurve.p384.params.gy)

/-- A command of the admin queue. -/
def admin (op : Nat) (body : Bytes) : Cmd := { cmd op body with admin := true, path := .admin .a }

/-- A half-open session. -/
def session : Session :=
  { kc := [], km := [], h := 0, bitmap := 0, count := 0, opened := 0, expiry := t64Never, cred := 0, halfOpen := true,
    limitFrom := 0, mark := 0, acked := 0 }

/-- The unit with session 1 of tenant 5. -/
def sessioned : Mod := { unit with dur := { unit.dur with sess := [(sessKey 5 1, session)] } }

/-- The unit with tenant 5's record changed. -/
def with5 (f : Tenant → Tenant) : Mod := { unit with dur := updTenant unit.dur 5 f }

/-- An epoch of a channel that ends with the first second. -/
def epoch : EvrEpoch :=
  { start := 0, stop := 0x40000000, count := 0, sum := 0, min := 0, max := 0, bins := [], partial_ := false,
    saturated := false, stepped := false, untrusted := false }

/-- The unit with custodian port 0 enabled for tenant 5. -/
def ported (m : Mod) : Mod :=
  { m with dcu := { m.dcu with port := [(0, { CustPort.reset with ctl := 0x00050001, link := true })] } }

/-- A key block: 16 zero bytes as a data key, under a zero protection key. -/
def block : Bytes := ascii ("D0112D0AB00S00006BCC4BB11C15063E17C57A53D1F5A26ACA4324B3045C8C4195FD77ED96DE25EB" ++
  "8070EEB9C38BC9C99066FDA000DB128C")

/-- What that key block holds. -/
def blockHolds : KeyBlock :=
  { usage := ascii "D0", alg := chr 'A', mode := chr 'B', kvn := ascii "00", export_ := chr 'S', opts := [],
    key := zeroBytes 16 }

/-- The unit paired, with both links' heartbeats heard and link X passing frames, in step. -/
def twinned (r : Role) : Mod :=
  { unit with tlk := { TlkState.reset with
    paired := true, role := r, sync := true, link := [(0, { Link.reset with up := true, keys := some (zeroBytes 32, zeroBytes 32) })]
    silent := [(0, false), (1, false), (2, false)] } }

/-- An enabled PTP source of port 0, of the master whose every field is 0. -/
def ptpEntry0 : Bytes := put 48 [(0, [3])]

/-- A message of that master. -/
def ptpMsg : PtpMsg :=
  { port := 0, vlan := 0, transport := 0, unicast := false, domain := 0, clockId := zeroBytes 8, portNo := 0,
    src := zeroBytes 16, secs := 1, nanos := 0, correction := 0, ptpTimescale := true, clockClass := 0 }

/-- A frame of link X. -/
def linkFrame : LinkFrame := { link := 0, ctr := 1, tagOk := true }

/-- A hello of link X. -/
def hello : LinkHello :=
  { lanes := 8, uid := 7, cert := [], nonce := zeroBytes 32, eph := point.drop 1, sigOk := true, peerUid := 0, paired := false
    role := 0, starting := false, home := false, jsn := 0, keys := [], tenants := false, pairing := false, format := true
    writes := 0, now := 0, timState := 0, holdAge := 0, cursors := [] }

/-- A heartbeat of a Leeward unit. -/
def beat : Heartbeat := { role := 2, epoch := 0, jsn := 0, health := 0, now := 0 }

/-- The unit with network port 0 up at address 10.0.0.1/8, tenant 5 attached to the network and to port A, where its
queue pair 0 and FIFO are and its admin queue has an entry. -/
def hosted : Mod :=
  let e := { NetEntry.reset with ctl := 0x08000001, addr := [10, 0, 0, 1] ++ zeroBytes 12 }
  let q := { QPair.reset with enable := true, sqSize := 16, sqTail := 1, reading := some 0 }
  let a := { AdminQ.reset with sqSize := 16, sqTail := 1, reading := some 0 }
  { unit with
    port := [(0, { PortState.reset with linkUp := true, admq := a })]
    nif := { NifState.reset with
      port := [(0, { NetPort.reset with ctl := 0x24000001, link := true, mac := 1 })]
      addr := [(0, e)]
      nh := [(0, e)] }
    ten := [(5, { TenHost.reset with attA := true, attNet := true, qp := [(0, q)] })]
    dur := { unit.dur with sess := [(sessKey 5 1, session)] } }

/-- A frame from 10.0.0.2 for the module's address. -/
def frame (payload : Bytes) : NetFrame :=
  { port := 0, tag := none, v6 := false, srcMac := zeroBytes 6, src := [10, 0, 0, 2] ++ zeroBytes 12
    dst := [10, 0, 0, 1] ++ zeroBytes 12, target := [10, 0, 0, 1] ++ zeroBytes 12, srcPort := 1, dstPort := 47420
    frameLen := 1000, kind := .plain, payload := payload }

/-- A datagram of tenant 5's session with a sequence number, its acknowledgement and any capsules. -/
def datagram (type sid dsn : Nat) (caps : List Bytes) : NetFrame :=
  frame (nctHeader type 5 sid dsn 0 0 0 caps.length ++ caps.flatten)

/-- A capsule of tenant 5 with no body, sealed or not. -/
def capsule (flags : Nat) : Bytes := put 32 [(1, [BitVec.ofNat 8 flags]), (4, [5])]

/-- An open SESSION_HELLO to tenant 5. -/
def openHello : Bytes := put 32 [(2, [1, 13]), (4, [5])]

/-- The transport state of that session. -/
def nct : NctSess := NctSess.start (peerOfFrame (frame []))

/-- The unit in MISSION. -/
def served : Mod :=
  { unit with lcc := { LccState.reset with decoded := some 3 }, txp := { TxpState.reset with imageLoaded := true } }

theorem now_zero {m : Mod} (h : trustedNow m = true) : (plain m).now 0 = elapse m := by
  simp only [State.now, advance, Nat.not_lt_zero, and_false, if_false, Nat.max_zero, noteTrust]
  exact congrArg elapse (if_pos h)

theorem elapse_hasCmd {m : Mod} {c : Cmd} (hb : m.kch.busy = false) (hp : c.phase = .running)
    (ho : ∀ p ∈ m.cmq.cmds, p.2.phase = .running) : elapse (hasCmd m c) = hasCmd m c := by
  have w : walk (hasCmd m c) = hasCmd m c := by simp [walk, hasCmd, hb]
  have e : expirePk (hasCmd m c) = hasCmd m c := by
    have hr : ∀ p ∈ (1, c) :: m.cmq.cmds, p.2.phase = .running := by simpa [hp] using ho
    have h1 : ∀ k p, p ∈ (1, c) :: m.cmq.cmds → ¬ undispatched k 1 p.2 = true := fun k p h => by
      simp [undispatched, hr p h]
    have h2 : ∀ k p, p ∈ (1, c) :: m.cmq.cmds → ¬ startedLate k 1 p.1 p.2 = true := fun k p h => by
      simp [startedLate, hr p h]
    simp only [expirePk, hasCmd, List.filter_eq_nil_iff.mpr (h1 _), List.filter_eq_nil_iff.mpr (h2 _), List.foldl_nil]
  simp only [elapse, w, e]

theorem starts_of {op : Nat} {m : Mod} {c : Cmd} {prog : Prog} (hp : programOf op = some prog)
    (ht : trustedNow (hasCmd m c) = true)
    (h : c.opcode = op ∧ c.phase = .running ∧ m.kch.busy = false ∧ (∀ p ∈ m.cmq.cmds, p.2.phase = .running) ∧
      blkServes m .txp = true ∧ (blkOf m .txp).locked = false ∧ (c.runs ≤ 1 → resultShort c = false)) :
    Starts op 0 1 (bench m c) (hasCmd m c) c := by
  obtain ⟨ho, hph, hb, hq, hs, hl, hr⟩ := h
  refine ⟨prog, hasCmd m c, c, 0, hp, ?_, by decide, .here rfl⟩
  have e1 : (bench m c).now 0 = hasCmd m c := (now_zero ht).trans (elapse_hasCmd hb hph hq)
  have e2 : cmdOf (hasCmd m c) 1 = some c := rfl
  have e3 : contextFor (hasCmd m c) 1 c = some (hasCmd m c) := by simp [contextFor, hph]
  have e4 : blkServes (hasCmd m c) .txp = true := hs
  have e5 : (blkOf (hasCmd m c) .txp).locked = false := hl
  simp [starts, e1, e2, e3, e4, e5, ho]
  exact hr

/-- The handle of tenant 5's EC private key at index 0. -/
def pkKey : W64 := 0x0052000000003f67

theorem pkKey_ok : handleStatus unit 5 pkKey = none := by decide +kernel

theorem pkHandle_ok {c : Cmd} (h : pkHandle c = some pkKey) (ht : c.tenant = 5) :
    (pkHandle c).bind (handleStatus (hasCmd unit c) c.tenant) = none := by
  rw [h]
  exact (congrArg (fun t => handleStatus unit t pkKey) ht).trans pkKey_ok

/-- MIGRATE_SAVE of tenant 5, frozen, with room for any snapshot. -/
def saveCmd : Cmd := admin 0x0D16 (put 32 [(0, [5]), (20, [1])])

/-- A snapshot of tenant 5 that the unit took under REF 0 for itself, its body empty, sealed under a device key of 0. -/
def snapshot : Bytes := put 328 [(0, ascii "NKSN"), (4, [1, 0, 5]), (312, natBe 16 0x2f29d419d888962441eaf496b52eaa89)]

/-- What the unit holds of it. -/
def snapImage : SnapImage := snapOf unit 5 false

/-- The unit with tenant 5 frozen since. -/
def snapped : Mod :=
  { with5 (fun x => { x with state := .frozen, snapRef := some 0 }) with
    khs := { unit.khs with dsk := some (zeroBytes 32) }
    dur := { updTenant unit.dur 5 (fun x => { x with state := .frozen, snapRef := some 0 }) with snaps := [(5, snapImage)] } }

/-- The block that finds it. -/
def saving : Mod := hasCmd (with5 (fun x => { x with state := .frozen })) saveCmd

theorem save_ok : saveChecks saving 1 saveCmd = .ok (5, []) := by
  have e : (f64 saveCmd 16).toNat = 2 ^ 32 := by decide +kernel
  have l : (snapBytes (snapOf saving 5 false)).length ≤ 2 ^ 32 - 328 := List.length_take_le _ _
  have h : ¬ (f64 saveCmd 16).toNat < 328 + (snapBytes (snapOf saving 5 false)).length := by omega
  exact (if_neg h : (if _ then _ else _) = _)

theorem getLe32_le32 (v : W32) : getLe32 (le32 v) 0 = v := by
  have : ∀ n : Nat, n < 2 ^ 32 → leNat (natLe 4 n) = n := fun n h => by
    simp only [natLe, leNat, List.foldr, byteOf, BitVec.toNat_ofNat]
    omega
  simp only [getLe32, sliceOf, List.drop_zero]
  exact BitVec.eq_of_toNat_eq ((congrArg (· % 2 ^ 32) (this v.toNat v.isLt)).trans (Nat.mod_eq_of_lt v.isLt))

theorem getLe64_le64 (v : W64) (r : Bytes) : getLe64 (le64 v ++ r) 0 = v := by
  have : ∀ n : Nat, n < 2 ^ 64 → leNat (natLe 8 n) = n := fun n h => by
    simp only [natLe, leNat, List.foldr, byteOf, BitVec.toNat_ofNat]
    omega
  have e : (le64 v ++ r).take 8 = le64 v := List.take_left' rfl
  simp only [getLe64, sliceOf, List.drop_zero, e]
  exact BitVec.eq_of_toNat_eq ((congrArg (· % 2 ^ 64) (this v.toNat v.isLt)).trans (Nat.mod_eq_of_lt v.isLt))

theorem crc_at_end (b : Bytes) (hl : b.length = 0x3FC) :
    getLe32 (b ++ le32 (crc32c b)) 0x3FC = crc32c ((b ++ le32 (crc32c b)).take 0x3FC) := by
  have e : (b ++ le32 (crc32c b)).drop 0x3FC = le32 (crc32c b) := List.drop_left' hl
  have h : getLe32 (b ++ le32 (crc32c b)) 0x3FC = getLe32 (le32 (crc32c b)) 0 := by
    simp only [getLe32, sliceOf, e, List.drop_zero]
  rw [List.take_left' hl, h, getLe32_le32]

theorem factoryCal_ok : calOk factoryCal = true := by
  have h : getLe32 factoryCal 0x3FC = crc32c (factoryCal.take 0x3FC) := crc_at_end _ (by decide +kernel)
  unfold calOk
  rw [h, beq_self_eq_true, Bool.true_and]
  decide +kernel

theorem approved_ok (k : Nat) (hk : classDevice k = true) (c : Cmd) (hs : c.stamp = 4) :
    (quorum (hasCmd (approved unit deviceDomain k c) c) 1 c k).isOk = true := by
  simp only [quorum, quorums, approved, hk]
  generalize cmdDigest c = d
  simp [quorumIn, quorumOf, findChallenge, chalMatches, hs, hk, hasCmd, unit, projDur, domainIn, tblGet, tblFind,
    deviceDomain, Mod.reset, JnlState.reset, Durable.reset, chalLive, inWindow, List.filter, List.foldl, policyM,
    verifyingFor, DcuState.reset, counted, approvalCounts, blkOf, BlkHdr.reset, bind, Except.bind, pure, Except.pure,
    Except.isOk, Except.toBool]

/-- A TWIN_PAIR that names another unit than its certificate does. -/
def mispaired : Cmd := admin 0x1001 (le64 (Config.certUid [] + 1) ++ zeroBytes 8)

theorem mispaired_cert (p : Prop) : ¬ (p ∧ Config.certUid (mispaired.body.drop 16) = f64 mispaired 0) := fun h => by
  have h1 : mispaired.body.drop 16 = [] := rfl
  have h2 : f64 mispaired 0 = Config.certUid [] + 1 := getLe64_le64 _ _
  rw [h1, h2] at h
  simpa using h.2

theorem quiet_unit : Quiet (opPpsEdge true ((plain unit).now 0)) :=
  ⟨rfl, rfl, ⟨rfl, rfl, rfl, rfl, rfl, rfl⟩, ⟨fun p => by cases p <;> rfl, fun _ h => nomatch h⟩, rfl, rfl, rfl, rfl⟩

/-! ### Worked examples of the spec -/

/-- Example 0.1: a nanosecond field of 7 is stored as 4. -/
theorem test_time_is_truncated : t64Trunc 0x1A2B3C4D00000007 = 0x1A2B3C4D00000004 := by decide

/-- The unit of Example 2.1: a reopening whose scope holds SSV page 2, and SEQ 0x137. -/
def reopened : Mod :=
  { served with
    lcc := { served.lcc with dbgOpen := true, scope := put 64 [(36, [4])] }
    acu := { AcuState.reset with seq := 0x137 } }

/-- Its 64-byte read. -/
def debugRead (len : Nat) : Access :=
  { ini := .debug, addr := 0x222FE0, len := len, write := false, data := [], be := [], vfTable := false }

/-- Example 2.1: page 2 alone is granted, the read that runs into page 3 is refused as a whole, and recorded so. -/
theorem test_debug_read_straddles :
    judge reopened (debugRead 32) .inner 0x222FE0 = .granted ∧
      judge reopened (debugRead 64) .inner 0x222FE0 =
        .refused { VioFlags.none with straddle := true, key := true } 0x12 3 ∧
      (vioRecord reopened (debugRead 64) .inner { VioFlags.none with straddle := true, key := true } 0x12 3) =
        { w0 := 0x8F00000300000137, w1 := nowT reopened, w2 := 0x222FE0, w3 := 0x03120040 } := by
  decide +kernel

/-- Example 3.1: the descriptor of a 96-byte capsule stands before 12 words, whose first spells its header. -/
theorem test_fifo_descriptor :
    descOk 0xC500000000000060 = true ∧ descWords 0xC500000000000060 = 14 ∧
      let b := le64 0x003102C402010101
      capVersion b = 1 ∧ capFlags b = 1 ∧ capOpcode b = 0x0201 ∧ capTenant b = 0x2C4 ∧ capSession b = 0x31 := by
  decide +kernel

/-- Example 6.1: a blob beyond the first window lies in the second. -/
theorem test_blob_address :
    blobAddr { Mod.reset with bsx := { BsxState.reset with win :=
      [(0x2C4 * 8, { Window.reset with base := 0x4000000000, size := 4, valid := true }),
       (0x2C4 * 8 + 1, { Window.reset with base := 0x4020000000, size := 20000, valid := true })] } } 0x2C4 0x13A40 =
      some (.a, 0x40201D2000) := by
  decide +kernel

/-- The active set of Example 7.1. -/
def routes7 : RouteSet :=
  { routes := [{ digits := [4], recno := 3 }, { digits := [4, 5, 2, 1, 7], recno := 7 },
      { digits := [4, 5, 2, 1, 7, 3], recno := 12 }, { digits := [4, 5, 2, 1, 7, 3, 9, 0], recno := 15 }]
    recs := [(15, put 32 [(20, [1])])] }

/-- Example 7.1: the longest prefix wins, a blocked record is no route, and the set takes 39 words. -/
theorem test_routes :
    (lookupIn routes7 [4, 5, 2, 1, 7, 3, 9, 1, 0, 5, 5, 5, 2, 0, 8, 6]).map (fun p => p.1.recno) = some 12 ∧
      lookupIn routes7 [4, 5, 2, 1, 7, 3, 9, 0, 1, 2, 3, 4, 5, 6, 7, 8] = none ∧ setWords routes7 = 39 := by
  decide +kernel

/-- Example 9.1: the PAN field of a format-4 block. -/
theorem test_pan_field :
    panField 4 [4, 5, 2, 1, 7, 3, 9, 1, 0, 5, 5, 5, 2, 0, 8, 6] =
      [0x44, 0x52, 0x17, 0x39, 0x10, 0x55, 0x52, 0x08, 0x60, 0, 0, 0, 0, 0, 0, 0] := by
  decide +kernel

/-- Example 9.2: the chain of derivations for a counter of 0x0A05. -/
theorem test_dukpt_chain :
    let e := fun (k : Bytes) (b : Bytes) => aesEnc k b
    let ksn : Bytes := [0x5D, 0x2A, 0x7C, 0x10, 0, 4, 0xE1, 0xB2, 0, 0, 0x0A, 5]
    let step := fun (a b : Byte) => [1, 1, 0x80, 0, 0, 2, 0, 0x80, 0, 4, 0xE1, 0xB2, 0, 0, a, b]
    dukptWork2 (dukptIk2 (zeroBytes 16) ksn) ksn 0x1000 =
      e (e (e (e (e (e (zeroBytes 16) [1, 1, 0x80, 1, 0, 2, 0, 0x80, 0x5D, 0x2A, 0x7C, 0x10, 0, 4, 0xE1, 0xB2])
        (step 8 0)) (step 0x0A 0)) (step 0x0A 4)) (step 0x0A 5))
        [1, 1, 0x10, 0, 0, 2, 0, 0x80, 0, 4, 0xE1, 0xB2, 0, 0, 0x0A, 5] := by
  decide +kernel

/-! ### Published vectors of the standards the spec names -/

/-- FIPS 197, appendix C.1. -/
theorem test_aes :
    aesEnc ((List.range 16).map byteOf) ((List.range 16).map (fun i => byteOf (17 * i))) =
      natBe 16 0x69c4e0d86a7b0430d8cdb78070b4c55a := by
  decide +kernel

/-- FIPS 180-4: SHA-384 of "abc". -/
theorem test_sha384 :
    sha384 (ascii "abc") = natBe 48
      0xcb00753f45a35e8bb5a03d699ac65007272c32ab0eded1631a8b605a43ff5bed8086072ba1e7cc2358baeca134c825a7 := by
  decide +kernel

/-- The check value of CRC-32C. -/
theorem test_crc32c : crc32c (ascii "123456789") = 0xE3069283 := by
  decide +kernel

/-! ### Ill-formed commands -/

/-- Each range of the operands refuses a command beyond it. -/
theorem test_ill_formed :
    (Instr.keyGenerate 0 16384).wf = false ∧ (Instr.fifoCommandTake 0 4096).wf = false ∧
      (Instr.nctRetransmit 0 5 65536 0).wf = false ∧ (Instr.qpSqTailDoorbell 0 (.vf .a 1) 5 4 0).wf = false ∧
      (Instr.blkQuiesce 0 (.vf .a 0) .pke true).wf = false ∧ (Instr.sqEntryFetch 0 (.qp 5 4) []).wf = false ∧
      (Instr.arpRequestRx 0 { frame [] with port := 8 }).wf = false ∧
      (Instr.ptpSyncRx 0 { ptpMsg with nanos := 1000000000 }).wf = false ∧
      (Instr.registerWrite 0 { write32 (.pf .a) 0x1004 0 with len := 8 }).wf = false ∧
      (Instr.registerWrite 0 (write32 (.pf .a) 0x1002 0)).wf = false ∧
      (Instr.getwork 0 64 0).wf = false ∧ (Instr.pkeEngineGrant 0 ⟨64, 0⟩).wf = false ∧
      (Instr.hostReadTimeout 0 (.blob 1024)).wf = false ∧ (Instr.lineRemask 0 393216).wf = false ∧
      (Instr.portLinkUp 0 .a 17 1).wf = false ∧ (Instr.pcieConfigRequest 0 ⟨.a, 0⟩ false 4096 0).wf = false ∧
      (Instr.custFrameRetransmit 0 8 0).wf = false ∧
      (Instr.custAckFrame 0 { port := 0, seq := 256, payload := [], crcOk := true }).wf = false ∧
      (Instr.linkHandshake 0 0 { hello with lanes := 9 }).wf = false ∧
      (Instr.challengeWindowEnd 0 4097 0).wf = false ∧ (Instr.streamIdleExpiry 0 5 8).wf = false ∧
      (Instr.keyGenerate 0 16383).wf = true ∧ (Instr.registerWrite 0 (write32 (.pf .a) 0x1004 0)).wf = true := by
  decide +kernel


/-! ### The statements' hypotheses hold together -/

theorem KeyCreationCompletes_met :
   (∃ (t tag : Nat) (s : State) (m : Mod) (c : Cmd) (q effs : List Effect) (h : W64),
    let a := fBytes c 0 32
    let field := keyField (drawn m (aLen a / 8)) (if aDecLock a then fBytes c 32 8 else [])
    Starts 0x0101 t tag s m c ∧ c.body.length = 40 ∧ attrShape a 9 = .ok () ∧
    symShape (aAlg a) (aLen a) (aParam a) = true ∧ symUsage a = .ok () ∧ aUsage a ≠ ascii "B1" ∧
    decParams a (fBytes c 32 8) = .ok () ∧ m.rng.halted = false ∧
    quorums m tag c (cmdDigest c) (createClasses c.tenant (aTrusted a)) (projDur m) = .ok q ∧
    createKey (afterDraw m (aLen a / 8)) (projDur (afterDraw m (aLen a / 8))) c.tenant 1 (attrKept a 0) field =
      .ok (effs, h)) ∧
   (∃ (t tag : Nat) (s : State) (m : Mod) (c : Cmd) (q effs : List Effect) (h : W64) (k : PubKey),
    let a := fBytes c 0 32
    Starts 0x0104 t tag s m c ∧ c.body.length = 40 + f16 c 0x20 ∧ attrShape a 0 = .ok () ∧
    allZero (fBytes c 0x22 6) = true ∧ asymShape a = true ∧ pubUsage a = true ∧
    quorum m tag c clsKeyCreate = .ok q ∧
    ((if aAlg a = chr 'R' then rsaPubOf (aLen a) (c.body.drop 40) else ecPubOf (aParam a) (c.body.drop 40)) = .ok
      k) ∧ createKey m (projDur m) c.tenant (kindFor a false) (attrKept a 0) k.field = .ok (effs, h)) ∧
   (∃ (t tag : Nat) (s : State) (m m1 : Mod) (c : Cmd) (q effs : List Effect) (h : W64) (ap kp : Bytes),
    let a := fBytes c 0x30 32
    let v := if aAlg ap = chr 'A' then 2 else 1
    let ksn := fBytes c 0x10 12
    let key := dukptIk v (symKey ap kp) ksn
    let field := keyField key (ksnId v ksn)
    Starts 0x0105 t tag s m c ∧ c.body.length = 80 ∧ f8 c 8 = 1 ∧ f8 c 9 = 0 ∧ f8 c 0x0A = 0 ∧
    allZero (fBytes c 0x0B 5) = true ∧ allZero (fBytes c 0x1C 4) = true ∧ allZero (fBytes c 0x20 10) = true ∧
    allZero (fBytes c 0x2A 6) = true ∧ attrShape a 3 = .ok () ∧ symShape (aAlg a) (aLen a) (aParam a) = true ∧
    quorums m tag c (cmdDigest c) (createClasses c.tenant (aTrusted a)) (projDur m) = .ok q ∧
    useKey m tag c [f64 c 0] (f64 c 0) = .ok (ap, kp) ∧ keyIs ap ["B0"] ['X'] = .ok () ∧ needCipher m = .ok () ∧
    aMode a = chr 'X' ∧ aAlg a = aAlg ap ∧ aLen a = aLen ap ∧ aUsage a = ascii "B1" ∧
    (v = 2 ∨ allZero (sliceOf ksn 10 2) = true) ∧
    under tag (lineNo m (f64 c 0)) .ecbEnc (cipherOf ap) (if v = 2 then aLen ap / 128 else 2) (.scratch 0) key m =
      .ok m1 ∧ createKey m1 (projDur m1) c.tenant 1 (attrKept a 2) field = .ok (effs, h)) ∧
   (∃ (t tag : Nat) (s : State) (m m1 : Mod) (c : Cmd) (q effs : List Effect) (h : W64) (ap kp : Bytes) (pan psn :
    List Nat),
    let a := fBytes c 0x30 32
    let v := if aAlg ap = chr 'A' then 2 else 1
    let key := emvMk (v == 2) (symKey ap kp) (emvY pan psn)
    Starts 0x0105 t tag s m c ∧ c.body.length = 80 ∧ f8 c 8 = 2 ∧ 12 ≤ f8 c 9 ∧ f8 c 9 ≤ 16 ∧
    allZero (fBytes c 0x0B 5) = true ∧ allZero (fBytes c 0x10 12) = true ∧ allZero (fBytes c 0x1C 4) = true ∧
    allZero (fBytes c 0x2A 6) = true ∧ panOf c 9 0x20 = .ok pan ∧ bcdOf (fBytes c 0x0A 1) 2 = some psn ∧
    attrShape a 3 = .ok () ∧ symShape (aAlg a) (aLen a) (aParam a) = true ∧
    quorums m tag c (cmdDigest c) (createClasses c.tenant (aTrusted a)) (projDur m) = .ok q ∧
    useKey m tag c [f64 c 0] (f64 c 0) = .ok (ap, kp) ∧ keyIs ap ["E0", "E1", "E2"] ['X'] = .ok () ∧
    needCipher m = .ok () ∧ aMode a = chr 'X' ∧ aAlg a = aAlg ap ∧ aLen a = aLen ap ∧ aUsage a = aUsage ap ∧
    under tag (lineNo m (f64 c 0)) .ecbEnc (cipherOf ap) (if v = 2 then aLen ap / 128 else 2) (.scratch 0) key m =
      .ok m1 ∧ createKey m1 (projDur m1) c.tenant 1 (attrKept a 2) key = .ok (effs, h)) ∧
   (∃ (t tag : Nat) (s : State) (m : Mod) (c : Cmd) (q effs bud : List Effect) (new : W64) (a key : Bytes) (e :
    KstEntry),
    let h := f64 c 0
    let at' := keepTime (f64 c 8)
    let r := keepTime (f64 c 0x10)
    let n := aLen a / 8
    let a1 := successorAttr a (fBytes c 0x18 2) at'
    let field := keyField (drawn m n) (paramsOf a key)
    Starts 0x0106 t tag s m c ∧ rotateBody c = .ok () ∧ f8 c 0x1A = 0 ∧ hKind h = 1 ∧
    quorum m tag c clsKeyCreate = .ok q ∧ keyHeld m tag c [h] h = .ok (a, key) ∧ kstLive (projDur m) h = .ok e ∧
    e.successor = none ∧ keyStateAt a (some e) c.stamp ≠ .retired ∧ at'.toNat ≤ r.toNat ∧
    r.toNat ≤ (retirement a (some e)).toNat ∧ m.rng.halted = false ∧ kstRoom m (projDur m) c.tenant h = .ok () ∧
    createKey (afterDraw m n) (projDur m) c.tenant 1 a1 field = .ok (effs, new) ∧
    budgetCopy (projDur m) h new c.stamp = .ok bud) ∧
   (∃ (t tag : Nat) (s : State) (m : Mod) (c : Cmd) (q effs bud : List Effect) (new : W64) (a key : Bytes) (e :
    KstEntry),
    let h := f64 c 0
    let at' := keepTime (f64 c 8)
    let r := keepTime (f64 c 0x10)
    let m1 := afterFreshDraw m 640
    let a1 := successorAttr a (fBytes c 0x18 2) at'
    let field := (privDraw a m.free).field
    Starts 0x0106 t tag s m c ∧ rotateBody c = .ok () ∧ f8 c 0x1A = 0 ∧ hKind h ≠ 1 ∧
    (aMode a = chr 'S' ∨ aMode a = chr 'D' ∨ (aMode a = chr 'N' ∧ hKind h ≠ 3)) ∧
    quorum m tag c clsKeyCreate = .ok q ∧ keyHeld m tag c [h] h = .ok (a, key) ∧ kstLive (projDur m) h = .ok e ∧
    e.successor = none ∧ keyStateAt a (some e) c.stamp ≠ .retired ∧ at'.toNat ≤ r.toNat ∧
    r.toNat ≤ (retirement a (some e)).toNat ∧ m.rng.halted = false ∧ kstRoom m (projDur m) c.tenant h = .ok () ∧
    createKey m1 (projDur m) c.tenant (hKind h) a1 field = .ok (effs, new) ∧
    budgetCopy (projDur m) h new c.stamp = .ok bud) := by
  refine ⟨
    ⟨0, 1, bench unit (cmd 0x0101 (attr 'A' 256 "D0" 'B' 0 ++ zeroBytes 8)), _, _, _, _, _, starts_of rfl ?_ ?_, ?_,
      eq_unit ?_, ?_, eq_unit ?_, ?_, eq_unit ?_, ?_, eq_val ?_, eq_val2 ?_⟩,
    ⟨0, 1, bench unit (cmd 0x0104 (put 40 [(0, attr 'E' 255 "91" 'N' 5), (0x20, natLe 2 32)] ++ natLe 32 9)), _, _, _,
      _, _, _, starts_of rfl ?_ ?_, ?_, eq_unit ?_, ?_, ?_, ?_, eq_val ?_, eq_val ?_, eq_val2 ?_⟩,
    ⟨0, 1, bench (withKeys unit [(attr 'A' 128 "B0" 'X' 0, zeroBytes 64)]) (cmd 0x0105 (put 80 [(0, le64 (key 0)), (8,
      [1]), (0x30, attr 'A' 128 "B1" 'X' 0)])), _, _, _, _, _, _, _, _, starts_of rfl ?_ ?_, ?_, ?_, ?_, ?_, ?_, ?_,
      ?_, ?_, eq_unit ?_, ?_, eq_val ?_, eq_val2 ?_, eq_unit ?_, eq_unit ?_, ?_, ?_, ?_, ?_, ?_, eq_val ?_, eq_val2
      ?_⟩,
    ⟨0, 1, bench (withKeys unit [(attr 'A' 128 "E0" 'X' 0, zeroBytes 64)]) (cmd 0x0105 (put 80 [(0, le64 (key 0)), (8,
      [2, 12]), (0x20, [0x41, 0x11, 0x11, 0x11, 0x11, 0x11, 0xFF, 0xFF, 0xFF, 0xFF]), (0x30, attr 'A' 128 "E0" 'X'
      0)])), _, _, _, _, _, _, _, _, _, _, starts_of rfl ?_ ?_, ?_, ?_, ?_, ?_, ?_, ?_, ?_, ?_, eq_val ?_, rfl,
      eq_unit ?_, ?_, eq_val ?_, eq_val2 ?_, eq_unit ?_, eq_unit ?_, ?_, ?_, ?_, ?_, eq_val ?_, eq_val2 ?_⟩,
    ⟨0, 1, bench (withKeys unit [(attr 'A' 256 "D0" 'B' 0, zeroBytes 64)]) (cmd 0x0106 (put 48 [(0, le64 (key 0)), (8,
      le64 4), (0x10, le64 t64Never), (0x18, ascii "01")])), _, _, _, _, _, _, _, _, KstEntry.none, starts_of rfl ?_
      ?_, eq_unit ?_, ?_, ?_, eq_val ?_, eq_val2 ?_, eq_val ?_, ?_, ?_, ?_, ?_, ?_, eq_unit ?_, eq_val2 ?_, eq_val ?_⟩,
    ⟨0, 1, bench fetched { cmd 0x0106 (put 48 [(0, le64 (smallKey)), (8, le64 4), (0x10, le64 t64Never), (0x18, ascii
      "01")]) with slots := [0] }, _, _, _, _, _, _, attr 'E' 256 "S0" 'S' 1, zeroBytes 64, KstEntry.none, starts_of
      rfl ?_ ?_, eq_unit ?_, ?_, ?_, ?_, eq_val ?_, eq_ok ?_, eq_val ?_, ?_, ?_, ?_, ?_, ?_, eq_unit ?_, eq_val2 ?_,
      eq_val ?_⟩⟩ <;> decide +kernel

theorem KeyCreationCompletes_met_1 :
   ∃ (t tag : Nat) (s : State) (m : Mod) (c : Cmd) (q effs : List Effect) (h : W64) (m1 : Mod) (k : KeyBlock) (kind
    : Nat) (a field : Bytes),
    Starts 0x0102 t tag s m c ∧ c.body.length = 40 + f16 c 0x20 ∧ 48 ≤ f16 c 0x20 ∧ f16 c 0x20 ≤ 4000 ∧
    beforeOk (f64 c 8) = true ∧ afterOk (f64 c 0x10) = true ∧ f8 c 0x22 ≤ 3 ∧ allZero (fBytes c 0x23 5) = true ∧
    (f8 c 0x22 % 2 = 1 ∨ allZero (fBytes c 0x18 8) = true) ∧
    quorums m tag c (cmdDigest c) (createClasses c.tenant (f8 c 0x22 / 2 == 1)) (projDur m) = .ok q ∧
    openBlock m tag c [f64 c 0] (f64 c 0) (c.body.drop 40) = .ok (m1, k) ∧
    blockKey k ((if f8 c 0x22 / 2 = 1 then 1 else 0) + (if f8 c 0x22 % 2 = 1 then 8 else 0)) (keepTime (f64 c 8))
      (keepTime (f64 c 0x10)) (fBytes c 0x18 8) = .ok (kind, a, field) ∧ kcAgrees k (kcvAny kind a field) = true ∧
    createKey m1 (projDur m1) c.tenant kind a field = .ok (effs, h) := by
  refine ⟨0, 1, bench (withKeys unit [(attr 'A' 256 "K1" 'D' 0, zeroBytes 64)]) (cmd 0x0102 (put 40 [(0, le64 (key
    0)), (0x20, natLe 2 block.length)] ++ block)), _, _, _, _, _, _, blockHolds, _, _, _, starts_of rfl ?_ ?_, ?_, ?_,
    ?_, ?_, ?_, ?_, ?_, ?_, eq_val ?_, eq_ok2 ?_ ?_, eq_val3 ?_, ?_, eq_val2 ?_⟩ <;> decide +kernel

theorem KeyCreationCompletes_met_2 :
   ∃ (t tag : Nat) (s : State) (m m1 : Mod) (c : Cmd) (q effs bud : List Effect) (new : W64) (a b f key : Bytes) (e
    : KstEntry) (k : KeyBlock) (kind : Nat),
    let h := f64 c 0
    let hs := [h, f64 c 0x20]
    let at' := keepTime (f64 c 8)
    let r := keepTime (f64 c 0x10)
    let a1 := successorAttr a (fBytes c 0x18 2) at'
    let field := if hKind h = 1 then keyField k.key (paramsOf a key) else f
    Starts 0x0106 t tag s m c ∧ rotateBody c = .ok () ∧ f8 c 0x1A = 1 ∧ quorum m tag c clsKeyCreate = .ok q ∧
    keyHeld m tag c hs h = .ok (a, key) ∧ kstLive (projDur m) h = .ok e ∧ e.successor = none ∧
    keyStateAt a (some e) c.stamp ≠ .retired ∧ at'.toNat ≤ r.toNat ∧ r.toNat ≤ (retirement a (some e)).toNat ∧
    openBlock m tag c hs (f64 c 0x20) (c.body.drop 48) = .ok (m1, k) ∧
    blockKey k 0 at' t64Never (zeroBytes 8) = .ok (kind, b, f) ∧ aParam b = aParam a ∧ aAlg b = aAlg a ∧
    aLen b = aLen a ∧ aUsage b = aUsage a ∧ kstRoom m (projDur m) c.tenant h = .ok () ∧
    createKey m1 (projDur m) c.tenant (hKind h) a1 field = .ok (effs, new) ∧
    budgetCopy (projDur m) h new c.stamp = .ok bud := by
  refine ⟨0, 1, bench (withKeys unit [(attr 'A' 128 "D0" 'B' 0, zeroBytes 64), (attr 'A' 256 "K1" 'D' 0, zeroBytes
    64)]) (cmd 0x0106 (put 48 [(0, le64 (key 0)), (8, le64 4), (0x10, le64 t64Never), (0x18, ascii "01"), (0x1A, [1]),
    (0x20, le64 (key 1)), (0x28, natLe 2 block.length)] ++ block)), _, _, _, _, _, _, _, _, _, _, _, KstEntry.none,
    blockHolds, _, starts_of rfl ?_ ?_, eq_unit ?_, ?_, eq_val ?_, eq_val2 ?_, eq_val ?_, ?_, ?_, ?_, ?_, eq_ok2 ?_
    ?_, eq_val3 ?_, ?_, ?_, ?_, ?_, eq_unit ?_, eq_val2 ?_, eq_val ?_⟩ <;> decide +kernel

theorem KeyManagementCompletes_met :
   (∃ (t tag : Nat) (s : State) (m m1 : Mod) (c : Cmd) (q : List Effect) (a k ap kp : Bytes),
    let hs := [f64 c 0, f64 c 8]
    let key := if aAlg a = chr 'R' ∨ aAlg a = chr 'E' then Config.asymOut k else symKey a k
    let blk := kbBuild (symKey ap kp)
      { usage := aUsage a, alg := aAlg a, mode := aMode a, kvn := aKvn a,
        export_ := if f8 c 0x10 = 1 then aExport a else chr 'N',
        opts := withPad (exportOpts a k ++ kbStamps a (symKey a k) ap (symKey ap kp) (trustedStamp m c)) ((drawn m 32).drop 16),
        key := key } (drawn m 32)
    Starts 0x0103 t tag s m c ∧ c.body.length = 24 ∧ f8 c 0x10 ≤ 1 ∧ allZero (fBytes c 0x11 7) = true ∧
    quorum m tag c clsKeyExport = .ok q ∧ useKey m tag c hs (f64 c 0) = .ok (a, k) ∧
    useKey m tag c hs (f64 c 8) = .ok (ap, kp) ∧ keyIs ap ["K1"] ['E', 'B'] = .ok () ∧ needCipher m = .ok () ∧
    (aExport a = chr 'S' ∨ (aExport a = chr 'E' ∧ aTrusted ap = true)) ∧
    blockUops tag (f64 c 8) true blk (kbPlain key (drawn m 32)).length (afterDraw m 32) = .ok m1 ∧ q = []) ∧
   (∃ (t tag : Nat) (s : State) (m m1 : Mod) (c : Cmd) (q : List Effect) (a k ap kp : Bytes),
    let hs := [f64 c 0, f64 c 8]
    let key := if aAlg a = chr 'R' ∨ aAlg a = chr 'E' then Config.asymOut k else symKey a k
    let blk := kbBuild (symKey ap kp)
      { usage := aUsage a, alg := aAlg a, mode := aMode a, kvn := aKvn a,
        export_ := if f8 c 0x10 = 1 then aExport a else chr 'N',
        opts := withPad (exportOpts a k ++ kbStamps a (symKey a k) ap (symKey ap kp) (trustedStamp m c)) ((drawn m 32).drop 16),
        key := key } (drawn m 32)
    Starts 0x0103 t tag s m c ∧ c.body.length = 24 ∧ f8 c 0x10 ≤ 1 ∧ allZero (fBytes c 0x11 7) = true ∧
    quorum m tag c clsKeyExport = .ok q ∧ useKey m tag c hs (f64 c 0) = .ok (a, k) ∧
    useKey m tag c hs (f64 c 8) = .ok (ap, kp) ∧ keyIs ap ["K1"] ['E', 'B'] = .ok () ∧ needCipher m = .ok () ∧
    (aExport a = chr 'S' ∨ (aExport a = chr 'E' ∧ aTrusted ap = true)) ∧
    blockUops tag (f64 c 8) true blk (kbPlain key (drawn m 32)).length (afterDraw m 32) = .ok m1 ∧ ¬ (q = [])) ∧
   (∃ (t tag : Nat) (s : State) (m : Mod) (c : Cmd) (q : List Effect) (a k : Bytes) (e : KstEntry),
    let h := f64 c 0
    let at' := t64Trunc (f64 c 8)
    Starts 0x0107 t tag s m c ∧ c.body.length = 16 ∧ beforeOk (f64 c 8) = true ∧
    quorum m tag c clsKeyRetire = .ok q ∧ keyHeld m tag c [h] h = .ok (a, k) ∧ kstLive (projDur m) h = .ok e ∧
    c.stamp.toNat < at'.toNat ∧ at'.toNat ≤ (retirement a (some e)).toNat ∧
    kstRoom m (projDur m) c.tenant h = .ok ()) ∧
   (∃ (t tag : Nat) (s : State) (m : Mod) (c : Cmd) (q : List Effect) (a k : Bytes) (e : KstEntry),
    let h := f64 c 0
    Starts 0x0108 t tag s m c ∧ c.body.length = 8 ∧ quorum m tag c clsKeyDestroy = .ok q ∧
    keyHeld m tag c [h] h = .ok (a, k) ∧ kstLive (projDur m) h = .ok e ∧ kstRoom m (projDur m) c.tenant h = .ok ()) ∧
   (∃ (t tag : Nat) (s : State) (m : Mod) (c : Cmd) (a k : Bytes) (e : KstEntry),
    let h := f64 c 0
    Starts 0x0109 t tag s m c ∧ c.body.length = 8 ∧ keyHeld m tag c [h] h = .ok (a, k) ∧ kstLive m.dur h = .ok e) ∧
   (∃ (t tag : Nat) (s : State) (m : Mod) (c : Cmd) (q : List Effect) (trk : Bytes),
    let x := tenantIn (projDur m) c.tenant
    Starts 0x010A t tag s m c ∧ c.body = [] ∧ quorum m tag c clsTenantRoot = .ok q ∧ x.trk = some trk ∧
    x.twkGen ≠ 0xFFFF) := by
  refine ⟨
    ⟨0, 1, bench (withKeys unit [(attr 'A' 256 "D0" 'B' 0, zeroBytes 64), (attr 'A' 256 "K1" 'E' 0, zeroBytes 64)])
      (cmd 0x0103 (put 24 [(0, le64 (key 0)), (8, le64 (key 1))])), _, _, _, _, _, _, _, _, starts_of rfl ?_ ?_, ?_,
      ?_, ?_, eq_val ?_, eq_val2 ?_, eq_val2 ?_, eq_unit ?_, eq_unit ?_, ?_, eq_val ?_, ?_⟩,
    ⟨0, 1, let c := cmd 0x0103 (put 24 [(0, le64 (key 0)), (8, le64 (key 1))]); bench (approved (withKeys unit [(attr
      'A' 256 "D0" 'B' 0, zeroBytes 64), (attr 'A' 256 "K1" 'E' 0, zeroBytes 64)]) 5 clsKeyExport c) c, _, _, _, _, _,
      _, _, _, starts_of rfl ?_ ?_, ?_, ?_, ?_, eq_val ?_, eq_val2 ?_, eq_val2 ?_, eq_unit ?_, eq_unit ?_, ?_, eq_val
      ?_, ?_⟩,
    ⟨0, 1, bench (withKeys unit [(attr 'A' 256 "D0" 'B' 0, zeroBytes 64)]) (cmd 0x0107 (put 16 [(0, le64 (key 0)), (8,
      le64 8)])), _, _, _, _, _, KstEntry.none, starts_of rfl ?_ ?_, ?_, ?_, eq_val ?_, eq_val2 ?_, eq_val ?_, ?_, ?_,
      eq_unit ?_⟩,
    ⟨0, 1, let c := cmd 0x0108 (le64 (key 0)); bench (approved (withKeys unit [(attr 'A' 256 "D0" 'B' 0, zeroBytes
      64)]) 5 clsKeyDestroy c) c, _, _, _, _, _, KstEntry.none, starts_of rfl ?_ ?_, ?_, eq_val ?_, eq_val2 ?_, eq_val
      ?_, eq_unit ?_⟩,
    ⟨0, 1, bench (withKeys unit [(attr 'A' 256 "D0" 'B' 0, zeroBytes 64)]) (cmd 0x0109 (le64 (key 0))), _, _, _, _,
      KstEntry.none, starts_of rfl ?_ ?_, ?_, eq_val2 ?_, eq_val ?_⟩,
    ⟨0, 1, bench (approved unit 5 clsTenantRoot (cmd 0x010A [])) (cmd 0x010A []), _, _, _, zeroBytes 32, starts_of rfl
      ?_ ?_, ?_, eq_val ?_, ?_, ?_⟩⟩ <;> decide +kernel

theorem PinTranslationCompletes_met :
   (∃ (t tag : Nat) (s : State) (m m1 : Mod) (c : Cmd) (pan : List Nat) (blk ai ki ao ko : Bytes) (ho : W64),
    let inF := f8 c 0x10
    let outF := f8 c 0x11
    let x := c.mem.headD []
    let hOut := if false then recPinKey x else f64 c 8
    let follow := false || f8 c 0x13 == 1
    Starts (if false then 0x0202 else 0x0201) t tag s m c ∧ c.body.length = 48 ∧ fmtDefined inF = true ∧
    fmtDefined outF = true ∧ panOf c 0x12 0x16 = .ok pan ∧ f8 c 0x13 ≤ (if false then 0 else 1) ∧
    allZero (fBytes c 0x14 2) = true ∧ (false = true → f64 c 8 = 0 ∧ c.stage ≠ 0) ∧ pinField c inF 0x20 = .ok blk ∧
    fmtAllowed inF outF = .ok () ∧ useKey m tag c [f64 c 0, reachedOf c hOut follow] (f64 c 0) = .ok (ai, ki) ∧
    useFollowed m tag c [f64 c 0] hOut follow = .ok (ho, ao, ko) ∧ keyIs ai ["P0"] ['D', 'B'] = .ok () ∧
    fmtKey ai inF = .ok () ∧ keyIs ao ["P0"] ['E', 'B'] = .ok () ∧ fmtKey ao outF = .ok () ∧ needCipher m = .ok () ∧
    pinIn tag (lineNo m (f64 c 0)) 0 inF (symKey ai ki) pan blk m = .ok m1 ∧ pinOf inF (symKey ai ki) pan blk = none) ∧
   (∃ (t tag : Nat) (s : State) (m m1 : Mod) (c : Cmd) (pan : List Nat) (blk ai ki ao ko : Bytes) (ho : W64),
    let inF := f8 c 0x10
    let outF := f8 c 0x11
    let x := c.mem.headD []
    let hOut := if true then recPinKey x else f64 c 8
    let follow := true || f8 c 0x13 == 1
    Starts (if true then 0x0202 else 0x0201) t tag s m c ∧ c.body.length = 48 ∧ fmtDefined inF = true ∧
    fmtDefined outF = true ∧ panOf c 0x12 0x16 = .ok pan ∧ f8 c 0x13 ≤ (if true then 0 else 1) ∧
    allZero (fBytes c 0x14 2) = true ∧ (true = true → f64 c 8 = 0 ∧ c.stage ≠ 0) ∧ pinField c inF 0x20 = .ok blk ∧
    fmtAllowed inF outF = .ok () ∧ useKey m tag c [f64 c 0, reachedOf c hOut follow] (f64 c 0) = .ok (ai, ki) ∧
    useFollowed m tag c [f64 c 0] hOut follow = .ok (ho, ao, ko) ∧ keyIs ai ["P0"] ['D', 'B'] = .ok () ∧
    fmtKey ai inF = .ok () ∧ keyIs ao ["P0"] ['E', 'B'] = .ok () ∧ fmtKey ao outF = .ok () ∧ needCipher m = .ok () ∧
    pinIn tag (lineNo m (f64 c 0)) 0 inF (symKey ai ki) pan blk m = .ok m1 ∧ pinOf inF (symKey ai ki) pan blk = none) ∧
   (∃ (t tag : Nat) (s : State) (m m1 : Mod) (c : Cmd) (pan : List Nat) (blk ai ki ao ko : Bytes) (ho : W64) (pin :
    List Nat) (m2 : Mod) (out : Bytes),
    let inF := f8 c 0x10
    let outF := f8 c 0x11
    let x := c.mem.headD []
    let hOut := if false then recPinKey x else f64 c 8
    let follow := false || f8 c 0x13 == 1
    Starts (if false then 0x0202 else 0x0201) t tag s m c ∧ c.body.length = 48 ∧ fmtDefined inF = true ∧
    fmtDefined outF = true ∧ panOf c 0x12 0x16 = .ok pan ∧ f8 c 0x13 ≤ (if false then 0 else 1) ∧
    allZero (fBytes c 0x14 2) = true ∧ (false = true → f64 c 8 = 0 ∧ c.stage ≠ 0) ∧ pinField c inF 0x20 = .ok blk ∧
    fmtAllowed inF outF = .ok () ∧ useKey m tag c [f64 c 0, reachedOf c hOut follow] (f64 c 0) = .ok (ai, ki) ∧
    useFollowed m tag c [f64 c 0] hOut follow = .ok (ho, ao, ko) ∧ keyIs ai ["P0"] ['D', 'B'] = .ok () ∧
    fmtKey ai inF = .ok () ∧ keyIs ao ["P0"] ['E', 'B'] = .ok () ∧ fmtKey ao outF = .ok () ∧ needCipher m = .ok () ∧
    pinIn tag (lineNo m (f64 c 0)) 0 inF (symKey ai ki) pan blk m = .ok m1 ∧
    pinOf inF (symKey ai ki) pan blk = some pin ∧
    pinOut tag (lineNo m1 ho) outF (symKey ao ko) pan pin m1 = .ok (m2, out)) ∧
   (∃ (t tag : Nat) (s : State) (m m1 : Mod) (c : Cmd) (pan : List Nat) (blk ai ki ao ko : Bytes) (ho : W64) (pin :
    List Nat) (m2 : Mod) (out : Bytes),
    let inF := f8 c 0x10
    let outF := f8 c 0x11
    let x := c.mem.headD []
    let hOut := if true then recPinKey x else f64 c 8
    let follow := true || f8 c 0x13 == 1
    Starts (if true then 0x0202 else 0x0201) t tag s m c ∧ c.body.length = 48 ∧ fmtDefined inF = true ∧
    fmtDefined outF = true ∧ panOf c 0x12 0x16 = .ok pan ∧ f8 c 0x13 ≤ (if true then 0 else 1) ∧
    allZero (fBytes c 0x14 2) = true ∧ (true = true → f64 c 8 = 0 ∧ c.stage ≠ 0) ∧ pinField c inF 0x20 = .ok blk ∧
    fmtAllowed inF outF = .ok () ∧ useKey m tag c [f64 c 0, reachedOf c hOut follow] (f64 c 0) = .ok (ai, ki) ∧
    useFollowed m tag c [f64 c 0] hOut follow = .ok (ho, ao, ko) ∧ keyIs ai ["P0"] ['D', 'B'] = .ok () ∧
    fmtKey ai inF = .ok () ∧ keyIs ao ["P0"] ['E', 'B'] = .ok () ∧ fmtKey ao outF = .ok () ∧ needCipher m = .ok () ∧
    pinIn tag (lineNo m (f64 c 0)) 0 inF (symKey ai ki) pan blk m = .ok m1 ∧
    pinOf inF (symKey ai ki) pan blk = some pin ∧
    pinOut tag (lineNo m1 ho) outF (symKey ao ko) pan pin m1 = .ok (m2, out)) ∧
   (∃ (t tag l : Nat) (s : State) (m m1 m2 : Mod) (c : Cmd) (pan : List Nat) (blk ab kb ao ko : Bytes) (ho : W64),
    let v := f8 c 0x10
    let inF := f8 c 0x11
    let outF := f8 c 0x12
    let ksn := fBytes c 0x18 12
    let x := c.mem.headD []
    let hOut := if false then recPinKey x else f64 c 8
    let follow := false || f8 c 0x14 == 1
    let k := dukptKey v (aUsage ab == ascii "B0") (symKey ab kb) ksn false
    Starts (if false then 0x0302 else 0x0301) t tag s m c ∧ c.body.length = 64 ∧
    ((v = 1 ∧ (inF = 0 ∨ inF = 1 ∨ inF = 3)) ∨ (v = 2 ∧ inF = 4)) ∧ fmtDefined outF = true ∧
    panOf c 0x13 0x26 = .ok pan ∧ f8 c 0x14 ≤ (if false then 0 else 1) ∧ allZero (fBytes c 0x15 3) = true ∧
    allZero (fBytes c 0x24 2) = true ∧ (false = true → f64 c 8 = 0 ∧ c.stage ≠ 0) ∧ ksnOk v ksn false = true ∧
    pinField c inF 0x30 = .ok blk ∧ fmtAllowed inF outF = .ok () ∧
    useKey m tag c [f64 c 0, reachedOf c hOut follow] (f64 c 0) = .ok (ab, kb) ∧
    useFollowed m tag c [f64 c 0] hOut follow = .ok (ho, ao, ko) ∧ dukptBase ab kb v ksn false = .ok () ∧
    keyIs ao ["P0"] ['E', 'B'] = .ok () ∧ fmtKey ao outF = .ok () ∧ needCipher m = .ok () ∧
    dukptLine tag (f64 c 0) ab (symKey ab kb) v ksn .pin m = .ok (m1, l) ∧ pinIn tag l 0 inF k pan blk m1 = .ok m2 ∧
    pinOf inF k pan blk = none) ∧
   (∃ (t tag l : Nat) (s : State) (m m1 m2 : Mod) (c : Cmd) (pan : List Nat) (blk ab kb ao ko : Bytes) (ho : W64),
    let v := f8 c 0x10
    let inF := f8 c 0x11
    let outF := f8 c 0x12
    let ksn := fBytes c 0x18 12
    let x := c.mem.headD []
    let hOut := if true then recPinKey x else f64 c 8
    let follow := true || f8 c 0x14 == 1
    let k := dukptKey v (aUsage ab == ascii "B0") (symKey ab kb) ksn false
    Starts (if true then 0x0302 else 0x0301) t tag s m c ∧ c.body.length = 64 ∧
    ((v = 1 ∧ (inF = 0 ∨ inF = 1 ∨ inF = 3)) ∨ (v = 2 ∧ inF = 4)) ∧ fmtDefined outF = true ∧
    panOf c 0x13 0x26 = .ok pan ∧ f8 c 0x14 ≤ (if true then 0 else 1) ∧ allZero (fBytes c 0x15 3) = true ∧
    allZero (fBytes c 0x24 2) = true ∧ (true = true → f64 c 8 = 0 ∧ c.stage ≠ 0) ∧ ksnOk v ksn false = true ∧
    pinField c inF 0x30 = .ok blk ∧ fmtAllowed inF outF = .ok () ∧
    useKey m tag c [f64 c 0, reachedOf c hOut follow] (f64 c 0) = .ok (ab, kb) ∧
    useFollowed m tag c [f64 c 0] hOut follow = .ok (ho, ao, ko) ∧ dukptBase ab kb v ksn false = .ok () ∧
    keyIs ao ["P0"] ['E', 'B'] = .ok () ∧ fmtKey ao outF = .ok () ∧ needCipher m = .ok () ∧
    dukptLine tag (f64 c 0) ab (symKey ab kb) v ksn .pin m = .ok (m1, l) ∧ pinIn tag l 0 inF k pan blk m1 = .ok m2 ∧
    pinOf inF k pan blk = none) ∧
   (∃ (t tag l : Nat) (s : State) (m m1 m2 : Mod) (c : Cmd) (pan : List Nat) (blk ab kb ao ko : Bytes) (ho : W64)
    (pin : List Nat) (m3 : Mod) (out : Bytes),
    let v := f8 c 0x10
    let inF := f8 c 0x11
    let outF := f8 c 0x12
    let ksn := fBytes c 0x18 12
    let x := c.mem.headD []
    let hOut := if false then recPinKey x else f64 c 8
    let follow := false || f8 c 0x14 == 1
    let k := dukptKey v (aUsage ab == ascii "B0") (symKey ab kb) ksn false
    Starts (if false then 0x0302 else 0x0301) t tag s m c ∧ c.body.length = 64 ∧
    ((v = 1 ∧ (inF = 0 ∨ inF = 1 ∨ inF = 3)) ∨ (v = 2 ∧ inF = 4)) ∧ fmtDefined outF = true ∧
    panOf c 0x13 0x26 = .ok pan ∧ f8 c 0x14 ≤ (if false then 0 else 1) ∧ allZero (fBytes c 0x15 3) = true ∧
    allZero (fBytes c 0x24 2) = true ∧ (false = true → f64 c 8 = 0 ∧ c.stage ≠ 0) ∧ ksnOk v ksn false = true ∧
    pinField c inF 0x30 = .ok blk ∧ fmtAllowed inF outF = .ok () ∧
    useKey m tag c [f64 c 0, reachedOf c hOut follow] (f64 c 0) = .ok (ab, kb) ∧
    useFollowed m tag c [f64 c 0] hOut follow = .ok (ho, ao, ko) ∧ dukptBase ab kb v ksn false = .ok () ∧
    keyIs ao ["P0"] ['E', 'B'] = .ok () ∧ fmtKey ao outF = .ok () ∧ needCipher m = .ok () ∧
    dukptLine tag (f64 c 0) ab (symKey ab kb) v ksn .pin m = .ok (m1, l) ∧ pinIn tag l 0 inF k pan blk m1 = .ok m2 ∧
    pinOf inF k pan blk = some pin ∧ pinOut tag (lineNo m2 ho) outF (symKey ao ko) pan pin m2 = .ok (m3, out)) ∧
   (∃ (t tag l : Nat) (s : State) (m m1 m2 : Mod) (c : Cmd) (pan : List Nat) (blk ab kb ao ko : Bytes) (ho : W64)
    (pin : List Nat) (m3 : Mod) (out : Bytes),
    let v := f8 c 0x10
    let inF := f8 c 0x11
    let outF := f8 c 0x12
    let ksn := fBytes c 0x18 12
    let x := c.mem.headD []
    let hOut := if true then recPinKey x else f64 c 8
    let follow := true || f8 c 0x14 == 1
    let k := dukptKey v (aUsage ab == ascii "B0") (symKey ab kb) ksn false
    Starts (if true then 0x0302 else 0x0301) t tag s m c ∧ c.body.length = 64 ∧
    ((v = 1 ∧ (inF = 0 ∨ inF = 1 ∨ inF = 3)) ∨ (v = 2 ∧ inF = 4)) ∧ fmtDefined outF = true ∧
    panOf c 0x13 0x26 = .ok pan ∧ f8 c 0x14 ≤ (if true then 0 else 1) ∧ allZero (fBytes c 0x15 3) = true ∧
    allZero (fBytes c 0x24 2) = true ∧ (true = true → f64 c 8 = 0 ∧ c.stage ≠ 0) ∧ ksnOk v ksn false = true ∧
    pinField c inF 0x30 = .ok blk ∧ fmtAllowed inF outF = .ok () ∧
    useKey m tag c [f64 c 0, reachedOf c hOut follow] (f64 c 0) = .ok (ab, kb) ∧
    useFollowed m tag c [f64 c 0] hOut follow = .ok (ho, ao, ko) ∧ dukptBase ab kb v ksn false = .ok () ∧
    keyIs ao ["P0"] ['E', 'B'] = .ok () ∧ fmtKey ao outF = .ok () ∧ needCipher m = .ok () ∧
    dukptLine tag (f64 c 0) ab (symKey ab kb) v ksn .pin m = .ok (m1, l) ∧ pinIn tag l 0 inF k pan blk m1 = .ok m2 ∧
    pinOf inF k pan blk = some pin ∧ pinOut tag (lineNo m2 ho) outF (symKey ao ko) pan pin m2 = .ok (m3, out)) := by
  refine ⟨
    ⟨0, 1, bench (withKeys unit [(attr 'T' 128 "P0" 'B' 0, zeroBytes 64), (attr 'T' 128 "P0" 'B' 0, zeroBytes 64)])
      (cmd 0x0201 (put 48 [(0, le64 (key 0)), (8, le64 (key 1)), (0x12, [12]), (0x16, [0x41, 0x11, 0x11, 0x11, 0x11,
      0x11, 0xFF, 0xFF, 0xFF, 0xFF])])), _, _, _, _, _, _, _, _, _, _, starts_of rfl ?_ ?_, ?_, ?_, ?_, eq_val ?_, ?_,
      ?_, ?_, eq_val ?_, eq_unit ?_, eq_val2 ?_, eq_val3 ?_, eq_unit ?_, eq_unit ?_, eq_unit ?_, eq_unit ?_, eq_unit
      ?_, eq_val ?_, ?_⟩,
    ⟨0, 1, bench (withKeys unit [(attr 'T' 128 "P0" 'B' 0, zeroBytes 64), (attr 'T' 128 "P0" 'B' 0, zeroBytes 64)]) ({
      cmd 0x0202 (put 48 [(0, le64 (key 0)), (0x12, [12]), (0x16, [0x41, 0x11, 0x11, 0x11, 0x11, 0x11, 0xFF, 0xFF,
      0xFF, 0xFF])]) with stage := 1, mem := [le64 (key 1) ++ zeroBytes 24] }), _, _, _, _, _, _, _, _, _, _,
      starts_of rfl ?_ ?_, ?_, ?_, ?_, eq_val ?_, ?_, ?_, ?_, eq_val ?_, eq_unit ?_, eq_val2 ?_, eq_val3 ?_, eq_unit
      ?_, eq_unit ?_, eq_unit ?_, eq_unit ?_, eq_unit ?_, eq_val ?_, ?_⟩,
    ⟨0, 1, bench (withKeys unit [(attr 'T' 128 "P0" 'B' 0, zeroBytes 64), (attr 'T' 128 "P0" 'B' 0, zeroBytes 64)])
      (cmd 0x0201 (put 48 [(0, le64 (key 0)), (8, le64 (key 1)), (0x12, [12]), (0x16, [0x41, 0x11, 0x11, 0x11, 0x11,
      0x11, 0xFF, 0xFF, 0xFF, 0xFF]), (0x20, [184, 224, 243, 191, 59, 239, 32, 92])])), _, _, _, _, _, _, _, _, _, _,
      [1, 2, 3, 4], _, _, starts_of rfl ?_ ?_, ?_, ?_, ?_, eq_val ?_, ?_, ?_, ?_, eq_val ?_, eq_unit ?_, eq_val2 ?_,
      eq_val3 ?_, eq_unit ?_, eq_unit ?_, eq_unit ?_, eq_unit ?_, eq_unit ?_, eq_val ?_, ?_, eq_val2 ?_⟩,
    ⟨0, 1, bench (withKeys unit [(attr 'T' 128 "P0" 'B' 0, zeroBytes 64), (attr 'T' 128 "P0" 'B' 0, zeroBytes 64)]) ({
      cmd 0x0202 (put 48 [(0, le64 (key 0)), (0x12, [12]), (0x16, [0x41, 0x11, 0x11, 0x11, 0x11, 0x11, 0xFF, 0xFF,
      0xFF, 0xFF]), (0x20, [184, 224, 243, 191, 59, 239, 32, 92])]) with
        stage := 1, mem := [le64 (key 1) ++ zeroBytes 24] }), _, _, _, _, _, _, _, _, _, _, [1, 2, 3, 4], _, _,
      starts_of rfl ?_ ?_, ?_, ?_, ?_, eq_val ?_, ?_, ?_, ?_, eq_val ?_, eq_unit ?_, eq_val2 ?_, eq_val3 ?_, eq_unit
      ?_, eq_unit ?_, eq_unit ?_, eq_unit ?_, eq_unit ?_, eq_val ?_, ?_, eq_val2 ?_⟩,
    ⟨0, 1, _, bench (withKeys unit [(attr 'T' 128 "B0" 'X' 0, zeroBytes 64), (attr 'T' 128 "P0" 'B' 0, zeroBytes 64)])
      (cmd 0x0301 (put 64 [(0, le64 (key 0)), (8, le64 (key 1)), (0x10, [1]), (0x13, [12]), (0x18, [0, 0, 0, 0, 0, 0,
      0, 0, 0, 1]), (0x26, [0x41, 0x11, 0x11, 0x11, 0x11, 0x11, 0xFF, 0xFF, 0xFF, 0xFF])])), _, _, _, _, _, _, _, _,
      _, _, _, starts_of rfl ?_ ?_, ?_, ?_, ?_, eq_val ?_, ?_, ?_, ?_, ?_, ?_, eq_val ?_, eq_unit ?_, eq_val2 ?_,
      eq_val3 ?_, eq_unit ?_, eq_unit ?_, eq_unit ?_, eq_unit ?_, eq_val2 ?_, eq_val ?_, ?_⟩,
    ⟨0, 1, _, bench (withKeys unit [(attr 'T' 128 "B0" 'X' 0, zeroBytes 64), (attr 'T' 128 "P0" 'B' 0, zeroBytes 64)])
      ({ cmd 0x0302 (put 64 [(0, le64 (key 0)), (0x10, [1]), (0x13, [12]), (0x18, [0, 0, 0, 0, 0, 0, 0, 0, 0, 1]),
      (0x26, [0x41, 0x11, 0x11, 0x11, 0x11, 0x11, 0xFF, 0xFF, 0xFF, 0xFF])]) with
        stage := 1, mem := [le64 (key 1) ++ zeroBytes 24] }), _, _, _, _, _, _, _, _, _, _, _, starts_of rfl ?_ ?_,
      ?_, ?_, ?_, eq_val ?_, ?_, ?_, ?_, ?_, ?_, eq_val ?_, eq_unit ?_, eq_val2 ?_, eq_val3 ?_, eq_unit ?_, eq_unit
      ?_, eq_unit ?_, eq_unit ?_, eq_val2 ?_, eq_val ?_, ?_⟩,
    ⟨0, 1, _, bench (withKeys unit [(attr 'T' 128 "B0" 'X' 0, zeroBytes 64), (attr 'T' 128 "P0" 'B' 0, zeroBytes 64)])
      (cmd 0x0301 (put 64 [(0, le64 (key 0)), (8, le64 (key 1)), (0x10, [1]), (0x13, [12]), (0x18, [0, 0, 0, 0, 0, 0,
      0, 0, 0, 1]), (0x26, [0x41, 0x11, 0x11, 0x11, 0x11, 0x11, 0xFF, 0xFF, 0xFF, 0xFF]), (0x30, [247, 22, 167, 153,
      215, 245, 47, 171])])), _, _, _, _, _, _, _, _, _, _, _, [1, 2, 3, 4], _, _, starts_of rfl ?_ ?_, ?_, ?_, ?_,
      eq_val ?_, ?_, ?_, ?_, ?_, ?_, eq_val ?_, eq_unit ?_, eq_val2 ?_, eq_val3 ?_, eq_unit ?_, eq_unit ?_, eq_unit
      ?_, eq_unit ?_, eq_val2 ?_, eq_val ?_, ?_, eq_val2 ?_⟩,
    ⟨0, 1, _, bench (withKeys unit [(attr 'T' 128 "B0" 'X' 0, zeroBytes 64), (attr 'T' 128 "P0" 'B' 0, zeroBytes 64)])
      ({ cmd 0x0302 (put 64 [(0, le64 (key 0)), (0x10, [1]), (0x13, [12]), (0x18, [0, 0, 0, 0, 0, 0, 0, 0, 0, 1]),
      (0x26, [0x41, 0x11, 0x11, 0x11, 0x11, 0x11, 0xFF, 0xFF, 0xFF, 0xFF]), (0x30, [247, 22, 167, 153, 215, 245, 47,
      171])]) with stage := 1, mem := [le64 (key 1) ++ zeroBytes 24] }), _, _, _, _, _, _, _, _, _, _, _, [1, 2, 3,
      4], _, _, starts_of rfl ?_ ?_, ?_, ?_, ?_, eq_val ?_, ?_, ?_, ?_, ?_, ?_, eq_val ?_, eq_unit ?_, eq_val2 ?_,
      eq_val3 ?_, eq_unit ?_, eq_unit ?_, eq_unit ?_, eq_unit ?_, eq_val2 ?_, eq_val ?_, ?_, eq_val2 ?_⟩⟩ <;> decide +kernel

theorem PinVerificationCompletes_met :
   (∃ (t tag : Nat) (s : State) (m m1 : Mod) (c : Cmd) (pan off : List Nat) (blk ak kk av kv : Bytes) (b : Budget),
    let hs := [f64 c 0, f64 c 8]
    let f := f8 c 0x10
    Starts 0x0203 t tag s m c ∧ offsetBody c = .ok (pan, blk) ∧ 4 ≤ f8 c 0x12 ∧ f8 c 0x12 ≤ 12 ∧
    bcdOf (fBytes c 0x2A 6) (f8 c 0x12) = some off ∧ useKey m tag c hs (f64 c 0) = .ok (ak, kk) ∧
    useKey m tag c hs (f64 c 8) = .ok (av, kv) ∧ keyIs ak ["P0"] ['D', 'B'] = .ok () ∧ fmtKey ak f = .ok () ∧
    keyIs av ["V1"] ['V', 'C'] = .ok () ∧ needCipher m = .ok () ∧ reserve m (f64 c 8) c.stamp = .ok b ∧
    pinIn tag (lineNo m (f64 c 0)) 0 f (symKey ak kk) pan blk m = .ok m1) ∧
   (∃ (t tag : Nat) (s : State) (m m1 m2 : Mod) (c : Cmd) (pan : List Nat) (blk ref ak kk ar kr : Bytes) (b :
    Budget),
    let f := f8 c 0x10
    let g := f8 c 0x11
    let hs := [f64 c 0, f64 c 8]
    Starts 0x0204 t tag s m c ∧ c.body.length = 64 ∧ fmtDefined f = true ∧ fmtDefined g = true ∧
    panOf c 0x12 0x16 = .ok pan ∧ allZero (fBytes c 0x13 3) = true ∧ pinField c f 0x20 = .ok blk ∧
    pinField c g 0x30 = .ok ref ∧ useKey m tag c hs (f64 c 0) = .ok (ak, kk) ∧
    useKey m tag c hs (f64 c 8) = .ok (ar, kr) ∧ keyIs ak ["P0"] ['D', 'B'] = .ok () ∧ fmtKey ak f = .ok () ∧
    keyIs ar ["P0"] ['D', 'B'] = .ok () ∧ fmtKey ar g = .ok () ∧ needCipher m = .ok () ∧
    reserve m (f64 c 8) c.stamp = .ok b ∧ pinIn tag (lineNo m (f64 c 0)) 0 f (symKey ak kk) pan blk m = .ok m1 ∧
    pinIn tag (lineNo m1 (f64 c 8)) 1 g (symKey ar kr) pan ref m1 = .ok m2) ∧
   (∃ (t tag : Nat) (s : State) (m m1 : Mod) (c : Cmd) (pan off : List Nat) (old new ref ak kk av kv : Bytes) (b :
    Budget),
    let f := f8 c 0x11
    let hs := [f64 c 0, f64 c 8]
    let ki := symKey ak kk
    Starts 0x0205 t tag s m c ∧ c.body.length = 96 ∧ f8 c 0x10 = 1 ∧ fmtDefined f = true ∧ f8 c 0x14 = 0 ∧
    panOf c 0x12 0x20 = .ok pan ∧ allZero (fBytes c 0x15 3) = true ∧ 4 ≤ f8 c 0x13 ∧ f8 c 0x13 ≤ 12 ∧
    allZero (fBytes c 0x50 16) = true ∧ bcdOf (fBytes c 0x2A 6) (f8 c 0x13) = some off ∧
    pinField c f 0x30 = .ok old ∧ pinField c f 0x40 = .ok new ∧ pinField c 4 0x50 = .ok ref ∧
    useKey m tag c hs (f64 c 0) = .ok (ak, kk) ∧ useKey m tag c hs (f64 c 8) = .ok (av, kv) ∧
    keyIs ak ["P0"] ['D', 'B'] = .ok () ∧ fmtKey ak f = .ok () ∧ keyIs av ["V1"] ['C'] = .ok () ∧
    needCipher m = .ok () ∧ reserve m (f64 c 8) c.stamp = .ok b ∧
    pinIn tag (lineNo m (f64 c 0)) 0 f ki pan old m = .ok m1) ∧
   (∃ (t tag : Nat) (s : State) (m m1 m2 : Mod) (c : Cmd) (pan : List Nat) (old new ref ak kk av kv : Bytes) (b :
    Budget),
    let f := f8 c 0x11
    let g := f8 c 0x14
    let hs := [f64 c 0, f64 c 8]
    let ki := symKey ak kk
    let kw := symKey av kv
    Starts 0x0205 t tag s m c ∧ c.body.length = 96 ∧ f8 c 0x10 = 2 ∧ fmtDefined f = true ∧ fmtDefined g = true ∧
    panOf c 0x12 0x20 = .ok pan ∧ allZero (fBytes c 0x15 3) = true ∧ f8 c 0x13 = 0 ∧
    allZero (fBytes c 0x18 8) = true ∧ allZero (fBytes c 0x2A 6) = true ∧ pinField c f 0x30 = .ok old ∧
    pinField c f 0x40 = .ok new ∧ pinField c g 0x50 = .ok ref ∧ fmtAllowed f g = .ok () ∧
    useKey m tag c hs (f64 c 0) = .ok (ak, kk) ∧ useKey m tag c hs (f64 c 8) = .ok (av, kv) ∧
    keyIs ak ["P0"] ['D', 'B'] = .ok () ∧ fmtKey ak f = .ok () ∧ keyIs av ["P0"] ['B'] = .ok () ∧
    fmtKey av g = .ok () ∧ needCipher m = .ok () ∧ reserve m (f64 c 8) c.stamp = .ok b ∧
    pinIn tag (lineNo m (f64 c 0)) 0 f ki pan old m = .ok m1 ∧
    pinIn tag (lineNo m1 (f64 c 8)) 1 g kw pan ref m1 = .ok m2) ∧
   (∃ (t tag : Nat) (s : State) (m m1 : Mod) (c : Cmd) (pan : List Nat) (blk ak kk av kv : Bytes),
    let hs := [f64 c 0, f64 c 8]
    let f := f8 c 0x10
    Starts 0x0206 t tag s m c ∧ offsetBody c = .ok (pan, blk) ∧ allZero (fBytes c 0x2A 6) = true ∧
    useKey m tag c hs (f64 c 0) = .ok (ak, kk) ∧ useKey m tag c hs (f64 c 8) = .ok (av, kv) ∧
    keyIs ak ["P0"] ['D', 'B'] = .ok () ∧ fmtKey ak f = .ok () ∧ keyIs av ["V1"] ['G', 'C'] = .ok () ∧
    needCipher m = .ok () ∧ pinIn tag (lineNo m (f64 c 0)) 0 f (symKey ak kk) pan blk m = .ok m1) := by
  refine ⟨
    ⟨0, 1, bench (withKeys (budgeted unit) [(attr 'T' 128 "P0" 'B' 0, zeroBytes 64), (attr 'T' 128 "V1" 'C' 0,
      zeroBytes 64)]) (cmd 0x0203 (put 64 [(0, le64 (key 0)), (8, le64 (key 1)), (0x11, [12, 4]), (0x20, [0x41, 0x11,
      0x11, 0x11, 0x11, 0x11, 0xFF, 0xFF, 0xFF, 0xFF]), (0x2A, [0x30, 0x38, 0xFF, 0xFF, 0xFF, 0xFF]), (0x30, [184,
      224, 243, 191, 59, 239, 32, 92])])), _, _, _, _, _, _, _, _, _, _, _, starts_of rfl ?_ ?_, eq_val2 ?_, ?_, ?_,
      rfl, eq_val2 ?_, eq_val2 ?_, eq_unit ?_, eq_unit ?_, eq_unit ?_, eq_unit ?_, eq_val ?_, eq_val ?_⟩,
    ⟨0, 1, bench (withKeys (budgeted unit) [(attr 'T' 128 "P0" 'B' 0, zeroBytes 64), (attr 'T' 128 "P0" 'B' 0,
      zeroBytes 64)]) (cmd 0x0204 (put 64 [(0, le64 (key 0)), (8, le64 (key 1)), (0x12, [12]), (0x16, [0x41, 0x11,
      0x11, 0x11, 0x11, 0x11, 0xFF, 0xFF, 0xFF, 0xFF]), (0x20, [184, 224, 243, 191, 59, 239, 32, 92]), (0x30, [184,
      224, 243, 191, 59, 239, 32, 92])])), _, _, _, _, _, _, _, _, _, _, _, _, starts_of rfl ?_ ?_, ?_, ?_, ?_, eq_val
      ?_, ?_, eq_val ?_, eq_val ?_, eq_val2 ?_, eq_val2 ?_, eq_unit ?_, eq_unit ?_, eq_unit ?_, eq_unit ?_, eq_unit
      ?_, eq_val ?_, eq_val ?_, eq_val ?_⟩,
    ⟨0, 1, bench (withKeys (budgeted unit) [(attr 'T' 128 "P0" 'B' 0, zeroBytes 64), (attr 'T' 128 "V1" 'C' 0,
      zeroBytes 64)]) (cmd 0x0205 (put 96 [(0, le64 (key 0)), (8, le64 (key 1)), (0x10, [1, 0, 12, 4]), (0x20, [0x41,
      0x11, 0x11, 0x11, 0x11, 0x11, 0xFF, 0xFF, 0xFF, 0xFF]), (0x2A, [0x30, 0x38, 0xFF, 0xFF, 0xFF, 0xFF]), (0x30,
      [184, 224, 243, 191, 59, 239, 32, 92]), (0x40, [184, 224, 243, 191, 59, 239, 32, 92])])), _, _, _, _, _, _, _,
      _, _, _, _, _, _, starts_of rfl ?_ ?_, ?_, ?_, ?_, ?_, eq_val ?_, ?_, ?_, ?_, ?_, rfl, eq_val ?_, eq_val ?_,
      eq_val ?_, eq_val2 ?_, eq_val2 ?_, eq_unit ?_, eq_unit ?_, eq_unit ?_, eq_unit ?_, eq_val ?_, eq_val ?_⟩,
    ⟨0, 1, bench (withKeys (budgeted unit) [(attr 'T' 128 "P0" 'B' 0, zeroBytes 64), (attr 'T' 128 "P0" 'B' 0,
      zeroBytes 64)]) (cmd 0x0205 (put 96 [(0, le64 (key 0)), (8, le64 (key 1)), (0x10, [2, 0, 12]), (0x20, [0x41,
      0x11, 0x11, 0x11, 0x11, 0x11, 0xFF, 0xFF, 0xFF, 0xFF]), (0x30, [184, 224, 243, 191, 59, 239, 32, 92]), (0x40,
      [184, 224, 243, 191, 59, 239, 32, 92]), (0x50, [184, 224, 243, 191, 59, 239, 32, 92])])), _, _, _, _, _, _, _,
      _, _, _, _, _, _, starts_of rfl ?_ ?_, ?_, ?_, ?_, ?_, eq_val ?_, ?_, ?_, ?_, ?_, eq_val ?_, eq_val ?_, eq_val
      ?_, eq_unit ?_, eq_val2 ?_, eq_val2 ?_, eq_unit ?_, eq_unit ?_, eq_unit ?_, eq_unit ?_, eq_unit ?_, eq_val ?_,
      eq_val ?_, eq_val ?_⟩,
    ⟨0, 1, bench (withKeys unit [(attr 'T' 128 "P0" 'B' 0, zeroBytes 64), (attr 'T' 128 "V1" 'C' 0, zeroBytes 64)])
      (cmd 0x0206 (put 64 [(0, le64 (key 0)), (8, le64 (key 1)), (0x11, [12]), (0x20, [0x41, 0x11, 0x11, 0x11, 0x11,
      0x11, 0xFF, 0xFF, 0xFF, 0xFF]), (0x30, [184, 224, 243, 191, 59, 239, 32, 92])])), _, _, _, _, _, _, _, _, _,
      starts_of rfl ?_ ?_, eq_val2 ?_, ?_, eq_val2 ?_, eq_val2 ?_, eq_unit ?_, eq_unit ?_, eq_unit ?_, eq_unit ?_,
      eq_val ?_⟩⟩ <;> decide +kernel

theorem PinBudgetsComplete_met :
   (∃ (t tag : Nat) (s : State) (m : Mod) (c : Cmd) (q : List Effect) (a k : Bytes),
    let h := f64 c 0
    let limit := f32 c 8
    let window := f32 c 12
    Starts 0x0210 t tag s m c ∧ c.body.length = 16 ∧ (limit = 0 ∨ (1 ≤ window ∧ window ≤ 86400)) ∧
    quorum m tag c clsPinBudget = .ok q ∧ useKey m tag c [h] h = .ok (a, k) ∧
    (aUsage a = ascii "V1" ∨ (aUsage a = ascii "P0" ∧ (aMode a = chr 'D' ∨ aMode a = chr 'B'))) ∧
    (tblFind (projDur m).bud h.toNat = none → limit ≠ 0 ∧ (projDur m).bud.length < budgetLimit)) ∧
   (∃ (t tag : Nat) (s : State) (m : Mod) (c : Cmd) (q : List Effect) (a k : Bytes),
    let h := f64 c 0
    let limit := f32 c 8
    let window := f32 c 12
    Starts 0x0210 t tag s m c ∧ c.body.length = 16 ∧ (limit = 0 ∨ (1 ≤ window ∧ window ≤ 86400)) ∧
    quorum m tag c clsPinBudget = .ok q ∧ useKey m tag c [h] h = .ok (a, k) ∧
    (aUsage a = ascii "V1" ∨ (aUsage a = ascii "P0" ∧ (aMode a = chr 'D' ∨ aMode a = chr 'B'))) ∧
    (tblFind (projDur m).bud h.toNat = none → limit ≠ 0 ∧ (projDur m).bud.length < budgetLimit)) ∧
   (∃ (window : Nat),
    1 ≤ window) ∧
   (∃ (t tag : Nat) (s : State) (m : Mod) (c : Cmd) (a k : Bytes) (b : Budget),
    Starts 0x0211 t tag s m c ∧ c.body.length = 8 ∧ useKey m tag c [f64 c 0] (f64 c 0) = .ok (a, k) ∧
    tblFind m.dur.bud (f64 c 0).toNat = some b) := by
  refine ⟨
    ⟨0, 1, bench (withKeys unit [(attr 'T' 128 "P0" 'B' 0, zeroBytes 64)]) (cmd 0x0210 (put 16 [(0, le64 (key 0)), (8,
      [3]), (12, [60])])), _, _, _, _, _, starts_of rfl ?_ ?_, ?_, ?_, eq_val ?_, eq_val2 ?_, ?_, ?_⟩,
    ⟨0, 1, bench (withKeys (budgeted unit) [(attr 'T' 128 "P0" 'B' 0, zeroBytes 64), (attr 'T' 128 "P0" 'B' 0,
      zeroBytes 64)]) (cmd 0x0210 (put 16 [(0, le64 (key 1)), (12, [60])])), _, _, _, _, _, starts_of rfl ?_ ?_, ?_,
      ?_, eq_val ?_, eq_val2 ?_, ?_, ?_⟩,
    ⟨1, ?_⟩,
    ⟨0, 1, bench (withKeys (budgeted unit) [(attr 'T' 128 "P0" 'B' 0, zeroBytes 64), (attr 'T' 128 "P0" 'B' 0,
      zeroBytes 64)]) (cmd 0x0211 (le64 (key 1))), _, _, _, _, {
        limit := 3, window := 60, current := 0, count := 0, spent := none }, starts_of rfl ?_ ?_, ?_, eq_val2 ?_, ?_⟩⟩ <;> decide +kernel

theorem MacCommandsComplete_met :
   (∃ (t tag l : Nat) (s : State) (m m1 m2 : Mod) (c : Cmd) (ab kb : Bytes),
    let v := f8 c 8
    let n := f8 c 9
    let ksn := fBytes c 0x10 12
    let d := c.body.drop 0x30
    let k := dukptKey v (aUsage ab == ascii "B0") (symKey ab kb) ksn true
    let mac := if v = 2 then cmac .aes k d else iso9797Alg3 k (padMethod1 8 d)
    Starts 0x0303 t tag s m c ∧ c.body.length = 0x30 + f16 c 0x0A ∧ (v = 1 ∨ v = 2) ∧ 4 ≤ n ∧
    n ≤ (if v = 1 then 8 else 16) ∧ 1 ≤ f16 c 0x0A ∧ f16 c 0x0A ≤ 4000 ∧ allZero (fBytes c 0x0C 4) = true ∧
    allZero (fBytes c 0x1C 4) = true ∧ ksnOk v ksn false = true ∧
    useKey m tag c [f64 c 0] (f64 c 0) = .ok (ab, kb) ∧ dukptBase ab kb v ksn false = .ok () ∧
    needCipher m = .ok () ∧ dukptLine tag (f64 c 0) ab (symKey ab kb) v ksn .mac m = .ok (m1, l) ∧
    macUnder tag l (ascii (if v = 2 then "M6" else "M3")) (aAlg ab) 1 d.length mac m1 = .ok m2) ∧
   (∃ (t tag : Nat) (s : State) (m m0 m1 : Mod) (c : Cmd) (q : List Effect) (ab kb ap kp : Bytes),
    let v := f8 c 0x10
    let ksn := fBytes c 0x18 12
    let hs := [f64 c 0, f64 c 8]
    let ik := dukptIk v (symKey ab kb) ksn
    let fill := drawn m0 32
    let blk := kbBuild (symKey ap kp)
      { usage := ascii "B1", alg := aAlg ab, mode := chr 'X', kvn := fBytes c 0x12 2, export_ := f8 c 0x11,
        opts := withPad [(ascii (if v = 2 then "IK" else "KS"), hexAscii (ksnId v ksn))] (fill.drop 16),
        key := ik } fill
    Starts 0x0310 t tag s m c ∧ c.body.length = 40 ∧ (v = 1 ∨ v = 2) ∧ (f8 c 0x11 = chr 'E' ∨ f8 c 0x11 = chr 'N') ∧
    allZero (fBytes c 0x14 4) = true ∧ allZero (fBytes c 0x24 4) = true ∧ ksnOk v ksn true = true ∧
    quorum m tag c clsKeyExport = .ok q ∧ useKey m tag c hs (f64 c 0) = .ok (ab, kb) ∧
    useKey m tag c hs (f64 c 8) = .ok (ap, kp) ∧ dukptBase ab kb v ksn true = .ok () ∧
    keyIs ap ["K1"] ['E', 'B'] = .ok () ∧ aTrusted ap = true ∧ needCipher m = .ok () ∧
    under tag (lineNo m (f64 c 0)) .ecbEnc (cipherOf ab) (if v = 2 then aLen ab / 128 else 2) (.scratch 0) ik m =
      .ok m0 ∧ blockUops tag (f64 c 8) true blk (kbPlain ik fill).length (afterDraw m0 32) = .ok m1 ∧ q = []) ∧
   (∃ (t tag : Nat) (s : State) (m m0 m1 : Mod) (c : Cmd) (q : List Effect) (ab kb ap kp : Bytes),
    let v := f8 c 0x10
    let ksn := fBytes c 0x18 12
    let hs := [f64 c 0, f64 c 8]
    let ik := dukptIk v (symKey ab kb) ksn
    let fill := drawn m0 32
    let blk := kbBuild (symKey ap kp)
      { usage := ascii "B1", alg := aAlg ab, mode := chr 'X', kvn := fBytes c 0x12 2, export_ := f8 c 0x11,
        opts := withPad [(ascii (if v = 2 then "IK" else "KS"), hexAscii (ksnId v ksn))] (fill.drop 16),
        key := ik } fill
    Starts 0x0310 t tag s m c ∧ c.body.length = 40 ∧ (v = 1 ∨ v = 2) ∧ (f8 c 0x11 = chr 'E' ∨ f8 c 0x11 = chr 'N') ∧
    allZero (fBytes c 0x14 4) = true ∧ allZero (fBytes c 0x24 4) = true ∧ ksnOk v ksn true = true ∧
    quorum m tag c clsKeyExport = .ok q ∧ useKey m tag c hs (f64 c 0) = .ok (ab, kb) ∧
    useKey m tag c hs (f64 c 8) = .ok (ap, kp) ∧ dukptBase ab kb v ksn true = .ok () ∧
    keyIs ap ["K1"] ['E', 'B'] = .ok () ∧ aTrusted ap = true ∧ needCipher m = .ok () ∧
    under tag (lineNo m (f64 c 0)) .ecbEnc (cipherOf ab) (if v = 2 then aLen ab / 128 else 2) (.scratch 0) ik m =
      .ok m0 ∧ blockUops tag (f64 c 8) true blk (kbPlain ik fill).length (afterDraw m0 32) = .ok m1 ∧ ¬ (q = [])) ∧
   (∃ (t tag : Nat) (s : State) (m m1 : Mod) (c : Cmd) (a k : Bytes) (h : W64),
    Starts 0x0401 t tag s m c ∧ macBody c false false = .ok () ∧
    useFollowed m tag c [] (f64 c 0) (f8 c 0x0D == 1) = .ok (h, a, k) ∧
    keyIs a ["M1", "M3", "M6"] ['G', 'C'] = .ok () ∧ macLimits a (f8 c 8) (f8 c 9) = .ok () ∧
    needCipher m = .ok () ∧ macBodyUnder tag c h a k m = .ok m1) ∧
   (∃ (t tag : Nat) (s : State) (m m1 : Mod) (c : Cmd) (a k : Bytes),
    Starts 0x0402 t tag s m c ∧ macBody c false true = .ok () ∧ useKey m tag c [f64 c 0] (f64 c 0) = .ok (a, k) ∧
    keyIs a ["M1", "M3", "M6"] ['V', 'C'] = .ok () ∧ macLimits a (f8 c 8) (f8 c 9) = .ok () ∧
    needCipher m = .ok () ∧ macBodyUnder tag c (f64 c 0) a k m = .ok m1) ∧
   (∃ (t tag : Nat) (s : State) (m m1 : Mod) (c : Cmd) (pan : List Nat) (a k : Bytes),
    let x := c.mem.headD []
    let h := recMacKey x
    Starts 0x0403 t tag s m c ∧ macBody c true true = .ok () ∧ panOf c 0x0C 0x20 = .ok pan ∧ c.stage ≠ 0 ∧
    useKey m tag c [h] h = .ok (a, k) ∧ keyIs a ["M1", "M3", "M6"] ['V', 'C'] = .ok () ∧
    macLimits a (f8 c 8) (f8 c 9) = .ok () ∧ needCipher m = .ok () ∧ macBodyUnder tag c h a k m = .ok m1 ∧
    macOk c a k = true) ∧
   (∃ (t tag : Nat) (s : State) (m m1 : Mod) (c : Cmd) (pan : List Nat) (a k : Bytes),
    let x := c.mem.headD []
    let h := recMacKey x
    Starts 0x0403 t tag s m c ∧ macBody c true true = .ok () ∧ panOf c 0x0C 0x20 = .ok pan ∧ c.stage ≠ 0 ∧
    useKey m tag c [h] h = .ok (a, k) ∧ keyIs a ["M1", "M3", "M6"] ['V', 'C'] = .ok () ∧
    macLimits a (f8 c 8) (f8 c 9) = .ok () ∧ needCipher m = .ok () ∧ macBodyUnder tag c h a k m = .ok m1 ∧
    macOk c a k = false ∧ successorOf m h c.stamp = none) ∧
   (∃ (t tag : Nat) (s : State) (m m1 : Mod) (c : Cmd) (pan : List Nat) (a k : Bytes) (n : W64) (a2 k2 : Bytes),
    let x := c.mem.headD []
    let h := recMacKey x
    Starts 0x0403 t tag s m c ∧ macBody c true true = .ok () ∧ panOf c 0x0C 0x20 = .ok pan ∧ c.stage ≠ 0 ∧
    useKey m tag c [h] h = .ok (a, k) ∧ keyIs a ["M1", "M3", "M6"] ['V', 'C'] = .ok () ∧
    macLimits a (f8 c 8) (f8 c 9) = .ok () ∧ needCipher m = .ok () ∧ macBodyUnder tag c h a k m = .ok m1 ∧
    macOk c a k = false ∧ successorOf m h c.stamp = some n ∧ keyHeld m tag c [h, n] n = .ok (a2, k2) ∧
    ((keyUse m n a2 c.stamp).isSome = true)) ∧
   (∃ (t tag : Nat) (s : State) (m m1 : Mod) (c : Cmd) (pan : List Nat) (a k : Bytes) (n : W64) (a2 k2 : Bytes) (m2
    : Mod),
    let x := c.mem.headD []
    let h := recMacKey x
    Starts 0x0403 t tag s m c ∧ macBody c true true = .ok () ∧ panOf c 0x0C 0x20 = .ok pan ∧ c.stage ≠ 0 ∧
    useKey m tag c [h] h = .ok (a, k) ∧ keyIs a ["M1", "M3", "M6"] ['V', 'C'] = .ok () ∧
    macLimits a (f8 c 8) (f8 c 9) = .ok () ∧ needCipher m = .ok () ∧ macBodyUnder tag c h a k m = .ok m1 ∧
    macOk c a k = false ∧ successorOf m h c.stamp = some n ∧ keyHeld m tag c [h, n] n = .ok (a2, k2) ∧
    keyUse m n a2 c.stamp = none ∧ macBodyUnder tag c n a2 k2 m1 = .ok m2) := by
  refine ⟨
    ⟨0, 1, _, bench (withKeys unit [(attr 'T' 128 "B0" 'X' 0, zeroBytes 64)]) (cmd 0x0303 (put 49 [(0, le64 (key 0)),
      (8, [1, 8, 1]), (0x10, [0, 0, 0, 0, 0, 0, 0, 0, 0, 1])])), _, _, _, _, _, _, starts_of rfl ?_ ?_, ?_, ?_, ?_,
      ?_, ?_, ?_, ?_, ?_, ?_, eq_val2 ?_, eq_unit ?_, eq_unit ?_, eq_val2 ?_, eq_val ?_⟩,
    ⟨0, 1, bench (withKeys unit [(attr 'T' 128 "B0" 'X' 0, zeroBytes 64), (mkAttr (chr 'A') 1 256 (ascii "K1") (chr
      'E') (chr 'S') (ascii "00") 0 0 t64Never, zeroBytes 64)]) (cmd 0x0310 (put 40 [(0, le64 (key 0)), (8, le64 (key
      1)), (0x10, [1, byteOf (chr 'E')])])), _, _, _, _, _, _, _, _, _, starts_of rfl ?_ ?_, ?_, ?_, ?_, ?_, ?_, ?_,
      eq_val ?_, eq_val2 ?_, eq_val2 ?_, eq_unit ?_, eq_unit ?_, ?_, eq_unit ?_, eq_val ?_, eq_val ?_, ?_⟩,
    ⟨0, 1, let c := cmd 0x0310 (put 40 [(0, le64 (key 0)), (8, le64 (key 1)), (0x10, [1, byteOf (chr 'E')])]); bench
      (approved (withKeys unit [(attr 'T' 128 "B0" 'X' 0, zeroBytes 64), (mkAttr (chr 'A') 1 256 (ascii "K1") (chr
      'E') (chr 'S') (ascii "00") 0 0 t64Never, zeroBytes 64)]) 5 clsKeyExport c) c, _, _, _, _, _, _, _, _, _,
      starts_of rfl ?_ ?_, ?_, ?_, ?_, ?_, ?_, ?_, eq_val ?_, eq_val2 ?_, eq_val2 ?_, eq_unit ?_, eq_unit ?_, ?_,
      eq_unit ?_, eq_val ?_, eq_val ?_, ?_⟩,
    ⟨0, 1, bench (withKeys unit [(attr 'A' 128 "M6" 'C' 0, zeroBytes 64)]) (cmd 0x0401 (put 49 [(0, le64 (key 0)), (8,
      [8]), (0x0A, [1])])), _, _, _, _, _, _, starts_of rfl ?_ ?_, eq_unit ?_, eq_val3 ?_, eq_unit ?_, eq_unit ?_,
      eq_unit ?_, eq_val ?_⟩,
    ⟨0, 1, bench (withKeys unit [(attr 'A' 128 "M6" 'C' 0, zeroBytes 64)]) (cmd 0x0402 (put 49 [(0, le64 (key 0)), (8,
      [8]), (0x0A, [1])])), _, _, _, _, _, starts_of rfl ?_ ?_, eq_unit ?_, eq_val2 ?_, eq_unit ?_, eq_unit ?_,
      eq_unit ?_, eq_val ?_⟩,
    ⟨0, 1, bench (withKeys unit [(attr 'A' 128 "M6" 'C' 0, zeroBytes 64)]) ({ cmd 0x0403 (put 49 [(8, [8]), (0x0A,
      [1]), (0x0C, [12]), (0x10, [0x1D, 0x2D, 0x33, 0x2E, 0x1B, 0xAB, 0xAA, 0xFF]), (0x20, [0x41, 0x11, 0x11, 0x11,
      0x11, 0x11, 0xFF, 0xFF, 0xFF, 0xFF])]) with stage := 1, mem := [zeroBytes 8 ++ le64 (key 0) ++ zeroBytes 16] }),
      _, _, _, _, _, _, starts_of rfl ?_ ?_, eq_unit ?_, eq_val ?_, ?_, eq_val2 ?_, eq_unit ?_, eq_unit ?_, eq_unit
      ?_, eq_val ?_, ?_⟩,
    ⟨0, 1, bench (withKeys unit [(attr 'A' 128 "M6" 'C' 0, zeroBytes 64)]) ({ cmd 0x0403 (put 49 [(8, [8]), (0x0A,
      [1]), (0x0C, [12]), (0x20, [0x41, 0x11, 0x11, 0x11, 0x11, 0x11, 0xFF, 0xFF, 0xFF, 0xFF])]) with
        stage := 1, mem := [zeroBytes 8 ++ le64 (key 0) ++ zeroBytes 16] }), _, _, _, _, _, _, starts_of rfl ?_ ?_,
      eq_unit ?_, eq_val ?_, ?_, eq_val2 ?_, eq_unit ?_, eq_unit ?_, eq_unit ?_, eq_val ?_, ?_, ?_⟩,
    ⟨0, 1, bench (withKeys (followed unit) [(attr 'A' 128 "M6" 'C' 0, zeroBytes 64), (mkAttr (chr 'A') 0 128 (ascii
      "M6") (chr 'C') (chr 'S') (ascii "00") 0 8 t64Never, zeroBytes 64)]) ({ cmd 0x0403 (put 49 [(8, [8]), (0x0A,
      [1]), (0x0C, [12]), (0x20, [0x41, 0x11, 0x11, 0x11, 0x11, 0x11, 0xFF, 0xFF, 0xFF, 0xFF])]) with
        stage := 1, mem := [zeroBytes 8 ++ le64 (key 0) ++ zeroBytes 16] }), _, _, _, _, _, _, key 1, _, _, starts_of
      rfl ?_ ?_, eq_unit ?_, eq_val ?_, ?_, eq_val2 ?_, eq_unit ?_, eq_unit ?_, eq_unit ?_, eq_val ?_, ?_, ?_, eq_val2
      ?_, ?_⟩,
    ⟨0, 1, bench (withKeys (followed unit) [(attr 'A' 128 "M6" 'C' 0, zeroBytes 64), (attr 'A' 128 "M6" 'C' 0,
      zeroBytes 64)]) ({ cmd 0x0403 (put 49 [(8, [8]), (0x0A, [1]), (0x0C, [12]), (0x20, [0x41, 0x11, 0x11, 0x11,
      0x11, 0x11, 0xFF, 0xFF, 0xFF, 0xFF])]) with stage := 1, mem := [zeroBytes 8 ++ le64 (key 0) ++ zeroBytes 16] }),
      _, _, _, _, _, _, key 1, _, _, _, starts_of rfl ?_ ?_, eq_unit ?_, eq_val ?_, ?_, eq_val2 ?_, eq_unit ?_,
      eq_unit ?_, eq_unit ?_, eq_val ?_, ?_, ?_, eq_val2 ?_, ?_, eq_val ?_⟩⟩ <;> decide +kernel

theorem EmvCodesAndTokensComplete_met :
   (∃ (t tag n : Nat) (s : State) (m m1 m2 : Mod) (c : Cmd) (aes : Bool) (sk d : Bytes),
    let arqc := fBytes c 0x1C 8
    let ok := (emvMac aes sk (f8 c 0x0C) d).take 8 = arqc
    Starts 0x0501 t tag s m c ∧
    emvCommon m tag c "E0" (if f8 c 0x0D = 1 then .macArpc else .mac) = .ok (m1, n, aes, sk, d) ∧
    emvMacUnder tag n aes sk (f8 c 0x0C) d m1 = .ok m2 ∧ ¬ok) ∧
   (∃ (t tag n : Nat) (s : State) (m m1 m2 : Mod) (c : Cmd) (aes : Bool) (sk d : Bytes),
    let arqc := fBytes c 0x1C 8
    let ok := (emvMac aes sk (f8 c 0x0C) d).take 8 = arqc
    Starts 0x0501 t tag s m c ∧
    emvCommon m tag c "E0" (if f8 c 0x0D = 1 then .macArpc else .mac) = .ok (m1, n, aes, sk, d) ∧
    emvMacUnder tag n aes sk (f8 c 0x0C) d m1 = .ok m2 ∧ ok ∧ f8 c 0x0D = 0) ∧
   (∃ (t tag n : Nat) (s : State) (m m1 m2 : Mod) (c : Cmd) (aes : Bool) (sk d : Bytes) (m3 : Mod),
    let arqc := fBytes c 0x1C 8
    let arpc := tdesEnc sk (xorBytes arqc (fBytes c 0x24 2 ++ zeroBytes 6))
    let ok := (emvMac aes sk (f8 c 0x0C) d).take 8 = arqc
    Starts 0x0501 t tag s m c ∧
    emvCommon m tag c "E0" (if f8 c 0x0D = 1 then .macArpc else .mac) = .ok (m1, n, aes, sk, d) ∧
    emvMacUnder tag n aes sk (f8 c 0x0C) d m1 = .ok m2 ∧ ok ∧ f8 c 0x0D = 1 ∧
    under tag n .ecbEnc .tdes 1 .data arpc m2 = .ok m3) ∧
   (∃ (t tag n : Nat) (s : State) (m m1 m2 : Mod) (c : Cmd) (aes : Bool) (sk d : Bytes) (m3 : Mod),
    let arqc := fBytes c 0x1C 8
    let d2 := arqc ++ fBytes c 0x24 4 ++ fBytes c 0x28 (f8 c 0x0E)
    let ok := (emvMac aes sk (f8 c 0x0C) d).take 8 = arqc
    Starts 0x0501 t tag s m c ∧
    emvCommon m tag c "E0" (if f8 c 0x0D = 1 then .macArpc else .mac) = .ok (m1, n, aes, sk, d) ∧
    emvMacUnder tag n aes sk (f8 c 0x0C) d m1 = .ok m2 ∧ ok ∧ f8 c 0x0D = 2 ∧
    emvMacUnder tag n aes sk 2 d2 m2 = .ok m3) ∧
   (∃ (t tag n : Nat) (s : State) (m m1 m2 : Mod) (c : Cmd) (aes : Bool) (sk d : Bytes),
    Starts 0x0502 t tag s m c ∧ emvCommon m tag c "E2" .mac = .ok (m1, n, aes, sk, d) ∧
    emvMacUnder tag n aes sk (f8 c 0x0C) d m1 = .ok m2) ∧
   (∃ (t tag n : Nat) (s : State) (m m1 m2 : Mod) (c : Cmd) (aes : Bool) (sk d : Bytes),
    let k : Cipher := if aes then .aes else .tdes
    let out := cbcEnc k sk (zeroBytes k.blockLen) d
    Starts 0x0503 t tag s m c ∧ emvCommon m tag c "E1" .conf = .ok (m1, n, aes, sk, d) ∧
    under tag n .cbcEnc k (d.length / k.blockLen) .data out m1 = .ok m2) ∧
   (∃ (t tag : Nat) (s : State) (m m2 : Mod) (c : Cmd) (pan exp svc : List Nat) (a k : Bytes),
    let line := copied m tag (chr 'T') .mac (symKey a k)
    Starts 0x0601 t tag s m c ∧ c.body.length = 32 ∧ panOf c 8 0x10 = .ok pan ∧ 3 ≤ f8 c 9 ∧ f8 c 9 ≤ 5 ∧
    bcdOf (fBytes c 0x0A 2) 4 = some exp ∧ bcdOf (fBytes c 0x0C 2) 3 = some svc ∧ allZero (fBytes c 0x0E 2) = true ∧
    allZero (fBytes c 0x1D 3) = true ∧ allZero (fBytes c 0x1A 3) = true ∧
    useKey m tag c [f64 c 0] (f64 c 0) = .ok (a, k) ∧ keyIs a ["C0"] ['G', 'C'] = .ok () ∧ needCipher m = .ok () ∧
    under tag line.2 .alg3 .tdes 2 .data [] line.1 = .ok m2) ∧
   (∃ (t tag : Nat) (s : State) (m m2 : Mod) (c : Cmd) (pan exp svc want : List Nat) (a k : Bytes),
    let line := copied m tag (chr 'T') .mac (symKey a k)
    Starts 0x0602 t tag s m c ∧ c.body.length = 32 ∧ panOf c 8 0x10 = .ok pan ∧ 3 ≤ f8 c 9 ∧ f8 c 9 ≤ 5 ∧
    bcdOf (fBytes c 0x0A 2) 4 = some exp ∧ bcdOf (fBytes c 0x0C 2) 3 = some svc ∧ allZero (fBytes c 0x0E 2) = true ∧
    allZero (fBytes c 0x1D 3) = true ∧ bcdOf (fBytes c 0x1A 3) (f8 c 9) = some want ∧
    useKey m tag c [f64 c 0] (f64 c 0) = .ok (a, k) ∧ keyIs a ["C0"] ['V', 'C'] = .ok () ∧ needCipher m = .ok () ∧
    under tag line.2 .alg3 .tdes 2 .data [] line.1 = .ok m2) ∧
   (∃ (t tag : Nat) (s : State) (m m1 : Mod) (c : Cmd) (d : List Nat) (a k : Bytes),
    let mid := (d.drop (f8 c 9)).take (d.length - f8 c 9 - f8 c 0x0A)
    let tweak := fBytes c 0x20 (f8 c 0x0B)
    let out := if false then ff1Dec (symKey a k) tweak mid else ff1Enc (symKey a k) tweak mid
    Starts (if false then 0x0702 else 0x0701) t tag s m c ∧ c.body.length = 48 ∧ panOf c 8 0x10 = .ok d ∧
    f8 c 9 ≤ 8 ∧ f8 c 0x0A ≤ 4 ∧ f8 c 0x0B ≤ 16 ∧ allZero (fBytes c 0x0C 4) = true ∧
    allZero (fBytes c 0x1A 6) = true ∧ f8 c 9 + f8 c 0x0A + 6 ≤ d.length ∧
    (false = true → c.sealKey.isSome = true) ∧ useKey m tag c [f64 c 0] (f64 c 0) = .ok (a, k) ∧
    keyIs a ["90"] (if false then ['D', 'B'] else ['E', 'B']) = .ok () ∧ needCipher m = .ok () ∧
    under tag (lineNo m (f64 c 0)) (if false then .ff1Dec else .ff1Enc) .aes (ff1Blocks tweak.length mid.length)
      (if false then .scratch 0 else .data) (bcdField 10 out) m = .ok m1) ∧
   (∃ (t tag : Nat) (s : State) (m m1 : Mod) (c : Cmd) (d : List Nat) (a k : Bytes),
    let mid := (d.drop (f8 c 9)).take (d.length - f8 c 9 - f8 c 0x0A)
    let tweak := fBytes c 0x20 (f8 c 0x0B)
    let out := if true then ff1Dec (symKey a k) tweak mid else ff1Enc (symKey a k) tweak mid
    Starts (if true then 0x0702 else 0x0701) t tag s m c ∧ c.body.length = 48 ∧ panOf c 8 0x10 = .ok d ∧
    f8 c 9 ≤ 8 ∧ f8 c 0x0A ≤ 4 ∧ f8 c 0x0B ≤ 16 ∧ allZero (fBytes c 0x0C 4) = true ∧
    allZero (fBytes c 0x1A 6) = true ∧ f8 c 9 + f8 c 0x0A + 6 ≤ d.length ∧ (true = true → c.sealKey.isSome = true) ∧
    useKey m tag c [f64 c 0] (f64 c 0) = .ok (a, k) ∧
    keyIs a ["90"] (if true then ['D', 'B'] else ['E', 'B']) = .ok () ∧ needCipher m = .ok () ∧
    under tag (lineNo m (f64 c 0)) (if true then .ff1Dec else .ff1Enc) .aes (ff1Blocks tweak.length mid.length)
      (if true then .scratch 0 else .data) (bcdField 10 out) m = .ok m1) := by
  refine ⟨
    ⟨0, 1, _, bench (withKeys unit [(attr 'A' 128 "E0" 'X' 0, zeroBytes 64)]) (cmd 0x0501 (put 57 [(0, le64 (key 0)),
      (8, [12]), (0x10, [0x41, 0x11, 0x11, 0x11, 0x11, 0x11, 0xFF, 0xFF, 0xFF, 0xFF]), (0x30, [1])])), _, _, _, _, _,
      _, _, starts_of rfl ?_ ?_, eq_val5 ?_, eq_val ?_, ?_⟩,
    ⟨0, 1, _, bench (withKeys unit [(attr 'A' 128 "E0" 'X' 0, zeroBytes 64)]) (cmd 0x0501 (put 57 [(0, le64 (key 0)),
      (8, [12]), (0x10, [0x41, 0x11, 0x11, 0x11, 0x11, 0x11, 0xFF, 0xFF, 0xFF, 0xFF]), (0x30, [1]), (0x1C, [88, 147,
      169, 7, 72, 180, 149, 47])])), _, _, _, _, _, _, _, starts_of rfl ?_ ?_, eq_val5 ?_, eq_val ?_, ?_, ?_⟩,
    ⟨0, 1, _, bench (withKeys unit [(attr 'T' 128 "E0" 'X' 0, zeroBytes 64)]) (cmd 0x0501 (put 57 [(0, le64 (key 0)),
      (8, [12]), (0x10, [0x41, 0x11, 0x11, 0x11, 0x11, 0x11, 0xFF, 0xFF, 0xFF, 0xFF]), (0x30, [1]), (0x0C, [1, 1]),
      (0x1C, [211, 242, 192, 228, 83, 166, 94, 85])])), _, _, _, _, _, _, _, _, starts_of rfl ?_ ?_, eq_val5 ?_,
      eq_val ?_, ?_, ?_, eq_val ?_⟩,
    ⟨0, 1, _, bench (withKeys unit [(attr 'A' 128 "E0" 'X' 0, zeroBytes 64)]) (cmd 0x0501 (put 57 [(0, le64 (key 0)),
      (8, [12]), (0x10, [0x41, 0x11, 0x11, 0x11, 0x11, 0x11, 0xFF, 0xFF, 0xFF, 0xFF]), (0x30, [1]), (0x0D, [2]),
      (0x1C, [88, 147, 169, 7, 72, 180, 149, 47])])), _, _, _, _, _, _, _, _, starts_of rfl ?_ ?_, eq_val5 ?_, eq_val
      ?_, ?_, ?_, eq_val ?_⟩,
    ⟨0, 1, _, bench (withKeys unit [(attr 'A' 128 "E2" 'X' 0, zeroBytes 64)]) (cmd 0x0502 (put 57 [(0, le64 (key 0)),
      (8, [12]), (0x10, [0x41, 0x11, 0x11, 0x11, 0x11, 0x11, 0xFF, 0xFF, 0xFF, 0xFF]), (0x30, [1]), (0x0F, [8])])), _,
      _, _, _, _, _, _, starts_of rfl ?_ ?_, eq_val5 ?_, eq_val ?_⟩,
    ⟨0, 1, _, bench (withKeys unit [(attr 'A' 128 "E1" 'X' 0, zeroBytes 64)]) (cmd 0x0503 (put 72 [(0, le64 (key 0)),
      (8, [12]), (0x10, [0x41, 0x11, 0x11, 0x11, 0x11, 0x11, 0xFF, 0xFF, 0xFF, 0xFF]), (0x30, [16])])), _, _, _, _, _,
      _, _, starts_of rfl ?_ ?_, eq_val5 ?_, eq_val ?_⟩,
    ⟨0, 1, bench (withKeys unit [(attr 'T' 128 "C0" 'C' 0, zeroBytes 64)]) (cmd 0x0601 (put 32 [(0, le64 (key 0)), (8,
      [12, 3]), (0x0A, [0x26, 0x12]), (0x0C, [0x10, 0x1F]), (0x10, [0x41, 0x11, 0x11, 0x11, 0x11, 0x11, 0xFF, 0xFF,
      0xFF, 0xFF])])), _, _, _, _, _, _, _, _, starts_of rfl ?_ ?_, ?_, eq_val ?_, ?_, ?_, rfl, rfl, ?_, ?_, ?_,
      eq_val2 ?_, eq_unit ?_, eq_unit ?_, eq_val ?_⟩,
    ⟨0, 1, bench (withKeys unit [(attr 'T' 128 "C0" 'C' 0, zeroBytes 64)]) (cmd 0x0602 (put 32 [(0, le64 (key 0)), (8,
      [12, 3]), (0x0A, [0x26, 0x12]), (0x0C, [0x10, 0x1F]), (0x10, [0x41, 0x11, 0x11, 0x11, 0x11, 0x11, 0xFF, 0xFF,
      0xFF, 0xFF]), (0x1A, [0x12, 0x3F, 0xFF])])), _, _, _, _, _, _, _, _, _, starts_of rfl ?_ ?_, ?_, eq_val ?_, ?_,
      ?_, rfl, rfl, ?_, ?_, rfl, eq_val2 ?_, eq_unit ?_, eq_unit ?_, eq_val ?_⟩,
    ⟨0, 1, bench (withKeys unit [(attr 'A' 128 "90" 'B' 0, zeroBytes 64)]) (cmd 0x0701 (put 48 [(0, le64 (key 0)), (8,
      [12, 2, 4]), (0x10, [0x41, 0x11, 0x11, 0x11, 0x11, 0x11, 0xFF, 0xFF, 0xFF, 0xFF])])), _, _, _, _, _, _,
      starts_of rfl ?_ ?_, ?_, eq_val ?_, ?_, ?_, ?_, ?_, ?_, ?_, ?_, eq_val2 ?_, eq_unit ?_, eq_unit ?_, eq_val ?_⟩,
    ⟨0, 1, bench (withKeys unit [(attr 'A' 128 "90" 'B' 0, zeroBytes 64)]) ({ cmd 0x0702 (put 48 [(0, le64 (key 0)),
      (8, [12, 2, 4]), (0x10, [0x41, 0x11, 0x11, 0x11, 0x11, 0x11, 0xFF, 0xFF, 0xFF, 0xFF])]) with
        sealKey := some [] }), _, _, _, _, _, _, starts_of rfl ?_ ?_, ?_, eq_val ?_, ?_, ?_, ?_, ?_, ?_, ?_, ?_,
      eq_val2 ?_, eq_unit ?_, eq_unit ?_, eq_val ?_⟩⟩ <;> decide +kernel

theorem BulkJobsComplete_met :
   (∃ (t tag : Nat) (s : State) (m : Mod) (c : Cmd) (a k : Bytes) (op : Nat) (i : Instr) (dec : Bool),
    ((op, i, dec) = (0x0801, .aeadEncrypt t tag, false) ∨ (op, i, dec) = (0x0802, .aeadDecrypt t tag, true) ∨ (op,
      i, dec) = (0x0803, .cipherEncrypt t tag, false) ∨ (op, i, dec) = (0x0804, .cipherDecrypt t tag, true)) ∧
    Starts op t tag s m c ∧ c.outcome = none ∧ jobBody c = .ok () ∧
    useKey m tag c [f64 c 0] (f64 c 0) = .ok (a, k) ∧
    keyIs a ["D0"] (if dec then ['B', 'D'] else ['B', 'E']) = .ok () ∧ aAlg a = chr 'A' ∧ needCipher m = .ok () ∧
    (jobReads c = true → blkServes m .hif = true)) ∧
   (∃ (t tag : Nat) (s : State) (m : Mod) (c : Cmd) (a k : Bytes) (op : Nat) (i : Instr) (dec : Bool),
    ((op, i, dec) = (0x0801, .aeadEncrypt t tag, false) ∨ (op, i, dec) = (0x0802, .aeadDecrypt t tag, true) ∨ (op,
      i, dec) = (0x0803, .cipherEncrypt t tag, false) ∨ (op, i, dec) = (0x0804, .cipherDecrypt t tag, true)) ∧
    Starts op t tag s m c ∧ c.outcome = none ∧ jobBody c = .ok () ∧
    useKey m tag c [f64 c 0] (f64 c 0) = .ok (a, k) ∧
    keyIs a ["D0"] (if dec then ['B', 'D'] else ['B', 'E']) = .ok () ∧ aAlg a = chr 'A' ∧ needCipher m = .ok () ∧
    (jobReads c = true → blkServes m .hif = true)) ∧
   (∃ (t tag : Nat) (s : State) (m : Mod) (c : Cmd) (a k : Bytes) (op : Nat) (i : Instr) (dec : Bool),
    ((op, i, dec) = (0x0801, .aeadEncrypt t tag, false) ∨ (op, i, dec) = (0x0802, .aeadDecrypt t tag, true) ∨ (op,
      i, dec) = (0x0803, .cipherEncrypt t tag, false) ∨ (op, i, dec) = (0x0804, .cipherDecrypt t tag, true)) ∧
    Starts op t tag s m c ∧ c.outcome = none ∧ jobBody c = .ok () ∧
    useKey m tag c [f64 c 0] (f64 c 0) = .ok (a, k) ∧
    keyIs a ["D0"] (if dec then ['B', 'D'] else ['B', 'E']) = .ok () ∧ aAlg a = chr 'A' ∧ needCipher m = .ok () ∧
    (jobReads c = true → blkServes m .hif = true)) ∧
   (∃ (t tag : Nat) (s : State) (m : Mod) (c : Cmd) (a k : Bytes) (op : Nat) (i : Instr) (dec : Bool),
    ((op, i, dec) = (0x0801, .aeadEncrypt t tag, false) ∨ (op, i, dec) = (0x0802, .aeadDecrypt t tag, true) ∨ (op,
      i, dec) = (0x0803, .cipherEncrypt t tag, false) ∨ (op, i, dec) = (0x0804, .cipherDecrypt t tag, true)) ∧
    Starts op t tag s m c ∧ c.outcome = none ∧ jobBody c = .ok () ∧
    useKey m tag c [f64 c 0] (f64 c 0) = .ok (a, k) ∧
    keyIs a ["D0"] (if dec then ['B', 'D'] else ['B', 'E']) = .ok () ∧ aAlg a = chr 'A' ∧ needCipher m = .ok () ∧
    (jobReads c = true → blkServes m .hif = true)) ∧
   (∃ (t tag : Nat) (s : State) (m : Mod) (c : Cmd) (a k : Bytes) (op : Nat) (i : Instr) (ver : Bool),
    ((op, i, ver) = (0x0A02, .hmacGenerate t tag, false) ∨ (op, i, ver) = (0x0A03, .hmacVerify t tag, true)) ∧
    Starts op t tag s m c ∧ c.outcome = none ∧ digestBody c = .ok () ∧
    useKey m tag c [f64 c 0] (f64 c 0) = .ok (a, k) ∧
    keyIs a ["M7"] (if ver then ['V', 'C'] else ['G', 'C']) = .ok () ∧ f8 c 8 ≤ (hmacAlg a).outLen ∧
    needBlk m .dge = .ok () ∧ (jobReads c = true → blkServes m .hif = true)) ∧
   (∃ (t tag : Nat) (s : State) (m : Mod) (c : Cmd) (a k : Bytes) (op : Nat) (i : Instr) (ver : Bool),
    ((op, i, ver) = (0x0A02, .hmacGenerate t tag, false) ∨ (op, i, ver) = (0x0A03, .hmacVerify t tag, true)) ∧
    Starts op t tag s m c ∧ c.outcome = none ∧ digestBody c = .ok () ∧
    useKey m tag c [f64 c 0] (f64 c 0) = .ok (a, k) ∧
    keyIs a ["M7"] (if ver then ['V', 'C'] else ['G', 'C']) = .ok () ∧ f8 c 8 ≤ (hmacAlg a).outLen ∧
    needBlk m .dge = .ok () ∧ (jobReads c = true → blkServes m .hif = true)) ∧
   (∃ (t tag : Nat) (s : State) (m : Mod) (c : Cmd),
    Starts 0x0A01 t tag s m c ∧ c.outcome = none ∧ digestBody c = .ok () ∧ needBlk m .dge = .ok () ∧
    (jobReads c = true → blkServes m .hif = true)) ∧
   (∃ (t tag : Nat) (s : State) (m : Mod) (c : Cmd) (op : Nat) (i : Instr) (st : W16) (res : Bytes),
    ((op, i) = (0x0801, .aeadEncrypt t tag) ∨ (op, i) = (0x0802, .aeadDecrypt t tag) ∨ (op, i) = (0x0803,
      .cipherEncrypt t tag) ∨ (op, i) = (0x0804, .cipherDecrypt t tag) ∨ (op, i) = (0x0A01, .digest t tag) ∨ (op, i)
      = (0x0A02, .hmacGenerate t tag) ∨ (op, i) = (0x0A03, .hmacVerify t tag)) ∧ Starts op t tag s m c ∧
    c.outcome = some (st, res)) ∧
   (∃ (t tag : Nat) (s : State) (m : Mod) (c : Cmd) (op : Nat) (i : Instr) (st : W16) (res : Bytes),
    ((op, i) = (0x0801, .aeadEncrypt t tag) ∨ (op, i) = (0x0802, .aeadDecrypt t tag) ∨ (op, i) = (0x0803,
      .cipherEncrypt t tag) ∨ (op, i) = (0x0804, .cipherDecrypt t tag) ∨ (op, i) = (0x0A01, .digest t tag) ∨ (op, i)
      = (0x0A02, .hmacGenerate t tag) ∨ (op, i) = (0x0A03, .hmacVerify t tag)) ∧ Starts op t tag s m c ∧
    c.outcome = some (st, res)) ∧
   (∃ (t tag : Nat) (s : State) (m : Mod) (c : Cmd) (op : Nat) (i : Instr) (st : W16) (res : Bytes),
    ((op, i) = (0x0801, .aeadEncrypt t tag) ∨ (op, i) = (0x0802, .aeadDecrypt t tag) ∨ (op, i) = (0x0803,
      .cipherEncrypt t tag) ∨ (op, i) = (0x0804, .cipherDecrypt t tag) ∨ (op, i) = (0x0A01, .digest t tag) ∨ (op, i)
      = (0x0A02, .hmacGenerate t tag) ∨ (op, i) = (0x0A03, .hmacVerify t tag)) ∧ Starts op t tag s m c ∧
    c.outcome = some (st, res)) ∧
   (∃ (t tag : Nat) (s : State) (m : Mod) (c : Cmd) (op : Nat) (i : Instr) (st : W16) (res : Bytes),
    ((op, i) = (0x0801, .aeadEncrypt t tag) ∨ (op, i) = (0x0802, .aeadDecrypt t tag) ∨ (op, i) = (0x0803,
      .cipherEncrypt t tag) ∨ (op, i) = (0x0804, .cipherDecrypt t tag) ∨ (op, i) = (0x0A01, .digest t tag) ∨ (op, i)
      = (0x0A02, .hmacGenerate t tag) ∨ (op, i) = (0x0A03, .hmacVerify t tag)) ∧ Starts op t tag s m c ∧
    c.outcome = some (st, res)) ∧
   (∃ (t tag : Nat) (s : State) (m : Mod) (c : Cmd) (op : Nat) (i : Instr) (st : W16) (res : Bytes),
    ((op, i) = (0x0801, .aeadEncrypt t tag) ∨ (op, i) = (0x0802, .aeadDecrypt t tag) ∨ (op, i) = (0x0803,
      .cipherEncrypt t tag) ∨ (op, i) = (0x0804, .cipherDecrypt t tag) ∨ (op, i) = (0x0A01, .digest t tag) ∨ (op, i)
      = (0x0A02, .hmacGenerate t tag) ∨ (op, i) = (0x0A03, .hmacVerify t tag)) ∧ Starts op t tag s m c ∧
    c.outcome = some (st, res)) ∧
   (∃ (t tag : Nat) (s : State) (m : Mod) (c : Cmd) (op : Nat) (i : Instr) (st : W16) (res : Bytes),
    ((op, i) = (0x0801, .aeadEncrypt t tag) ∨ (op, i) = (0x0802, .aeadDecrypt t tag) ∨ (op, i) = (0x0803,
      .cipherEncrypt t tag) ∨ (op, i) = (0x0804, .cipherDecrypt t tag) ∨ (op, i) = (0x0A01, .digest t tag) ∨ (op, i)
      = (0x0A02, .hmacGenerate t tag) ∨ (op, i) = (0x0A03, .hmacVerify t tag)) ∧ Starts op t tag s m c ∧
    c.outcome = some (st, res)) ∧
   (∃ (t tag : Nat) (s : State) (m : Mod) (c : Cmd) (op : Nat) (i : Instr) (st : W16) (res : Bytes),
    ((op, i) = (0x0801, .aeadEncrypt t tag) ∨ (op, i) = (0x0802, .aeadDecrypt t tag) ∨ (op, i) = (0x0803,
      .cipherEncrypt t tag) ∨ (op, i) = (0x0804, .cipherDecrypt t tag) ∨ (op, i) = (0x0A01, .digest t tag) ∨ (op, i)
      = (0x0A02, .hmacGenerate t tag) ∨ (op, i) = (0x0A03, .hmacVerify t tag)) ∧ Starts op t tag s m c ∧
    c.outcome = some (st, res)) ∧
   (∃ (t tag : Nat) (s : State) (m : Mod) (c : Cmd),
    Starts 0x0B01 t tag s m c ∧ c.body.length = 8 ∧ 1 ≤ f16 c 0 ∧ f16 c 0 ≤ 4048 ∧ allZero (fBytes c 2 6) = true ∧
    m.rng.halted = false) := by
  refine ⟨
    ⟨0, 1, bench (withKeys unit [(attr 'A' 256 "D0" 'B' 0, zeroBytes 64)]) (cmd 0x0801 (put 80 [(0, le64 (key 0)), (8,
      [3, 16, 12])])), _, _, _, _, 0x0801, .aeadEncrypt 0 1, false, ?_, starts_of rfl ?_ ?_, ?_, eq_unit ?_, eq_val2
      ?_, eq_unit ?_, ?_, eq_unit ?_, ?_⟩,
    ⟨0, 1, bench (withKeys unit [(attr 'A' 256 "D0" 'B' 0, zeroBytes 64)]) (cmd 0x0802 (put 80 [(0, le64 (key 0)), (8,
      [3, 16, 12])])), _, _, _, _, 0x0802, .aeadDecrypt 0 1, true, ?_, starts_of rfl ?_ ?_, ?_, eq_unit ?_, eq_val2
      ?_, eq_unit ?_, ?_, eq_unit ?_, ?_⟩,
    ⟨0, 1, bench (withKeys unit [(attr 'A' 256 "D0" 'B' 0, zeroBytes 64)]) (cmd 0x0803 (put 80 [(0, le64 (key 0)), (8,
      [1, 0, 16])])), _, _, _, _, 0x0803, .cipherEncrypt 0 1, false, ?_, starts_of rfl ?_ ?_, ?_, eq_unit ?_, eq_val2
      ?_, eq_unit ?_, ?_, eq_unit ?_, ?_⟩,
    ⟨0, 1, bench (withKeys unit [(attr 'A' 256 "D0" 'B' 0, zeroBytes 64)]) (cmd 0x0804 (put 80 [(0, le64 (key 0)), (8,
      [1, 0, 16])])), _, _, _, _, 0x0804, .cipherDecrypt 0 1, true, ?_, starts_of rfl ?_ ?_, ?_, eq_unit ?_, eq_val2
      ?_, eq_unit ?_, ?_, eq_unit ?_, ?_⟩,
    ⟨0, 1, bench (withKeys unit [(attr 'H' 256 "M7" 'C' 1, zeroBytes 64)]) (cmd 0x0A02 (put 24 [(0, le64 (key 0)), (8,
      [32])])), _, _, _, _, 0x0A02, .hmacGenerate 0 1, false, ?_, starts_of rfl ?_ ?_, ?_, eq_unit ?_, eq_val2 ?_,
      eq_unit ?_, ?_, eq_unit ?_, ?_⟩,
    ⟨0, 1, bench (withKeys unit [(attr 'H' 256 "M7" 'C' 1, zeroBytes 64)]) (cmd 0x0A03 (put 88 [(0, le64 (key 0)), (8,
      [32])])), _, _, _, _, 0x0A03, .hmacVerify 0 1, true, ?_, starts_of rfl ?_ ?_, ?_, eq_unit ?_, eq_val2 ?_,
      eq_unit ?_, ?_, eq_unit ?_, ?_⟩,
    ⟨0, 1, bench unit (cmd 0x0A01 (put 16 [(0, [1])])), _, _, starts_of rfl ?_ ?_, ?_, eq_unit ?_, eq_unit ?_, ?_⟩,
    ⟨0, 1, bench unit ({ cmd 0x0801 [] with outcome := some (stOk, []) }), _, _, 0x0801, .aeadEncrypt 0 1, stOk, [],
      ?_, starts_of rfl ?_ ?_, ?_⟩,
    ⟨0, 1, bench unit ({ cmd 0x0802 [] with outcome := some (stOk, []) }), _, _, 0x0802, .aeadDecrypt 0 1, stOk, [],
      ?_, starts_of rfl ?_ ?_, ?_⟩,
    ⟨0, 1, bench unit ({ cmd 0x0803 [] with outcome := some (stOk, []) }), _, _, 0x0803, .cipherEncrypt 0 1, stOk, [],
      ?_, starts_of rfl ?_ ?_, ?_⟩,
    ⟨0, 1, bench unit ({ cmd 0x0804 [] with outcome := some (stOk, []) }), _, _, 0x0804, .cipherDecrypt 0 1, stOk, [],
      ?_, starts_of rfl ?_ ?_, ?_⟩,
    ⟨0, 1, bench unit ({ cmd 0x0A01 [] with outcome := some (stOk, []) }), _, _, 0x0A01, .digest 0 1, stOk, [], ?_,
      starts_of rfl ?_ ?_, ?_⟩,
    ⟨0, 1, bench unit ({ cmd 0x0A02 [] with outcome := some (stOk, []) }), _, _, 0x0A02, .hmacGenerate 0 1, stOk, [],
      ?_, starts_of rfl ?_ ?_, ?_⟩,
    ⟨0, 1, bench unit ({ cmd 0x0A03 [] with outcome := some (stOk, []) }), _, _, 0x0A03, .hmacVerify 0 1, stOk, [],
      ?_, starts_of rfl ?_ ?_, ?_⟩,
    ⟨0, 1, bench unit (cmd 0x0B01 (put 8 [(0, [32])])), _, _, starts_of rfl ?_ ?_, ?_, ?_, ?_, ?_, ?_⟩⟩ <;> decide +kernel

theorem StreamCommandsComplete_met :
   (∃ (t tag : Nat) (s : State) (m : Mod) (c : Cmd) (a k : Bytes),
    let x := f8 c 0
    let y := strOf m c.tenant x
    Starts 0x0810 t tag s m c ∧ c.outcome = none ∧ c.body.length = 48 ∧ x ≤ 7 ∧ 1 ≤ f8 c 1 ∧ f8 c 1 ≤ 3 ∧
    f8 c 2 ≤ 1 ∧ f8 c 5 ≤ (if f8 c 1 = 3 then 1 else 0) ∧ (f8 c 1 = 3 → f8 c 2 = 0) ∧
    allZero (fBytes c 6 2) = true ∧ allZero (fBytes c 0x24 4) = true ∧
    modeLimits (f8 c 1) (f8 c 3) (f8 c 4) 0 = .ok () ∧ (f8 c 1 = 3 ∨ f32 c 0x20 = 0 ∧ f8 c 4 = 0) ∧
    f32 c 0x20 ≤ 65279 ∧ (f32 c 0x20 = 0 ↔ f64 c 0x28 = 0) ∧
    (f8 c 5 = 1 ∨ allZero (sliceOf c.body (0x10 + f8 c 3) (16 - f8 c 3)) = true) ∧ y.state = 0 ∧
    useKey m tag c [f64 c 8] (f64 c 8) = .ok (a, k) ∧ bulkKey a (f8 c 2 == 1) = .ok () ∧ needCipher m = .ok () ∧
    (jobReads c = true → blkServes m .hif = true)) ∧
   (∃ (t tag : Nat) (s : State) (m : Mod) (c : Cmd) (a k : Bytes) (op n : Nat) (i : Instr),
    let x := f8 c 0
    let y := strOf m c.tenant x
    ((op, i, n) = (0x0811, .streamUpdate t tag, f32 c 0x10) ∧ c.body.length = 40 ∧ allZero (fBytes c 1 7) = true ∧
      16 ≤ n ∧ n ≤ 1048576 ∧ n % 16 = 0 ∧ allZero (fBytes c 0x14 4) = true ∨ (op, i, n) = (0x0812, .streamFinal t
      tag, f8 c 1) ∧ c.body.length = 32 ∧ n ≤ 15 ∧ allZero (fBytes c 2 6) = true ∧ (y.mode = 1 → n = 0)) ∧
    Starts op t tag s m c ∧ c.outcome = none ∧ x ≤ 7 ∧ y.state = 1 ∧ f64 c 8 = BitVec.ofNat 64 y.bytes ∧
    (y.mode = 3 → y.bytes + n ≤ 2 ^ 36 - 32) ∧ useKey m tag c [y.key] y.key = .ok (a, k) ∧
    bulkKey a (y.dir == 1) = .ok () ∧ needCipher m = .ok () ∧ (jobReads c = true → blkServes m .hif = true)) ∧
   (∃ (t tag : Nat) (s : State) (m : Mod) (c : Cmd) (a k : Bytes) (op n : Nat) (i : Instr),
    let x := f8 c 0
    let y := strOf m c.tenant x
    ((op, i, n) = (0x0811, .streamUpdate t tag, f32 c 0x10) ∧ c.body.length = 40 ∧ allZero (fBytes c 1 7) = true ∧
      16 ≤ n ∧ n ≤ 1048576 ∧ n % 16 = 0 ∧ allZero (fBytes c 0x14 4) = true ∨ (op, i, n) = (0x0812, .streamFinal t
      tag, f8 c 1) ∧ c.body.length = 32 ∧ n ≤ 15 ∧ allZero (fBytes c 2 6) = true ∧ (y.mode = 1 → n = 0)) ∧
    Starts op t tag s m c ∧ c.outcome = none ∧ x ≤ 7 ∧ y.state = 1 ∧ f64 c 8 = BitVec.ofNat 64 y.bytes ∧
    (y.mode = 3 → y.bytes + n ≤ 2 ^ 36 - 32) ∧ useKey m tag c [y.key] y.key = .ok (a, k) ∧
    bulkKey a (y.dir == 1) = .ok () ∧ needCipher m = .ok () ∧ (jobReads c = true → blkServes m .hif = true)) ∧
   (∃ (t tag : Nat) (s : State) (m : Mod) (c : Cmd) (op : Nat) (i : Instr) (st : W16) (res : Bytes),
    ((op, i) = (0x0810, .streamOpen t tag) ∨ (op, i) = (0x0811, .streamUpdate t tag) ∨ (op, i) = (0x0812,
      .streamFinal t tag)) ∧ Starts op t tag s m c ∧ c.outcome = some (st, res)) ∧
   (∃ (t tag : Nat) (s : State) (m : Mod) (c : Cmd) (op : Nat) (i : Instr) (st : W16) (res : Bytes),
    ((op, i) = (0x0810, .streamOpen t tag) ∨ (op, i) = (0x0811, .streamUpdate t tag) ∨ (op, i) = (0x0812,
      .streamFinal t tag)) ∧ Starts op t tag s m c ∧ c.outcome = some (st, res)) ∧
   (∃ (t tag : Nat) (s : State) (m : Mod) (c : Cmd) (op : Nat) (i : Instr) (st : W16) (res : Bytes),
    ((op, i) = (0x0810, .streamOpen t tag) ∨ (op, i) = (0x0811, .streamUpdate t tag) ∨ (op, i) = (0x0812,
      .streamFinal t tag)) ∧ Starts op t tag s m c ∧ c.outcome = some (st, res)) ∧
   (∃ (t tag : Nat) (s : State) (m : Mod) (c : Cmd),
    let x := f8 c 0
    let y := strOf m c.tenant x
    Starts 0x0813 t tag s m c ∧ c.body.length = 8 ∧ x ≤ 7 ∧ allZero (fBytes c 1 7) = true ∧ y.state ≠ 0) := by
  refine ⟨
    ⟨0, 1, bench (withKeys unit [(attr 'A' 256 "D0" 'B' 0, zeroBytes 64)]) (cmd 0x0810 (put 48 [(1, [1, 0, 16]), (8,
      le64 (key 0))])), _, _, _, _, starts_of rfl ?_ ?_, ?_, ?_, ?_, ?_, ?_, ?_, ?_, ?_, ?_, ?_, eq_unit ?_, ?_, ?_,
      ?_, ?_, ?_, eq_val2 ?_, eq_unit ?_, eq_unit ?_, ?_⟩,
    ⟨0, 1, bench (withKeys { unit with
        sce := { SceState.reset with str := [(40, { Stream.reset with state := 1, mode := 1, key := key 0 })] } }
      [(attr 'A' 256 "D0" 'B' 0, zeroBytes 64)]) (cmd 0x0811 (put 40 [(0x10, [16]), (0x18, [1]), (0x20, [1])])), _, _,
      _, _, 0x0811, 16, .streamUpdate 0 1, ?_, starts_of rfl ?_ ?_, ?_, ?_, ?_, ?_, ?_, eq_val2 ?_, eq_unit ?_,
      eq_unit ?_, ?_⟩,
    ⟨0, 1, bench (withKeys { unit with
        sce := { SceState.reset with str := [(40, { Stream.reset with state := 1, mode := 1, key := key 0 })] } }
      [(attr 'A' 256 "D0" 'B' 0, zeroBytes 64)]) (cmd 0x0812 (put 32 [])), _, _, _, _, 0x0812, 0, .streamFinal 0 1,
      ?_, starts_of rfl ?_ ?_, ?_, ?_, ?_, ?_, ?_, eq_val2 ?_, eq_unit ?_, eq_unit ?_, ?_⟩,
    ⟨0, 1, bench unit ({ cmd 0x0810 [] with outcome := some (stOk, []) }), _, _, 0x0810, .streamOpen 0 1, stOk, [],
      ?_, starts_of rfl ?_ ?_, ?_⟩,
    ⟨0, 1, bench unit ({ cmd 0x0811 [] with outcome := some (stOk, []) }), _, _, 0x0811, .streamUpdate 0 1, stOk, [],
      ?_, starts_of rfl ?_ ?_, ?_⟩,
    ⟨0, 1, bench unit ({ cmd 0x0812 [] with outcome := some (stOk, []) }), _, _, 0x0812, .streamFinal 0 1, stOk, [],
      ?_, starts_of rfl ?_ ?_, ?_⟩,
    ⟨0, 1, bench { unit with sce := { SceState.reset with
        str := [(40, { Stream.reset with state := 1, mode := 1, key := key 0 })] } } (cmd 0x0813 (put 8 [])), _, _,
      starts_of rfl ?_ ?_, ?_, ?_, ?_, ?_⟩⟩ <;> decide +kernel

theorem StreamOrderIsHeld_met :
   ∃ (t tag : Nat) (s : State) (m : Mod) (c : Cmd),
    let x := f8 c 0
    let y := strOf m c.tenant x
    Starts 0x0811 t tag s m c ∧ c.outcome = none ∧ c.body.length = 40 ∧ x ≤ 7 ∧ allZero (fBytes c 1 7) = true ∧
    16 ≤ f32 c 0x10 ∧ f32 c 0x10 ≤ 1048576 ∧ f32 c 0x10 % 16 = 0 ∧ allZero (fBytes c 0x14 4) = true ∧
    (y.state ≠ 1 ∨ f64 c 8 ≠ BitVec.ofNat 64 y.bytes) := by
  refine ⟨0, 1, bench unit (cmd 0x0811 (put 40 [(0x10, [16]), (0x18, [1]), (0x20, [1])])), _, _, starts_of rfl ?_ ?_,
    ?_, ?_, ?_, ?_, ?_, ?_, ?_, ?_, ?_⟩ <;> decide +kernel

theorem PublicKeyCommandsComplete_met :
   (∃ (t tag : Nat) (s : State) (m : Mod) (c : Cmd) (op : Nat) (i : Instr) (q : List Effect),
    ((op, i) = (0x0901, .pkSign t tag) ∨ (op, i) = (0x0902, .pkVerify t tag) ∨ (op, i) = (0x0903, .pkEncrypt t
      tag) ∨ (op, i) = (0x0904, .pkDecrypt t tag) ∨ (op, i) = (0x0905, .pkKeygen t tag) ∨ (op, i) = (0x0906,
      .pkAgree t tag) ∨ (op, i) = (0x0907, .pkAgreeCheck t tag)) ∧ Starts op t tag s m c ∧ c.outcome = none ∧
    pkBody c = .ok () ∧ quorums m tag c (cmdDigest c) (pkClasses c) (projDur m) = .ok q ∧ needBlk m .pke = .ok () ∧
    (pkRandom c = true → m.rng.halted = false) ∧ (c.opcode = 0x0905 → (tenantOf m c.tenant).trk.isSome = true) ∧
    ((pkHandle c).bind (handleStatus m c.tenant) = none)) ∧
   (∃ (t tag : Nat) (s : State) (m : Mod) (c : Cmd) (op : Nat) (i : Instr) (q : List Effect),
    ((op, i) = (0x0901, .pkSign t tag) ∨ (op, i) = (0x0902, .pkVerify t tag) ∨ (op, i) = (0x0903, .pkEncrypt t
      tag) ∨ (op, i) = (0x0904, .pkDecrypt t tag) ∨ (op, i) = (0x0905, .pkKeygen t tag) ∨ (op, i) = (0x0906,
      .pkAgree t tag) ∨ (op, i) = (0x0907, .pkAgreeCheck t tag)) ∧ Starts op t tag s m c ∧ c.outcome = none ∧
    pkBody c = .ok () ∧ quorums m tag c (cmdDigest c) (pkClasses c) (projDur m) = .ok q ∧ needBlk m .pke = .ok () ∧
    (pkRandom c = true → m.rng.halted = false) ∧ (c.opcode = 0x0905 → (tenantOf m c.tenant).trk.isSome = true) ∧
    ((pkHandle c).bind (handleStatus m c.tenant) = none)) ∧
   (∃ (t tag : Nat) (s : State) (m : Mod) (c : Cmd) (op : Nat) (i : Instr) (q : List Effect),
    ((op, i) = (0x0901, .pkSign t tag) ∨ (op, i) = (0x0902, .pkVerify t tag) ∨ (op, i) = (0x0903, .pkEncrypt t
      tag) ∨ (op, i) = (0x0904, .pkDecrypt t tag) ∨ (op, i) = (0x0905, .pkKeygen t tag) ∨ (op, i) = (0x0906,
      .pkAgree t tag) ∨ (op, i) = (0x0907, .pkAgreeCheck t tag)) ∧ Starts op t tag s m c ∧ c.outcome = none ∧
    pkBody c = .ok () ∧ quorums m tag c (cmdDigest c) (pkClasses c) (projDur m) = .ok q ∧ needBlk m .pke = .ok () ∧
    (pkRandom c = true → m.rng.halted = false) ∧ (c.opcode = 0x0905 → (tenantOf m c.tenant).trk.isSome = true) ∧
    ((pkHandle c).bind (handleStatus m c.tenant) = none)) ∧
   (∃ (t tag : Nat) (s : State) (m : Mod) (c : Cmd) (op : Nat) (i : Instr) (q : List Effect),
    ((op, i) = (0x0901, .pkSign t tag) ∨ (op, i) = (0x0902, .pkVerify t tag) ∨ (op, i) = (0x0903, .pkEncrypt t
      tag) ∨ (op, i) = (0x0904, .pkDecrypt t tag) ∨ (op, i) = (0x0905, .pkKeygen t tag) ∨ (op, i) = (0x0906,
      .pkAgree t tag) ∨ (op, i) = (0x0907, .pkAgreeCheck t tag)) ∧ Starts op t tag s m c ∧ c.outcome = none ∧
    pkBody c = .ok () ∧ quorums m tag c (cmdDigest c) (pkClasses c) (projDur m) = .ok q ∧ needBlk m .pke = .ok () ∧
    (pkRandom c = true → m.rng.halted = false) ∧ (c.opcode = 0x0905 → (tenantOf m c.tenant).trk.isSome = true) ∧
    ((pkHandle c).bind (handleStatus m c.tenant) = none)) ∧
   (∃ (t tag : Nat) (s : State) (m : Mod) (c : Cmd) (op : Nat) (i : Instr) (q : List Effect),
    ((op, i) = (0x0901, .pkSign t tag) ∨ (op, i) = (0x0902, .pkVerify t tag) ∨ (op, i) = (0x0903, .pkEncrypt t
      tag) ∨ (op, i) = (0x0904, .pkDecrypt t tag) ∨ (op, i) = (0x0905, .pkKeygen t tag) ∨ (op, i) = (0x0906,
      .pkAgree t tag) ∨ (op, i) = (0x0907, .pkAgreeCheck t tag)) ∧ Starts op t tag s m c ∧ c.outcome = none ∧
    pkBody c = .ok () ∧ quorums m tag c (cmdDigest c) (pkClasses c) (projDur m) = .ok q ∧ needBlk m .pke = .ok () ∧
    (pkRandom c = true → m.rng.halted = false) ∧ (c.opcode = 0x0905 → (tenantOf m c.tenant).trk.isSome = true) ∧
    ((pkHandle c).bind (handleStatus m c.tenant) = none)) ∧
   (∃ (t tag : Nat) (s : State) (m : Mod) (c : Cmd) (op : Nat) (i : Instr) (q : List Effect),
    ((op, i) = (0x0901, .pkSign t tag) ∨ (op, i) = (0x0902, .pkVerify t tag) ∨ (op, i) = (0x0903, .pkEncrypt t
      tag) ∨ (op, i) = (0x0904, .pkDecrypt t tag) ∨ (op, i) = (0x0905, .pkKeygen t tag) ∨ (op, i) = (0x0906,
      .pkAgree t tag) ∨ (op, i) = (0x0907, .pkAgreeCheck t tag)) ∧ Starts op t tag s m c ∧ c.outcome = none ∧
    pkBody c = .ok () ∧ quorums m tag c (cmdDigest c) (pkClasses c) (projDur m) = .ok q ∧ needBlk m .pke = .ok () ∧
    (pkRandom c = true → m.rng.halted = false) ∧ (c.opcode = 0x0905 → (tenantOf m c.tenant).trk.isSome = true) ∧
    ((pkHandle c).bind (handleStatus m c.tenant) = none)) ∧
   (∃ (t tag : Nat) (s : State) (m : Mod) (c : Cmd) (op : Nat) (i : Instr) (q : List Effect),
    ((op, i) = (0x0901, .pkSign t tag) ∨ (op, i) = (0x0902, .pkVerify t tag) ∨ (op, i) = (0x0903, .pkEncrypt t
      tag) ∨ (op, i) = (0x0904, .pkDecrypt t tag) ∨ (op, i) = (0x0905, .pkKeygen t tag) ∨ (op, i) = (0x0906,
      .pkAgree t tag) ∨ (op, i) = (0x0907, .pkAgreeCheck t tag)) ∧ Starts op t tag s m c ∧ c.outcome = none ∧
    pkBody c = .ok () ∧ quorums m tag c (cmdDigest c) (pkClasses c) (projDur m) = .ok q ∧ needBlk m .pke = .ok () ∧
    (pkRandom c = true → m.rng.halted = false) ∧ (c.opcode = 0x0905 → (tenantOf m c.tenant).trk.isSome = true) ∧
    ((pkHandle c).bind (handleStatus m c.tenant) = none)) ∧
   (∃ (t tag : Nat) (s : State) (m : Mod) (c : Cmd) (op : Nat) (i : Instr) (st : W16) (res : Bytes),
    ((op, i) = (0x0901, .pkSign t tag) ∨ (op, i) = (0x0902, .pkVerify t tag) ∨ (op, i) = (0x0903, .pkEncrypt t
      tag) ∨ (op, i) = (0x0904, .pkDecrypt t tag) ∨ (op, i) = (0x0907, .pkAgreeCheck t tag)) ∧
    Starts op t tag s m c ∧ c.opcode = op ∧ c.outcome = some (st, res)) ∧
   (∃ (t tag : Nat) (s : State) (m : Mod) (c : Cmd) (op : Nat) (i : Instr) (st : W16) (res : Bytes),
    ((op, i) = (0x0901, .pkSign t tag) ∨ (op, i) = (0x0902, .pkVerify t tag) ∨ (op, i) = (0x0903, .pkEncrypt t
      tag) ∨ (op, i) = (0x0904, .pkDecrypt t tag) ∨ (op, i) = (0x0907, .pkAgreeCheck t tag)) ∧
    Starts op t tag s m c ∧ c.opcode = op ∧ c.outcome = some (st, res)) ∧
   (∃ (t tag : Nat) (s : State) (m : Mod) (c : Cmd) (op : Nat) (i : Instr) (st : W16) (res : Bytes),
    ((op, i) = (0x0901, .pkSign t tag) ∨ (op, i) = (0x0902, .pkVerify t tag) ∨ (op, i) = (0x0903, .pkEncrypt t
      tag) ∨ (op, i) = (0x0904, .pkDecrypt t tag) ∨ (op, i) = (0x0907, .pkAgreeCheck t tag)) ∧
    Starts op t tag s m c ∧ c.opcode = op ∧ c.outcome = some (st, res)) ∧
   (∃ (t tag : Nat) (s : State) (m : Mod) (c : Cmd) (op : Nat) (i : Instr) (st : W16) (res : Bytes),
    ((op, i) = (0x0901, .pkSign t tag) ∨ (op, i) = (0x0902, .pkVerify t tag) ∨ (op, i) = (0x0903, .pkEncrypt t
      tag) ∨ (op, i) = (0x0904, .pkDecrypt t tag) ∨ (op, i) = (0x0907, .pkAgreeCheck t tag)) ∧
    Starts op t tag s m c ∧ c.opcode = op ∧ c.outcome = some (st, res)) ∧
   (∃ (t tag : Nat) (s : State) (m : Mod) (c : Cmd) (op : Nat) (i : Instr) (st : W16) (res : Bytes),
    ((op, i) = (0x0901, .pkSign t tag) ∨ (op, i) = (0x0902, .pkVerify t tag) ∨ (op, i) = (0x0903, .pkEncrypt t
      tag) ∨ (op, i) = (0x0904, .pkDecrypt t tag) ∨ (op, i) = (0x0907, .pkAgreeCheck t tag)) ∧
    Starts op t tag s m c ∧ c.opcode = op ∧ c.outcome = some (st, res)) ∧
   (∃ (t tag : Nat) (s : State) (m : Mod) (c : Cmd) (res : Bytes) (q e1 e2 : List Effect) (h1 h2 : W64),
    let a := attrKept (fBytes c 0 32) 0
    Starts 0x0905 t tag s m c ∧ c.opcode = 0x0905 ∧ c.outcome = some (stOk, res) ∧
    quorums m tag c (cmdDigest c) (pkClasses c) (projDur m) = .ok q ∧ pendWrites m + 2 ≤ 4096 ∧
    createKey m (projDur m) c.tenant (kindFor a true) a (c.mem.getD 0 []) = .ok (e1, h1) ∧
    createKey m (e1.foldl effDur (projDur m)) c.tenant (kindFor a false) (pubAttr a) (c.mem.getD 1 []) = .ok (e2,
      h2)) ∧
   (∃ (t tag : Nat) (s : State) (m : Mod) (c : Cmd) (res : Bytes) (q effs : List Effect) (h : W64),
    let a := attrKept (fBytes c 0x10 32) 2
    let field := kdf (hmac .sha256 (fBytes c 0x30 32) (c.mem.getD 0 [])) "NKL-AGREE" (c.body.drop (0x50 + f16 c
      8)) (aLen a)
    Starts 0x0906 t tag s m c ∧ c.opcode = 0x0906 ∧ c.outcome = some (stOk, res) ∧
    quorums m tag c (cmdDigest c) (pkClasses c) (projDur m) = .ok q ∧
    createKey m (projDur m) c.tenant 1 a field = .ok (effs, h)) ∧
   (∃ (t tag : Nat) (s : State) (m : Mod) (c : Cmd),
    Starts 0x0910 t tag s m c ∧ c.body.length = 8 ∧ f64 c 0 ≠ 0) := by
  refine ⟨
    ⟨0, 1, bench unit (cmd 0x0901 (put 48 [(0, le64 pkKey), (8, [3, 1, 32])])), _, _, 0x0901, .pkSign 0 1, _, ?_,
      starts_of rfl ?_ ?_, ?_, eq_unit ?_, eq_val ?_, eq_unit ?_, ?_, ?_, pkHandle_ok ?_ rfl⟩,
    ⟨0, 1, bench unit (cmd 0x0902 (put 56 [(0, le64 pkKey), (8, [3, 1, 32])])), _, _, 0x0902, .pkVerify 0 1, _, ?_,
      starts_of rfl ?_ ?_, ?_, eq_unit ?_, eq_val ?_, eq_unit ?_, ?_, ?_, pkHandle_ok ?_ rfl⟩,
    ⟨0, 1, bench unit (cmd 0x0903 (put 16 [(0, le64 pkKey)])), _, _, 0x0903, .pkEncrypt 0 1, _, ?_, starts_of rfl ?_
      ?_, ?_, eq_unit ?_, eq_val ?_, eq_unit ?_, ?_, ?_, pkHandle_ok ?_ rfl⟩,
    ⟨0, 1, bench unit ({ cmd 0x0904 (put 16 [(0, le64 pkKey)]) with sealKey := some [] }), _, _, 0x0904, .pkDecrypt 0
      1, _, ?_, starts_of rfl ?_ ?_, ?_, eq_unit ?_, eq_val ?_, eq_unit ?_, ?_, ?_, pkHandle_ok ?_ rfl⟩,
    ⟨0, 1, bench unit (cmd 0x0905 (attr 'E' 256 "S0" 'S' 1)), _, _, 0x0905, .pkKeygen 0 1, _, ?_, starts_of rfl ?_ ?_,
      ?_, eq_unit ?_, eq_val ?_, eq_unit ?_, ?_, ?_, ?_⟩,
    ⟨0, 1, bench unit (cmd 0x0906 (put 80 [(0, le64 pkKey), (0x10, attr 'A' 256 "D0" 'B' 0)])), _, _, 0x0906, .pkAgree
      0 1, _, ?_, starts_of rfl ?_ ?_, ?_, eq_unit ?_, eq_val ?_, eq_unit ?_, ?_, ?_, pkHandle_ok ?_ rfl⟩,
    ⟨0, 1, bench unit (cmd 0x0907 (put 8 [(0, [1])])), _, _, 0x0907, .pkAgreeCheck 0 1, _, ?_, starts_of rfl ?_ ?_,
      ?_, eq_unit ?_, eq_val ?_, eq_unit ?_, ?_, ?_, ?_⟩,
    ⟨0, 1, bench unit ({ cmd 0x0901 [] with outcome := some (stOk, []) }), _, _, 0x0901, .pkSign 0 1, stOk, [], ?_,
      starts_of rfl ?_ ?_, ?_, ?_⟩,
    ⟨0, 1, bench unit ({ cmd 0x0902 [] with outcome := some (stOk, []) }), _, _, 0x0902, .pkVerify 0 1, stOk, [], ?_,
      starts_of rfl ?_ ?_, ?_, ?_⟩,
    ⟨0, 1, bench unit ({ cmd 0x0903 [] with outcome := some (stOk, []) }), _, _, 0x0903, .pkEncrypt 0 1, stOk, [], ?_,
      starts_of rfl ?_ ?_, ?_, ?_⟩,
    ⟨0, 1, bench unit ({ cmd 0x0904 [] with outcome := some (stOk, []) }), _, _, 0x0904, .pkDecrypt 0 1, stOk, [], ?_,
      starts_of rfl ?_ ?_, ?_, ?_⟩,
    ⟨0, 1, bench unit ({ cmd 0x0907 [] with outcome := some (stOk, []) }), _, _, 0x0907, .pkAgreeCheck 0 1, stOk, [],
      ?_, starts_of rfl ?_ ?_, ?_, ?_⟩,
    ⟨0, 1, bench unit ({ cmd 0x0905 (attr 'E' 256 "S0" 'S' 1) with outcome := some (stOk, []) }), _, _, [], _, _, _,
      _, _, starts_of rfl ?_ ?_, ?_, ?_, eq_val ?_, ?_, eq_val2 ?_, eq_val2 ?_⟩,
    ⟨0, 1, bench unit ({ cmd 0x0906 (put 80 [(0, le64 pkKey), (0x10, attr 'A' 256 "D0" 'B' 0)]) with
        outcome := some (stOk, []) }), _, _, [], _, _, _, starts_of rfl ?_ ?_, ?_, ?_, eq_val ?_, eq_val2 ?_⟩,
    ⟨0, 1, bench unit (cmd 0x0910 (put 8 [(0, [7])])), _, _, starts_of rfl ?_ ?_, ?_, ?_⟩⟩ <;> decide +kernel

theorem PublicKeyEventsComplete_met :
   (∃ (t : Nat) (s : State) (e : Nat) (w : PkWait) (rest : List PkWait) (c : Cmd),
    let m := s.now t
    m.pke.queue = w :: rest ∧ engFree m e = true ∧ (∀ i, i < e → engFree m i = false) ∧ cmdOf m w.tag = some c) ∧
   (∃ (t : Nat) (s : State) (tag l p : Nat) (c : Cmd),
    let m := s.now t
    cmdOf m tag = some c ∧ c.phase = .ready l p ∧ c.opcode / 256 = 9 ∧ c.opcode ≠ 0x0910 ∧ c.runs = 0 ∧
    c.outcome = none ∧ c.since + 4000000 ≤ m.clk) ∧
   (∃ (t : Nat) (s : State) (tag : Nat) (c : Cmd),
    let m := s.now t
    cmdOf m tag = some c ∧ c.phase = .pke ∧ lateFor m tag c ≤ m.clk ∧
    (∀ (e : Nat), engWith m tag = some e → lateFor m tag c < (engOf m e).first)) ∧
   (∃ (t : Nat) (s : State) (e : Nat) (fault : Bool) (c : Cmd),
    let m := s.now t
    let x := engOf m e
    let r := engOutcome m x c fault
    ((engOf m e).state = .loading) ∧ cmdOf m (engOf m e).tag = some c ∧
    (if slotPrivate x.slot ∧ x.slot ≠ 3 then m.clk = x.first + x.nominal else x.first ≤ m.clk ∧ m.clk ≤ x.first +
      (if (r.1 = stPkInputRange ∨ r.1 = stPkPointInvalid) ∧ x.slot ≠ 3 then min x.nominal 5000 else x.nominal))) ∧
   (∃ (t : Nat) (s : State) (e : Nat) (fault : Bool) (c : Cmd),
    let m := s.now t
    let x := engOf m e
    let r := engOutcome m x c fault
    ((engOf m e).state = .loading) ∧ cmdOf m (engOf m e).tag = some c ∧
    (if slotPrivate x.slot ∧ x.slot ≠ 3 then m.clk = x.first + x.nominal else x.first ≤ m.clk ∧ m.clk ≤ x.first +
      (if (r.1 = stPkInputRange ∨ r.1 = stPkPointInvalid) ∧ x.slot ≠ 3 then min x.nominal 5000 else x.nominal))) ∧
   (∃ (t : Nat) (s : State) (e : Nat),
    let m := s.now t
    ((engOf m e).state = .zeroing) ∧ ((engOf m e).since + 1280 ≤ m.clk)) ∧
   (∃ (t : Nat) (s : State) (e : Nat),
    let m := s.now t
    e < 64 ∧ engAvail m e = true ∧ inService m = true ∧
    ((engOf m e).state = .idle ∨ (engOf m e).state = .loading ∧ (engOf m e).slot = 3 ∧ (engOf m e).first ≤ m.clk ∧
      engPassed m e + 50000000 ≤ m.clk)) ∧
   (∃ (t : Nat) (s : State) (e : Nat),
    let m := s.now t
    e < 64 ∧ engAvail m e = true ∧ inService m = true ∧
    ((engOf m e).state = .idle ∨ (engOf m e).state = .loading ∧ (engOf m e).slot = 3 ∧ (engOf m e).first ≤ m.clk ∧
      engPassed m e + 50000000 ≤ m.clk)) ∧
   (∃ (x : Eng),
    slotPrivate x.slot = true) ∧
   (∃ (m : Mod) (x : Eng),
    x.slot = 3 ∧ m.clk = x.first + x.nominal) ∧
   (∃ (x : Eng),
    x.slot ≠ 3) := by
  refine ⟨
    ⟨0, plain (hasCmd { unit with pke := { PkeState.reset with
        avail := 1, queue := [{ tag := 1, late := 0, slot := 4, nominal := 0, mem := [], draws := [] }] } } (cmd
      0x0901 (put 48 [(8, [3, 1, 32])]))), 0, { tag := 1, late := 0, slot := 4, nominal := 0, mem := [], draws := []
                                                  }, [], cmd 0x0901 (put 48 [(8, [3, 1, 32])]), ?_, ?_, ?_, ?_⟩,
    ⟨0, plain (hasCmd { unit with clk := 4000000 } { cmd 0x0901 (put 48 [(8, [3, 1, 32])]) with
        phase := .ready 0 0, runs := 0 }), 1, 0, 0, { cmd 0x0901 (put 48 [(8, [3, 1, 32])]) with
          phase := .ready 0 0, runs := 0 }, ?_, ?_, ?_, ?_, ?_, ?_, ?_⟩,
    ⟨0, plain (hasCmd { unit with clk := 4500000 } { cmd 0x0901 (put 48 [(8, [3, 1, 32])]) with phase := .pke }), 1, {
      cmd 0x0901 (put 48 [(8, [3, 1, 32])]) with phase := .pke }, ?_, ?_, ?_, all_none ?_⟩,
    ⟨0, plain (hasCmd { unit with pke := { PkeState.reset with
        avail := 1, eng := [(0, { Eng.reset with state := .loading, tag := 1 })] } } (cmd 0x0901 (put 48 [(8, [3, 1,
      32])]))), 0, true, cmd 0x0901 (put 48 [(8, [3, 1, 32])]), ?_, ?_, ?_⟩,
    ⟨0, plain (hasCmd { unit with pke := { PkeState.reset with
        avail := 1, eng := [(0, { Eng.reset with state := .loading, tag := 1, slot := 4 })] } } (cmd 0x0901 (put 48
      [(8, [3, 1, 32])]))), 0, true, cmd 0x0901 (put 48 [(8, [3, 1, 32])]), ?_, ?_, ?_⟩,
    ⟨0, plain { unit with clk := 1280, pke := { PkeState.reset with
        avail := 1, eng := [(0, { Eng.reset with state := .zeroing, tag := 1 })] } }, 0, ?_, ?_⟩,
    ⟨0, plain { unit with pke := { PkeState.reset with
        avail := 1, eng := [(0, { Eng.reset with state := .idle, tag := 1 })] } }, 0, ?_, ?_, ?_, ?_⟩,
    ⟨0, plain { unit with clk := 50000000, pke := { PkeState.reset with
        avail := 1, eng := [(0, { Eng.reset with state := .loading, tag := 1, slot := 3 })] } }, 0, ?_, ?_, ?_, ?_⟩,
    ⟨{ Eng.reset with slot := 4 }, ?_⟩,
    ⟨Mod.reset, { Eng.reset with slot := 3 }, ?_, ?_⟩,
    ⟨Eng.reset, ?_⟩⟩ <;> decide +kernel

theorem RoutesComplete_met :
   (∃ (t tag : Nat) (s : State) (m : Mod) (c : Cmd),
    let x := fBytes c 8 32
    Starts 0x0C01 t tag s m c ∧ c.body.length = 40 ∧ allZero (fBytes c 2 6) = true ∧
    f16 c 0 < (tenOf m c.tenant).recCap ∧ getLe16 x 20 / 2 = 0 ∧ allZero (x.drop 22) = true ∧
    routesOpen m = .ok () ∧ recHandleOk m c.tenant (recPinKey x) = none ∧
    recHandleOk m c.tenant (recMacKey x) = none) ∧
   (∃ (t tag : Nat) (s : State) (m : Mod) (c : Cmd) (entries : List (List Nat × Option Nat)),
    let r := routesIn (projDur m) c.tenant
    let s0 := shadowOf r
    let y := entries.foldl (fun (a : Shadow × Nat) e => ((applyEntry a.1 e).1, if (applyEntry a.1 e).2 then a.2 +
      1 else a.2)) (s0, 0)
    let count := y.1.set.routes.length
    Starts 0x0C02 t tag s m c ∧ 1 ≤ f16 c 0 ∧ f16 c 0 ≤ 252 ∧ c.body.length = 8 + 16 * f16 c 0 ∧
    allZero (fBytes c 2 6) = true ∧
    ((chunks 16 (c.body.drop 8)).map (updEntry (tenOf m c.tenant).recCap) = entries.map some) ∧
    routesOpen m = .ok () ∧ (count ≤ (tenOf m c.tenant).routeCap ∨ count ≤ s0.set.routes.length) ∧ y.2 = 0) ∧
   (∃ (t tag : Nat) (s : State) (m : Mod) (c : Cmd) (entries : List (List Nat × Option Nat)),
    let r := routesIn (projDur m) c.tenant
    let s0 := shadowOf r
    let y := entries.foldl (fun (a : Shadow × Nat) e => ((applyEntry a.1 e).1, if (applyEntry a.1 e).2 then a.2 +
      1 else a.2)) (s0, 0)
    let count := y.1.set.routes.length
    let r1 := { r with shadow := some y.1 }
    Starts 0x0C02 t tag s m c ∧ 1 ≤ f16 c 0 ∧ f16 c 0 ≤ 252 ∧ c.body.length = 8 + 16 * f16 c 0 ∧
    allZero (fBytes c 2 6) = true ∧
    ((chunks 16 (c.body.drop 8)).map (updEntry (tenOf m c.tenant).recCap) = entries.map some) ∧
    routesOpen m = .ok () ∧ (count ≤ (tenOf m c.tenant).routeCap ∨ count ≤ s0.set.routes.length) ∧ ¬ (y.2 = 0) ∧
    routeRoom m (projDur m) c.tenant r1 = .ok ()) ∧
   (∃ (t tag : Nat) (s : State) (m : Mod) (c : Cmd),
    let r := routesIn (projDur m) c.tenant
    Starts 0x0C03 t tag s m c ∧ c.body = [] ∧ routesOpen m = .ok () ∧ differs r) ∧
   (∃ (t tag : Nat) (s : State) (m : Mod) (c : Cmd),
    let r := routesIn (projDur m) c.tenant
    Starts 0x0C03 t tag s m c ∧ c.body = [] ∧ routesOpen m = .ok () ∧ ¬ (differs r)) ∧
   (∃ (t tag : Nat) (s : State) (m : Mod) (c : Cmd),
    Starts 0x0C04 t tag s m c ∧ c.body = [] ∧ routesOpen m = .ok ()) ∧
   (∃ (t tag : Nat) (s : State) (m : Mod) (c : Cmd) (pan : List Nat),
    Starts 0x0C05 t tag s m c ∧ c.body.length = 16 ∧ panOf c 0 6 = .ok pan ∧ f8 c 1 ≤ 1 ∧
    allZero (fBytes c 2 4) = true ∧ needBlk m .rtb = .ok ()) ∧
   (∃ (t tag : Nat) (s : State) (m : Mod) (c : Cmd),
    Starts 0x0C06 t tag s m c ∧ c.body = [] ∧ needBlk m .rtb = .ok ()) ∧
   (∃ (t tag : Nat) (s : State) (m : Mod) (c : Cmd),
    Starts 0x0C10 t tag s m c ∧ c.body = [] ∧ routesOpen m = .ok ()) ∧
   (∃ (t : Nat) (s : State) (tag : Nat),
    let m := s.now t
    m.rtb.compacting = some tag) := by
  refine ⟨
    ⟨0, 1, bench unit (cmd 0x0C01 (put 40 [(24, [1])])), _, _, starts_of rfl ?_ ?_, ?_, ?_, ?_, ?_, ?_, eq_unit ?_,
      ?_, ?_⟩,
    ⟨0, 1, bench unit (cmd 0x0C02 (put 24 [(0, [1]), (8, [2, 6, 0, 0, 0x41, 0x11, 0x11, 0xFF, 0xFF, 0xFF, 0xFF, 0xFF,
      0xFF, 0xFF])])), _, _, [([4, 1, 1, 1, 1, 1], none)], starts_of rfl ?_ ?_, ?_, ?_, ?_, ?_, ?_, eq_unit ?_, ?_,
      ?_⟩,
    ⟨0, 1, bench unit (cmd 0x0C02 (put 24 [(0, [1]), (8, [1, 6, 0, 0, 0x41, 0x11, 0x11, 0xFF, 0xFF, 0xFF, 0xFF, 0xFF,
      0xFF, 0xFF])])), _, _, [([4, 1, 1, 1, 1, 1], some 0)], starts_of rfl ?_ ?_, ?_, ?_, ?_, ?_, ?_, eq_unit ?_, ?_,
      ?_, eq_unit ?_⟩,
    ⟨0, 1, bench { unit with dur := { unit.dur with
        rt := [(5, { Routes.none with
          shadow := some { set := { routes := [{ digits := [4], recno := 0 }], recs := [] }, copied := [], fresh := []
                             } })] } } (cmd 0x0C03 []), _, _, starts_of rfl ?_ ?_, ?_, eq_unit ?_, ?_⟩,
    ⟨0, 1, bench unit (cmd 0x0C03 []), _, _, starts_of rfl ?_ ?_, ?_, eq_unit ?_, ?_⟩,
    ⟨0, 1, bench unit (cmd 0x0C04 []), _, _, starts_of rfl ?_ ?_, ?_, eq_unit ?_⟩,
    ⟨0, 1, bench unit (cmd 0x0C05 (put 16 [(0, [12]), (6, [0x41, 0x11, 0x11, 0x11, 0x11, 0x11, 0xFF, 0xFF, 0xFF,
      0xFF])])), _, _, _, starts_of rfl ?_ ?_, ?_, eq_val ?_, ?_, ?_, eq_unit ?_⟩,
    ⟨0, 1, bench unit (cmd 0x0C06 []), _, _, starts_of rfl ?_ ?_, ?_, eq_unit ?_⟩,
    ⟨0, 1, bench unit (cmd 0x0C10 []), _, _, starts_of rfl ?_ ?_, ?_, eq_unit ?_⟩,
    ⟨0, plain { unit with rtb := { RtbState.reset with compacting := some 1 } }, 1, rfl⟩⟩ <;> decide +kernel

theorem ChallengesComplete_met :
   (∃ (t tag : Nat) (s : State) (m : Mod) (c : Cmd),
    let dom := pathDom c
    let d := projDur m
    Starts 0x0E01 t tag s m c ∧ c.body.length = 56 ∧ classDefined (f8 c 0) = true ∧ classDevice (f8 c 0) = c.admin ∧
    allZero (fBytes c 1 3) = true ∧ 1 ≤ f32 c 4 ∧ f32 c 4 ≤ 86400 ∧ needBlk m .dcu = .ok () ∧
    (serving m = true ∨ f8 c 0 = clsTwinPair) ∧ trustedAt m c.stamp = true ∧
    openChals (domainIn d dom) c.stamp < (if c.admin then 32 else 8) ∧ openAll d c.stamp < 4096 ∧
    m.rng.halted = false) ∧
   (∃ (t tag : Nat) (s : State) (m : Mod) (c : Cmd) (ch : Challenge),
    let dom := pathDom c
    Starts 0x0E02 t tag s m c ∧ c.stage = 0 ∧ c.body.length = 192 ∧ needBlk m .dcu = .ok () ∧
    approvalCheck m c.body c.stamp dom false = .ok ch) ∧
   (∃ (t tag : Nat) (s : State) (m : Mod) (c : Cmd) (ch : Challenge),
    let dom := pathDom c
    let x := domainIn m.dur dom
    Starts 0x0E03 t tag s m c ∧ c.body.length = 8 ∧ needBlk m .dcu = .ok () ∧
    (serving m = true ∨ ch.localOnly = true) ∧ tblFind x.chal (f64 c 0).toNat = some ch) ∧
   (∃ (t tag : Nat) (s : State) (m : Mod) (c : Cmd) (ch : Challenge),
    let dom := pathDom c
    let d := projDur m
    Starts 0x0E04 t tag s m c ∧ c.body.length = 8 ∧ needBlk m .dcu = .ok () ∧
    (serving m = true ∨ ch.localOnly = true) ∧ tblFind (domainIn d dom).chal (f64 c 0).toNat = some ch ∧
    ch.state = 0) ∧
   (∃ (t : Nat) (s : State) (id tag : Nat) (v : Verifying) (c : Cmd),
    let m := s.now t
    let m1 := { m with dcu := { m.dcu with verify := tblErase m.dcu.verify id } }
    tblFind m.dcu.verify id = some v ∧ v.tag = some tag ∧ v.port = none ∧ cmdOf m1 tag = some c) ∧
   (∃ (t : Nat) (s : State) (id p : Nat) (v : Verifying),
    let m := s.now t
    tblFind m.dcu.verify id = some v ∧ v.tag = none ∧ v.port = some p) ∧
   (∃ (t : Nat) (s : State) (dom id : Nat) (ch : Challenge),
    let m := s.now t
    tblFind (domainIn m.dur dom).chal id = some ch ∧ ch.state = 0 ∧ ch.ends.toNat ≤ (nowT m).toNat) ∧
   (∃ (t : Nat) (s : State) (id : Nat) (x : Ceremony),
    let m := s.now t
    tblFind m.dcu.cer id = some x ∧ x.ends.toNat ≤ (nowT m).toNat) ∧
   (∃ (t : Nat) (s : State) (w : W64 × W64),
    let m := s.now t
    m.dcu.maint = some w ∧ w.2.toNat ≤ (nowT m).toNat) := by
  refine ⟨
    ⟨0, 1, bench unit (cmd 0x0E01 (put 56 [(0, [1]), (4, [1])])), _, _, starts_of rfl ?_ ?_, ?_, ?_, ?_, ?_, ?_, ?_,
      eq_unit ?_, ?_, ?_, ?_, ?_, ?_⟩,
    ⟨0, 1, bench challenged (cmd 0x0E02 (put 192 [(0, [1, 1, 5, 0, 0, 1]), (8, [1])])), _, _, challenge, starts_of rfl
      ?_ ?_, ?_, ?_, eq_unit ?_, eq_ok ?_⟩,
    ⟨0, 1, bench challenged (cmd 0x0E03 (put 8 [(0, [1])])), _, _, challenge, starts_of rfl ?_ ?_, ?_, eq_unit ?_, ?_,
      ?_⟩,
    ⟨0, 1, bench challenged (cmd 0x0E04 (put 8 [(0, [1])])), _, _, challenge, starts_of rfl ?_ ?_, ?_, eq_unit ?_, ?_,
      ?_, ?_⟩,
    ⟨0, plain (hasCmd { challenged with
        dcu := { DcuState.reset with verify := [(0, {
          record := (put 192 [(0, [1, 1, 5, 0, 0, 1]), (8, [1])]), dom := 5, chal := 1, cust := 0, stamp := 0, tag :=
            some 1, port := none })] } } (cmd 0x0E02 [])), 0, 1, {
              record := (put 192 [(0, [1, 1, 5, 0, 0, 1]), (8, [1])]), dom := 5, chal := 1, cust := 0, stamp := 0, tag
                := some 1, port := none }, cmd 0x0E02 [], ?_, rfl, ?_, ?_⟩,
    ⟨0, plain { challenged with dcu := { DcuState.reset with
        verify := [(0, { record := (put 192 [(0, [1, 1, 5, 0, 0, 1]), (8, [1])]), dom := 5, chal := 1, cust := 0,
                         stamp := 0, tag := none, port := some 0 })] } }, 0, 0, {
                           record := (put 192 [(0, [1, 1, 5, 0, 0, 1]), (8, [1])]), dom := 5, chal := 1, cust := 0,
                           stamp := 0, tag := none, port := some 0 }, ?_, ?_, ?_⟩,
    ⟨0, plain { challenged with clk := 8 }, 5, 1, challenge, ?_, ?_, ?_⟩,
    ⟨0, plain { unit with clk := 8, dcu := { DcuState.reset with
        cer := [(1, { tenant := 5, trk := false, attr := [], parts := 2, kcv := [], opened := 0, ends := 8, acc := [],
                      given := [], armed := false })] } }, 1, {
                        tenant := 5, trk := false, attr := [], parts := 2, kcv := [], opened := 0, ends := 8, acc :=
                          [], given := [], armed := false }, ?_, ?_⟩,
    ⟨0, plain { unit with clk := 8, dcu := { DcuState.reset with maint := some (0, 8) } }, (0, 8), ?_, ?_⟩⟩ <;> decide +kernel

theorem CustodianCommandsComplete_met :
   (∃ (t tag : Nat) (s : State) (m : Mod) (c : Cmd) (key : Bytes) (sp : W64) (ch : Challenge),
    let dom := pathDom c
    let d := projDur m
    let x := domainIn d dom
    let proof := c.body.drop 0x70
    Starts 0x0E10 t tag s m c ∧ c.body.length = 304 ∧ f8 c 0 ≤ 15 ∧ allZero (fBytes c 1 7) = true ∧
    allZero (fBytes c 0x69 7) = true ∧ needBlk m .dcu = .ok () ∧ tblFind x.cust (f8 c 0) = none ∧
    p384Of (fBytes c 8 97) = some key ∧ (∀ p ∈ x.cust, p.2.key ≠ key) ∧
    (if dom = deviceDomain ∧ x.cust = [] then (m.dcu.proofs.find? (fun p => p.1 == proof)).map Prod.snd = some sp
      else sp = c.stamp) ∧ approvalCheck m proof sp dom true = .ok ch ∧ getNat8 proof 1 = 1 ∧
    apCust proof = f8 c 0 ∧ ch.cls = custClass c ∧ inWindow ch.opened ch.ends c.stamp = true ∧
    verifyingFor m dom (apChal proof) c.stamp = false ∧
    min (policyM d dom (custClass c)) x.cust.length ≤ counted x ch c.stamp) ∧
   (∃ (t tag : Nat) (s : State) (m : Mod) (c : Cmd) (q : List Effect),
    let dom := pathDom c
    let d := projDur m
    let d1 := q.foldl effDur d
    let x := domainIn d1 dom
    Starts 0x0E11 t tag s m c ∧ c.body.length = 8 ∧ allZero (fBytes c 1 7) = true ∧ needBlk m .dcu = .ok () ∧
    ((tblFind (domainIn d dom).cust (f8 c 0)).isSome = true) ∧ quorum m tag c (custClass c) = .ok q ∧
    (∀ k ∈ domClasses dom, policyM d1 dom k < x.cust.length)) ∧
   (∃ (t tag : Nat) (s : State) (m : Mod) (c : Cmd) (q : List Effect),
    let dom := pathDom c
    let d := projDur m
    let ks := domClasses dom
    let vs := c.body.map (fun b => b.toNat)
    let x := domainIn (q.foldl effDur d) dom
    Starts 0x0E12 t tag s m c ∧ c.body.length = 16 ∧ (∀ v ∈ vs, v ≤ 16) ∧ (∀ v ∈ vs.drop ks.length, v = 0) ∧
    needBlk m .dcu = .ok () ∧ quorum m tag c (custClass c) = .ok q ∧
    (∀ v ∈ vs.take ks.length, v ≤ x.cust.length ∧ (dom = deviceDomain → 2 ≤ v))) ∧
   (∃ (t tag : Nat) (s : State) (m : Mod) (c : Cmd),
    Starts 0x0E13 t tag s m c ∧ c.body = [] ∧ needBlk m .dcu = .ok ()) := by
  refine ⟨
    ⟨0, 1, bench { challenged with dur := { unit.dur with
        dom := [(5, { cust := [], m := [], chal := [(1, { challenge with cls := 8 })] })] } } (cmd 0x0E10 (put 304
      [(0, [3]), (8, point), (0x70, [1, 1, 5, 0, 3, 8]), (0x78, [1])])), _, _, _, 4, { challenge with cls := 8 },
      starts_of rfl ?_ ?_, ?_, ?_, ?_, ?_, eq_unit ?_, ?_, eq_get ?_, ?_, ?_, eq_ok ?_, ?_, ?_, ?_, ?_, ?_, ?_⟩,
    ⟨0, 1, bench (approved unit 5 clsCustodian (cmd 0x0E11 (put 8 []))) (cmd 0x0E11 (put 8 [])), _, _, _, starts_of
      rfl ?_ ?_, ?_, ?_, eq_unit ?_, ?_, eq_val ?_, ?_⟩,
    ⟨0, 1, bench (approved unit 5 clsCustodian (cmd 0x0E12 (put 16 [(0, [1, 2])]))) (cmd 0x0E12 (put 16 [(0, [1,
      2])])), _, _, _, starts_of rfl ?_ ?_, ?_, ?_, ?_, eq_unit ?_, eq_val ?_, ?_⟩,
    ⟨0, 1, bench unit (cmd 0x0E13 []), _, _, starts_of rfl ?_ ?_, ?_, eq_unit ?_⟩⟩ <;> decide +kernel

theorem CeremonyCommandsComplete_met :
   (∃ (t tag : Nat) (s : State) (m : Mod) (c : Cmd) (q : List Effect),
    let trk := f8 c 0 == 2
    let a := fBytes c 16 32
    Starts 0x0E20 t tag s m c ∧ c.body.length = 48 ∧ (f8 c 0 = 1 ∨ f8 c 0 = 2) ∧ 2 ≤ f8 c 1 ∧ f8 c 1 ≤ 16 ∧
    allZero (fBytes c 2 2) = true ∧ 1 ≤ f32 c 4 ∧ f32 c 4 ≤ 86400 ∧ allZero (fBytes c 11 5) = true ∧
    needBlk m .dcu = .ok () ∧ cerTarget m c (projDur m) = .ok () ∧
    quorums m tag c (cmdDigest c) (if trk then [(c.tenant, clsTenantRoot)] else createClasses c.tenant (aTrusted
      a)) (projDur m) = .ok q ∧ m.dcu.cer.length < 64) ∧
   (∃ (t tag : Nat) (s : State) (m : Mod) (c : Cmd),
    Starts 0x0E21 t tag s m c ∧ 16 ≤ c.body.length ∧ c.body.length = 16 + f16 c 8 ∧ allZero (fBytes c 10 6) = true ∧
    needBlk m .dcu = .ok ()) ∧
   (∃ (t tag : Nat) (s : State) (m : Mod) (c : Cmd) (x : Ceremony),
    Starts 0x0E22 t tag s m c ∧ c.body.length = 8 ∧ needBlk m .dcu = .ok () ∧
    tblFind m.dcu.cer (f64 c 0).toNat = some x ∧ x.tenant = c.tenant) ∧
   (∃ (t tag : Nat) (s : State) (m : Mod) (c : Cmd) (q : List Effect),
    Starts 0x0E30 t tag s m c ∧ c.body.length = 8 ∧ 60 ≤ f32 c 0 ∧ f32 c 0 ≤ 28800 ∧ allZero (fBytes c 4 4) = true ∧
    needBlk m .dcu = .ok () ∧ maintOpen m c.stamp = false ∧ quorum m tag c clsMaintenance = .ok q) ∧
   (∃ (t tag : Nat) (s : State) (m : Mod) (c : Cmd),
    Starts 0x0E31 t tag s m c ∧ c.body = [] ∧ needBlk m .dcu = .ok ()) := by
  refine ⟨
    ⟨0, 1, bench unit (cmd 0x0E20 (put 48 [(0, [1, 2]), (4, [1]), (16, attr 'A' 256 "D0" 'B' 0)])), _, _, _, starts_of
      rfl ?_ ?_, ?_, ?_, ?_, ?_, ?_, ?_, ?_, ?_, eq_unit ?_, eq_unit ?_, eq_val ?_, ?_⟩,
    ⟨0, 1, bench unit (cmd 0x0E21 (put 16 [])), _, _, starts_of rfl ?_ ?_, ?_, ?_, ?_, eq_unit ?_⟩,
    ⟨0, 1, bench { unit with dcu := { DcuState.reset with
        cer := [(1, { tenant := 5, trk := false, attr := [], parts := 2, kcv := [], opened := 0, ends := 8, acc := [],
                      given := [], armed := false })] } } (cmd 0x0E22 (put 8 [(0, [1])])), _, _, {
                        tenant := 5, trk := false, attr := [], parts := 2, kcv := [], opened := 0, ends := 8, acc :=
                          [], given := [], armed := false }, starts_of rfl ?_ ?_, ?_, eq_unit ?_, ?_, ?_⟩,
    ⟨0, 1, bench (approved unit deviceDomain clsMaintenance (admin 0x0E30 (put 8 [(0, [60])]))) (admin 0x0E30 (put 8
      [(0, [60])])), _, _, _, starts_of rfl ?_ ?_, ?_, ?_, ?_, ?_, eq_unit ?_, ?_, eq_val ?_⟩,
    ⟨0, 1, bench unit (admin 0x0E31 []), _, _, starts_of rfl ?_ ?_, ?_, eq_unit ?_⟩⟩ <;> decide +kernel

theorem CustodianFramesComplete_met :
   (∃ (t : Nat) (s : State) (f : CustFrame) (dom : Nat) (ch : Challenge),
    let m := s.now t
    let m1 := sendCust m f.port 1 [byteOf f.seq]
    portDom m f.port = some dom ∧ f.crcOk = true ∧ f.payload.length ≤ 1024 ∧ admits m = true ∧ m.devReady = true ∧
    portStop m1 dom = none ∧ (¬ (dom = deviceDomain ∧ (domainIn (projDur m1) dom).cust = [])) ∧
    approvalCheck m1 f.payload (nowT m1) dom false = .ok ch) ∧
   (∃ (t : Nat) (s : State) (f : CustFrame) (dom : Nat),
    let m := s.now t
    let m1 := sendCust m f.port 1 [byteOf f.seq]
    portDom m f.port = some dom ∧ f.crcOk = true ∧ f.payload.length ≤ 1024 ∧ admits m = true ∧ m.devReady = true ∧
    portStop m1 dom = none ∧ serving m1 = true) ∧
   (∃ (t : Nat) (s : State) (f : CustFrame) (dom sid : Nat),
    let m := s.now t
    let m1 := sendCust m f.port 1 [byteOf f.seq]
    let now := nowT m1
    let m2 := { m1 with dcu := { m1.dcu with sess := m1.dcu.sess.filter (fun p => decide (now.toNat <
      p.2.expiry.toNat)) } }
    portDom m f.port = some dom ∧ f.crcOk = true ∧ f.payload.length ≤ 1024 ∧ admits m = true ∧ m.devReady = true ∧
    portStop m1 dom = none ∧ serving m1 = true ∧ f.payload.length = 240 ∧ helloShape f.payload = true ∧
    getNat8 f.payload 0 ≤ 15 ∧ portStop m2 dom = none ∧ serving m2 = true ∧ freeCustSess m2 = some sid) ∧
   (∃ (t : Nat) (s : State) (f : CustFrame) (dom : Nat),
    let m := s.now t
    let m1 := sendCust m f.port 1 [byteOf f.seq]
    portDom m f.port = some dom ∧ f.crcOk = true ∧ f.payload.length ≤ 1024 ∧ admits m = true ∧ m.devReady = true ∧
    portStop m1 dom = none) ∧
   (∃ (t : Nat) (s : State) (f : CustFrame) (dom : Nat),
    let m := s.now t
    portDom m f.port = some dom ∧ f.crcOk = true ∧ f.payload.length = 1) ∧
   (∃ (t : Nat) (s : State) (p q a type tries : Nat) (data : Bytes),
    let m := s.now t
    ((custPortOf m p).sent.find? (fun e => e.1 == q && decide (e.2.2.2.1 + 2000000 ≤ m.clk)) = some (q, type,
      data, a, tries))) ∧
   (∃ (t : Nat) (s : State) (p : Nat) (up : Bool),
    let m := s.now t
    p < 8 ∧ ((custPortOf m p).link ≠ up)) := by
  refine ⟨
    ⟨0, plain (ported challenged), { port := 0, seq := 1, payload := put 192 [(0, [1, 1, 5, 0, 0, 1]), (8, [1])],
                                     crcOk := true }, 5, challenge, ?_, ?_, ?_, ?_, ?_, ?_, ?_, eq_ok ?_⟩,
    ⟨0, plain (ported unit), { port := 0, seq := 1, payload := [], crcOk := true }, 5, ?_, ?_, ?_, ?_, ?_, ?_, ?_⟩,
    ⟨0, plain (ported unit), { port := 0, seq := 1, payload := zeroBytes 240, crcOk := true }, 5, 1, ?_, ?_, ?_, ?_,
      ?_, ?_, ?_, ?_, ?_, ?_, ?_, ?_, ?_⟩,
    ⟨0, plain (ported unit), { port := 0, seq := 1, payload := [], crcOk := true }, 5, ?_, ?_, ?_, ?_, ?_, ?_⟩,
    ⟨0, plain (ported unit), { port := 0, seq := 1, payload := [0], crcOk := true }, 5, ?_, ?_, ?_⟩,
    ⟨0, plain { unit with clk := 2000000, dcu := { DcuState.reset with
        port := [(0, { CustPort.reset with sent := [(1, 6, [], 0, 1)] })] } }, 0, 1, 0, 6, 1, [], ?_⟩,
    ⟨0, plain unit, 7, true, ?_, ?_⟩⟩ <;> decide +kernel

theorem SessionsAndCredentialsComplete_met :
   (∃ (t tag : Nat) (s : State) (m : Mod) (c : Cmd) (k : Bytes),
    let d := projDur m
    let x := tenantIn d c.tenant
    let room := (sessOfTenant d c.tenant).length < (tenOf m c.tenant).sessCap ∧ d.sess.length < 65536
    Starts 0x0D01 t tag s m c ∧ c.outcome = none ∧ c.wasSealed = false ∧ c.session = 0 ∧ c.seq = 0 ∧ c.reqId = 0 ∧
    c.body.length = 240 ∧ f8 c 0 ≤ 31 ∧ helloShape c.body = true ∧ needBlk m .pke = .ok () ∧ m.rng.halted = false ∧
    room ∧ tblFind x.creds (f8 c 0) = some k) ∧
   (∃ (t tag : Nat) (s : State) (m : Mod) (c : Cmd) (st : W16) (r : Bytes),
    Starts 0x0D01 t tag s m c ∧ c.outcome = some (st, r) ∧ st ≠ stOk) ∧
   (∃ (t tag : Nat) (s : State) (m : Mod) (c : Cmd) (r q : Bytes),
    Starts 0x0D01 t tag s m c ∧ c.outcome = some (stOk, r) ∧ c.mem = [] ∧ helloEph c.body = some q ∧
    m.rng.halted = false) ∧
   (∃ (t tag : Nat) (s : State) (m : Mod) (c : Cmd) (r z p : Bytes) (key : Nat),
    let d := projDur m
    let room := (sessOfTenant d c.tenant).length < (tenOf m c.tenant).sessCap ∧ d.sess.length < 65536
    Starts 0x0D01 t tag s m c ∧ c.outcome = some (stOk, r) ∧ c.mem = [z, p] ∧ m.rng.halted = false ∧ room ∧
    m.khs.idKey = some key) ∧
   (∃ (t tag : Nat) (s : State) (m : Mod) (c : Cmd) (r head kc km sig k : Bytes),
    let d := projDur m
    let x := tenantIn d c.tenant
    let room := (sessOfTenant d c.tenant).length < (tenOf m c.tenant).sessCap ∧ d.sess.length < 65536
    Starts 0x0D01 t tag s m c ∧ c.outcome = some (stOk, r) ∧ c.mem = [head, kc, km, sig] ∧ room ∧
    tblFind x.creds (f8 c 0) = some k) ∧
   (∃ (t tag : Nat) (s : State) (m : Mod) (c : Cmd) (x : Session),
    let d := projDur m
    Starts 0x0D02 t tag s m c ∧ c.body.length = 8 ∧ allZero (fBytes c 2 6) = true ∧
    tblFind d.sess (sessKey c.tenant (f16 c 0)) = some x) ∧
   (∃ (t tag : Nat) (s : State) (m : Mod) (c : Cmd) (x : Session),
    Starts 0x0D03 t tag s m c ∧ c.body.length = 8 ∧ allZero (fBytes c 2 6) = true ∧
    tblFind m.dur.sess (sessKey c.tenant (f16 c 0)) = some x) ∧
   (∃ (t tag : Nat) (s : State) (m : Mod) (c : Cmd) (key : Bytes) (q : List Effect),
    let x := tenantIn (projDur m) c.tenant
    Starts 0x0D04 t tag s m c ∧ c.body.length = 112 ∧ f8 c 0 ≤ 31 ∧ allZero (fBytes c 1 7) = true ∧
    allZero (fBytes c 0x69 7) = true ∧ tblFind x.creds (f8 c 0) = none ∧ p384Of (fBytes c 8 97) = some key ∧
    (∀ p ∈ x.creds, p.2 ≠ key) ∧ credQuorum m tag c = .ok q) ∧
   (∃ (t tag : Nat) (s : State) (m : Mod) (c : Cmd) (q : List Effect),
    let x := tenantIn (projDur m) c.tenant
    Starts 0x0D05 t tag s m c ∧ c.body.length = 8 ∧ f8 c 0 ≤ 31 ∧ allZero (fBytes c 1 7) = true ∧
    ((tblFind x.creds (f8 c 0)).isSome = true) ∧ credQuorum m tag c = .ok q) ∧
   (∃ (t tag : Nat) (s : State) (m : Mod) (c : Cmd) (q : List Effect),
    Starts 0x0D06 t tag s m c ∧ c.body.length = 8 ∧ f8 c 0 ≤ 1 ∧ allZero (fBytes c 1 7) = true ∧
    quorum m tag c clsCustodian = .ok q) ∧
   (∃ (t tag : Nat) (s : State) (m : Mod) (c : Cmd),
    Starts 0x0D07 t tag s m c ∧ c.body = []) := by
  refine ⟨
    ⟨0, 1, bench (with5 (fun x => { x with creds := [(0, [])] })) (cmd 0x0D01 (put 240 [(0x28, point)])), _, _, [],
      starts_of rfl ?_ ?_, ?_, ?_, ?_, ?_, ?_, ?_, ?_, ?_, eq_unit ?_, ?_, ?_, ?_⟩,
    ⟨0, 1, bench unit ({ cmd 0x0D01 (put 240 [(0x28, point)]) with outcome := some (stVerifyFail, []) }), _, _,
      stVerifyFail, [], starts_of rfl ?_ ?_, ?_, ?_⟩,
    ⟨0, 1, bench unit ({ cmd 0x0D01 (put 240 [(0x28, point)]) with outcome := some (stOk, []) }), _, _, [], _,
      starts_of rfl ?_ ?_, ?_, ?_, eq_get ?_, ?_⟩,
    ⟨0, 1, bench { unit with khs := { unit.khs with idKey := some 1 } } ({ cmd 0x0D01 (put 240 [(0x28, point)]) with
        outcome := some (stOk, []), mem := [[], []] }), _, _, [], [], [], 1, starts_of rfl ?_ ?_, ?_, ?_, ?_, ?_, ?_⟩,
    ⟨0, 1, bench (with5 (fun x => { x with creds := [(0, [])] })) ({ cmd 0x0D01 (put 240 [(0x28, point)]) with
        outcome := some (stOk, []), mem := [[], [], [], []] }), _, _, [], [], [], [], [], [], starts_of rfl ?_ ?_, ?_,
      ?_, ?_, ?_⟩,
    ⟨0, 1, bench sessioned (cmd 0x0D02 (put 8 [(0, [1])])), _, _, session, starts_of rfl ?_ ?_, ?_, ?_, ?_⟩,
    ⟨0, 1, bench sessioned (cmd 0x0D03 (put 8 [(0, [1])])), _, _, session, starts_of rfl ?_ ?_, ?_, ?_, ?_⟩,
    ⟨0, 1, bench unit (cmd 0x0D04 (put 112 [(8, point)])), _, _, _, _, starts_of rfl ?_ ?_, ?_, ?_, ?_, ?_, ?_, eq_get
      ?_, ?_, eq_val ?_⟩,
    ⟨0, 1, bench (with5 (fun x => { x with creds := [(0, [])] })) (cmd 0x0D05 (put 8 [])), _, _, _, starts_of rfl ?_
      ?_, ?_, ?_, ?_, ?_, eq_val ?_⟩,
    ⟨0, 1, bench (approved unit 5 clsCustodian (cmd 0x0D06 (put 8 []))) (cmd 0x0D06 (put 8 [])), _, _, _, starts_of
      rfl ?_ ?_, ?_, ?_, ?_, eq_val ?_⟩,
    ⟨0, 1, bench unit (cmd 0x0D07 []), _, _, starts_of rfl ?_ ?_, ?_⟩⟩ <;> decide +kernel

theorem TenantCommandsComplete_met :
   (∃ (t tag : Nat) (s : State) (m : Mod) (c : Cmd) (key : Bytes) (q : List Effect) (id : Nat),
    let d := projDur m
    let n := f16 c 0
    Starts 0x0D10 t tag s m c ∧ c.body.length = 112 ∧ (n ≤ 0xFFF ∨ n = 0xFFFF) ∧ f8 c 2 ≤ 1 ∧ f8 c 3 ≤ 1 ∧
    allZero (fBytes c 4 4) = true ∧ allZero (fBytes c 0x69 7) = true ∧ p384Of (fBytes c 8 97) = some key ∧
    createId d n = .ok id ∧ quorum m tag c clsTenantAdmin = .ok q ∧ (f8 c 2 = 0 → m.rng.halted = false)) ∧
   (∃ (t tag : Nat) (s : State) (m : Mod) (c : Cmd) (q : List Effect),
    let d := projDur m
    let n := f16 c 0
    let x := tenantIn d n
    let m1 := if x.state = .active then startDrain m n else m
    Starts 0x0D11 t tag s m c ∧ c.body.length = 8 ∧ n ≤ 0xFFF ∧ allZero (fBytes c 2 6) = true ∧
    (c.stage = 0 → x.state ≠ .closed ∧ (tenOf m n).draining = false) ∧ quorum m tag c clsTenantAdmin = .ok q ∧
    tagsOf m1 n = 0) ∧
   (∃ (t tag : Nat) (s : State) (m : Mod) (c : Cmd) (q : List Effect),
    let d := projDur m
    let n := f16 c 0
    let x := tenantIn d n
    let m1 := if x.state = .active then startDrain m n else m
    Starts 0x0D11 t tag s m c ∧ c.body.length = 8 ∧ n ≤ 0xFFF ∧ allZero (fBytes c 2 6) = true ∧
    (c.stage = 0 → x.state ≠ .closed ∧ (tenOf m n).draining = false) ∧ quorum m tag c clsTenantAdmin = .ok q ∧
    ¬ (tagsOf m1 n = 0)) ∧
   (∃ (t tag : Nat) (s : State) (m : Mod) (c : Cmd) (q : List Effect),
    let d := projDur m
    let n := f16 c 0
    let x := tenantIn d n
    Starts 0x0D12 t tag s m c ∧ c.body.length = 8 ∧ n ≤ 0xFFF ∧ f8 c 2 ≤ 1 ∧ allZero (fBytes c 3 5) = true ∧
    (x.state = .active ∨ x.state = .frozen) ∧ x.trk.isSome = true ∧ epochBits d n < 127 ∧
    quorums m tag c (cmdDigest c) [(deviceDomain, clsTenantAdmin), (n, clsTenantRoot)] d = .ok q ∧ f8 c 2 = 0 ∧
    m.rng.halted = false) ∧
   (∃ (t tag : Nat) (s : State) (m : Mod) (c : Cmd) (q : List Effect),
    let d := projDur m
    let n := f16 c 0
    let x := tenantIn d n
    Starts 0x0D12 t tag s m c ∧ c.body.length = 8 ∧ n ≤ 0xFFF ∧ f8 c 2 ≤ 1 ∧ allZero (fBytes c 3 5) = true ∧
    (x.state = .active ∨ x.state = .frozen) ∧ x.trk.isSome = true ∧ epochBits d n < 127 ∧
    quorums m tag c (cmdDigest c) [(deviceDomain, clsTenantAdmin), (n, clsTenantRoot)] d = .ok q ∧ f8 c 2 = 1) ∧
   (∃ (t tag : Nat) (s : State) (m : Mod) (c : Cmd),
    let d := projDur m
    let n := f16 c 0
    let x := tenantIn d n
    let m1 := startDrain m n
    Starts 0x0D13 t tag s m c ∧ c.body.length = 8 ∧ n ≤ 0xFFF ∧ allZero (fBytes c 2 6) = true ∧
    (c.stage = 0 → x.state = .active ∧ (tenOf m n).draining = false) ∧ tagsOf m1 n = 0) ∧
   (∃ (t tag : Nat) (s : State) (m : Mod) (c : Cmd),
    let d := projDur m
    let n := f16 c 0
    let x := tenantIn d n
    let m1 := startDrain m n
    Starts 0x0D13 t tag s m c ∧ c.body.length = 8 ∧ n ≤ 0xFFF ∧ allZero (fBytes c 2 6) = true ∧
    (c.stage = 0 → x.state = .active ∧ (tenOf m n).draining = false) ∧ ¬ (tagsOf m1 n = 0)) ∧
   (∃ (t tag : Nat) (s : State) (m : Mod) (c : Cmd),
    let d := projDur m
    let n := f16 c 0
    let x := tenantIn d n
    Starts 0x0D14 t tag s m c ∧ c.body.length = 8 ∧ n ≤ 0xFFF ∧ allZero (fBytes c 2 6) = true ∧
    (x.state = .frozen ∨ x.state = .restoring) ∧ x.migratedOut = false) := by
  refine ⟨
    ⟨0, 1, bench (approved unit deviceDomain clsTenantAdmin (admin 0x0D10 (put 112 [(0, [6]), (8, point)]))) (admin
      0x0D10 (put 112 [(0, [6]), (8, point)])), _, _, _, _, 6, starts_of rfl ?_ ?_, ?_, ?_, ?_, ?_, ?_, ?_, eq_get ?_,
      eq_ok ?_, eq_val ?_, ?_⟩,
    ⟨0, 1, bench (approved unit deviceDomain clsTenantAdmin (admin 0x0D11 (put 8 [(0, [5])]))) (admin 0x0D11 (put 8
      [(0, [5])])), _, _, _, starts_of rfl ?_ ?_, ?_, ?_, ?_, ?_, eq_val ?_, ?_⟩,
    ⟨0, 1, bench (approved (busy unit) deviceDomain clsTenantAdmin (admin 0x0D11 (put 8 [(0, [5])]))) (admin 0x0D11
      (put 8 [(0, [5])])), _, _, _, starts_of rfl ?_ ?_, ?_, ?_, ?_, ?_, eq_val ?_, ?_⟩,
    ⟨0, 1, bench (approved (approved unit deviceDomain clsTenantAdmin (admin 0x0D12 (put 8 [(0, [5])]))) 5
      clsTenantRoot (admin 0x0D12 (put 8 [(0, [5])]))) (admin 0x0D12 (put 8 [(0, [5])])), _, _, _, starts_of rfl ?_
      ?_, ?_, ?_, ?_, ?_, ?_, ?_, ?_, eq_val ?_, ?_, ?_⟩,
    ⟨0, 1, bench (approved (approved unit deviceDomain clsTenantAdmin (admin 0x0D12 (put 8 [(0, [5, 0, 1])]))) 5
      clsTenantRoot (admin 0x0D12 (put 8 [(0, [5, 0, 1])]))) (admin 0x0D12 (put 8 [(0, [5, 0, 1])])), _, _, _,
      starts_of rfl ?_ ?_, ?_, ?_, ?_, ?_, ?_, ?_, ?_, eq_val ?_, ?_⟩,
    ⟨0, 1, bench unit (admin 0x0D13 (put 8 [(0, [5])])), _, _, starts_of rfl ?_ ?_, ?_, ?_, ?_, ?_, ?_⟩,
    ⟨0, 1, bench (busy unit) (admin 0x0D13 (put 8 [(0, [5])])), _, _, starts_of rfl ?_ ?_, ?_, ?_, ?_, ?_, ?_⟩,
    ⟨0, 1, bench (with5 (fun x => { x with state := .frozen })) (admin 0x0D14 (put 8 [(0, [5])])), _, _, starts_of rfl
      ?_ ?_, ?_, ?_, ?_, ?_, ?_⟩⟩ <;> decide +kernel

theorem MigrationAndTenantEventsComplete_met :
   (∃ (t tag : Nat) (s : State) (m : Mod) (c : Cmd) (q : List Effect) (st : W16) (r : Bytes),
    let d := projDur m
    let n := f16 c 0
    Starts 0x0D15 t tag s m c ∧ c.body.length = 16 ∧ n ≤ 0xFFF ∧ allZero (fBytes c 2 6) = true ∧
    ((tenantIn d n).state = .closed) ∧ epochBits d n < 128 ∧ quorum m tag c clsTenantAdmin = .ok q ∧
    c.outcome = some (st, r) ∧ st ≠ stOk) ∧
   (∃ (t tag : Nat) (s : State) (m : Mod) (c : Cmd) (q : List Effect) (r head eph sig : Bytes),
    let d := projDur m
    let n := f16 c 0
    Starts 0x0D15 t tag s m c ∧ c.body.length = 16 ∧ n ≤ 0xFFF ∧ allZero (fBytes c 2 6) = true ∧
    ((tenantIn d n).state = .closed) ∧ epochBits d n < 128 ∧ quorum m tag c clsTenantAdmin = .ok q ∧
    c.outcome = some (stOk, r) ∧ c.mem = [head, eph, sig]) ∧
   (∃ (t tag : Nat) (s : State) (m : Mod) (c : Cmd) (x : Nat × List Effect),
    Starts 0x0D16 t tag s m c ∧ saveChecks m tag c = .ok x ∧ f8 c 2 = 0) ∧
   (∃ (t tag : Nat) (s : State) (m : Mod) (c : Cmd) (x : Nat),
    Starts 0x0D17 t tag s m c ∧ restoreChecks c = .ok x ∧ c.stage = 0) ∧
   (∃ (t tag : Nat) (s : State) (m : Mod) (c : Cmd) (x : Nat) (e : List Effect),
    let b := c.mem.getD 0 []
    Starts 0x0D17 t tag s m c ∧ restoreChecks c = .ok x ∧ c.stage ≠ 0 ∧ b.take 4 = ascii "NKSN" ∧ getNat8 b 4 = 1 ∧
    328 ≤ b.length ∧ t64Ok (getLe64 b 0x20) = true ∧ ((getLe16 b 6).toNat = x) ∧
    ((getLe64 b 0x30).toNat = b.length - 328) ∧ getNat8 b 5 = 0 ∧ restoreOwn m x b = .ok e) ∧
   (∃ (t : Nat) (s : State) (ten sid : Nat) (x : Session),
    let m := s.now t
    sessOf m ten sid = some x ∧ serving m = true ∧ x.halfOpen = true ∧
    ((t64Add x.limitFrom nsPerS).toNat ≤ (nowT m).toNat)) ∧
   (∃ (t : Nat) (s : State) (ten sid : Nat) (x : Session),
    let m := s.now t
    sessOf m ten sid = some x ∧ serving m = true) ∧
   (∃ (t : Nat) (s : State) (ten sid : Nat) (x : Session) (mark : Nat),
    let m := s.now t
    sessOf m ten sid = some x ∧ serving m = true ∧ mark ≤ x.mark) ∧
   (∃ (t : Nat) (s : State) (ten : Nat) (a : W64),
    let m := s.now t
    ((tenantOf m ten).rerootArmed = some a) ∧ serving m = true ∧
    ((t64Add a (86400 * nsPerS)).toNat ≤ (nowT m).toNat)) ∧
   (∃ (t : Nat) (s : State) (ten : Nat),
    let m := s.now t
    tagsOf m ten = 0) ∧
   (∃ (t : Nat) (s : State) (ten : Nat) (o : Offer),
    let m := s.now t
    ((tenantOf m ten).offer = some o) ∧ o.expiry.toNat ≤ (nowT m).toNat) := by
  refine ⟨
    ⟨0, 1, bench (approved unit deviceDomain clsTenantAdmin (admin 0x0D15 (put 16 [(0, [6])]))) { admin 0x0D15 (put 16
      [(0, [6])]) with outcome := some (stVerifyFail, []) }, _, _, _, stVerifyFail, [], starts_of rfl ?_ ?_, ?_, ?_,
      ?_, ?_, ?_, eq_val ?_, ?_, ?_⟩,
    ⟨0, 1, bench (approved unit deviceDomain clsTenantAdmin (admin 0x0D15 (put 16 [(0, [6])]))) { admin 0x0D15 (put 16
      [(0, [6])]) with outcome := some (stOk, []), mem := [[], [], []] }, _, _, _, [], [], [], [], starts_of rfl ?_
      ?_, ?_, ?_, ?_, ?_, ?_, eq_val ?_, ?_, ?_⟩,
    ⟨0, 1, bench (with5 (fun x => { x with state := .frozen })) saveCmd, _, _, (5, []), starts_of rfl ?_ ?_, save_ok,
      ?_⟩,
    ⟨0, 1, bench unit (admin 0x0D17 (put 32 [(0, [5]), (16, [1])])), _, _, 5, starts_of rfl ?_ ?_, eq_ok ?_, ?_⟩,
    ⟨0, 1, bench snapped { admin 0x0D17 (put 32 [(0, [5]), (16, [1])]) with stage := 1, mem := [snapshot] }, _, _, 5,
      _, starts_of rfl ?_ ?_, eq_ok ?_, ?_, ?_, ?_, ?_, ?_, ?_, ?_, ?_, eq_val ?_⟩,
    ⟨0, plain { sessioned with clk := 1000000000 }, 5, 1, session, ?_, ?_, ?_, ?_⟩,
    ⟨0, plain sessioned, 5, 1, session, ?_, ?_⟩,
    ⟨0, plain sessioned, 5, 1, session, 0, ?_, ?_, ?_⟩,
    ⟨0, plain { with5 (fun x => { x with rerootArmed := some 0 }) with clk := 86400000000000 }, 5, 0, ?_, ?_, ?_⟩,
    ⟨0, plain unit, 5, ?_⟩,
    ⟨0, plain { with5 (fun x => { x with
        offer := some { prepId := 0, expiry := 8, nonce := [], ephPriv := 1, sourceUid := 0, bytes := [] } }) with
          clk := 8 }, 5, { prepId := 0, expiry := 8, nonce := [], ephPriv := 1, sourceUid := 0, bytes := [] }, ?_, ?_⟩⟩ <;> decide +kernel

theorem SupervisorAndLifeCycleCommandsComplete_met :
   (∃ (t tag : Nat) (s : State) (m : Mod) (c : Cmd),
    Starts 0x0F10 t tag s m c ∧ c.body = [] ∧ m.ssv.tamper = .hold ∧ (∀ p ∈ m.ssv.recs, p.2.copied = true) ∧
    m.rng.halted = false) ∧
   (∃ (t tag : Nat) (s : State) (m : Mod) (c : Cmd),
    Starts 0x0F11 t tag s m c ∧ c.body = [] ∧ m.ssv.tamper ≠ .normal) ∧
   (∃ (t tag : Nat) (s : State) (m : Mod) (c : Cmd) (q : List Effect),
    Starts 0x0F14 t tag s m c ∧ c.body = [] ∧ m.ssv.tamper = .readmitted ∧ quorum m tag c clsMaintenance = .ok q) ∧
   (∃ (t tag : Nat) (s : State) (m : Mod) (c : Cmd) (q : List Effect),
    Starts 0x0F12 t tag s m c ∧ c.body.length = 1024 ∧ m.ssv.calWrites < 1000 ∧
    quorum m tag c clsCalibration = .ok q ∧ calOk c.body) ∧
   (∃ (t tag : Nat) (s : State) (m : Mod) (c : Cmd),
    Starts 0x0F13 t tag s m c ∧ c.body = []) ∧
   (∃ (t : Nat) (s : State) (a : Nat),
    let m := s.now t
    m.lcc.stopping = some a ∧ (m.cmq.cmds = [] ∨ a + 50000000 ≤ m.clk)) ∧
   (∃ (t : Nat) (s : State),
    let m := s.now t
    m.powered = true) ∧
   (∃ (t tag : Nat) (s : State) (m : Mod) (c : Cmd) (q : List Effect),
    Starts 0x0F50 t tag s m c ∧ c.body.length = 24 ∧ 4096 ≤ (f64 c 8).toNat ∧ ((f64 c 8).toNat ≤ 4194304) ∧
    ((f64 c 8).toNat % 4096 = 0) ∧ f8 c 16 ≤ 1 ∧ allZero (fBytes c 17 7) = true ∧
    quorum m tag c clsMicrocode = .ok q ∧ c.stage = 0) ∧
   (∃ (t tag : Nat) (s : State) (m : Mod) (c : Cmd) (q : List Effect),
    Starts 0x0F50 t tag s m c ∧ c.body.length = 24 ∧ 4096 ≤ (f64 c 8).toNat ∧ ((f64 c 8).toNat ≤ 4194304) ∧
    ((f64 c 8).toNat % 4096 = 0) ∧ f8 c 16 ≤ 1 ∧ allZero (fBytes c 17 7) = true ∧
    quorum m tag c clsMicrocode = .ok q ∧ ¬ (c.stage = 0)) := by
  refine ⟨
    ⟨0, 1, bench { unit with ssv := { SsvState.reset with tamper := .hold } } (cmd 0x0F10 []), _, _, starts_of rfl ?_
      ?_, ?_, ?_, ?_, ?_⟩,
    ⟨0, 1, bench { unit with ssv := { SsvState.reset with tamper := .erased } } (cmd 0x0F11 []), _, _, starts_of rfl
      ?_ ?_, ?_, ?_⟩,
    ⟨0, 1, bench (approved { unit with ssv := { SsvState.reset with tamper := .readmitted } } deviceDomain
      clsMaintenance (admin 0x0F14 [])) (admin 0x0F14 []), _, _, _, starts_of rfl ?_ ?_, ?_, ?_, eq_val ?_⟩,
    ⟨0, 1, bench (approved unit deviceDomain clsCalibration (admin 0x0F12 factoryCal)) (admin 0x0F12 factoryCal), _,
      _, _, starts_of rfl ?_ ?_, ?_, ?_, eq_val (approved_ok _ rfl _ rfl), factoryCal_ok⟩,
    ⟨0, 1, bench unit (admin 0x0F13 []), _, _, starts_of rfl ?_ ?_, ?_⟩,
    ⟨0, plain { unit with lcc := { LccState.reset with stopping := some 0 } }, 0, ?_, ?_⟩,
    ⟨0, plain unit, ?_⟩,
    ⟨0, 1, bench (approved unit deviceDomain clsMicrocode (admin 0x0F50 (put 24 [(8, natLe 8 4096)]))) (admin 0x0F50
      (put 24 [(8, natLe 8 4096)])), _, _, _, starts_of rfl ?_ ?_, ?_, ?_, ?_, ?_, ?_, ?_, eq_val ?_, ?_⟩,
    ⟨0, 1, bench (approved unit deviceDomain clsMicrocode ({ admin 0x0F50 (put 24 [(8, natLe 8 4096)]) with
        stage := 1 })) ({ admin 0x0F50 (put 24 [(8, natLe 8 4096)]) with stage := 1 }), _, _, _, starts_of rfl ?_ ?_,
      ?_, ?_, ?_, ?_, ?_, ?_, eq_val ?_, ?_⟩⟩ <;> decide +kernel

theorem SupervisorEventsComplete_met :
   (∃ (t : Nat) (s : State) (src r : Nat) (v : W32),
    let m := s.now t
    let m1 := noteReading m src v
    detectorOut m src = false ∧ src ≠ 0x6D ∧ src ≠ 0x6F ∧ respOf m1 src = some r ∧ ssvSupplied m1 = true ∧
    srcWatched m1 src = true ∧ railExcused m1 src v = false) ∧
   (∃ (t : Nat) (s : State) (n : Nat),
    let m := s.now t
    let c := cellOf m n
    n < 2 ∧ c.present = true) ∧
   (∃ (t : Nat) (s : State) (n : Nat),
    let m := s.now t
    let c := cellOf m n
    n < 2 ∧ cellGood c = false) ∧
   (∃ (t : Nat) (s : State) (n : Nat),
    let m := s.now t
    let c := cellOf m n
    n < 2 ∧ c.present = true ∧ c.depleted = false ∧ c.low = false) ∧
   (∃ (t : Nat) (s : State) (n : Nat),
    let m := s.now t
    let c := cellOf m n
    n < 2 ∧ c.present = true ∧ c.depleted = false) ∧
   (∃ (t : Nat) (s : State) (n : Nat),
    let m := s.now t
    let c := cellOf m n
    n < 2 ∧ c.present = true ∧ c.low = true) ∧
   (∃ (t : Nat) (s : State) (p : SsvPower),
    let m := s.now t
    m.ssv.power ≠ p) ∧
   (∃ (t : Nat) (s : State),
    let m := s.now t
    m.powered = false) ∧
   (∃ (t : Nat) (s : State) (src : Nat),
    let m := s.now t
    ssvSupplied m = true ∧ isDetector m src = true) ∧
   (∃ (t : Nat) (s : State) (n : Nat) (r : TamperRec),
    let m := s.now t
    m.powered = true ∧ m.ssv.power = .main ∧ nextCopy m = some (n, r)) := by
  refine ⟨
    ⟨0, plain { unit with ssv := { SsvState.reset with power := .main } }, 0x5F, 2, 0, ?_, ?_, ?_, ?_, ?_, ?_, ?_⟩,
    ⟨0, plain { unit with ssv := { SsvState.reset with
        cellA := { present := true, depleted := false, low := false, milliVolt := 3000 } } }, 0, ?_, ?_⟩,
    ⟨0, plain unit, 1, ?_, ?_⟩,
    ⟨0, plain { unit with ssv := { SsvState.reset with
        cellA := { present := true, depleted := false, low := false, milliVolt := 3000 } } }, 0, ?_, ?_, ?_, ?_⟩,
    ⟨0, plain { unit with ssv := { SsvState.reset with
        cellA := { present := true, depleted := false, low := false, milliVolt := 3000 } } }, 0, ?_, ?_, ?_⟩,
    ⟨0, plain { unit with ssv := { SsvState.reset with
        cellA := { present := true, depleted := false, low := true, milliVolt := 3000 } } }, 0, ?_, ?_, ?_⟩,
    ⟨0, plain { unit with ssv := { SsvState.reset with power := .main } }, .aux, ?_⟩,
    ⟨0, plain { unit with powered := false }, ?_⟩,
    ⟨0, plain { unit with ssv := { SsvState.reset with power := .main } }, 0, ?_, ?_⟩,
    ⟨0, plain { unit with ssv := { SsvState.reset with
        power := .main, recs := [(0, {
          lull := false, copied := false, checkBad := false, resp := 0, source := 0, detail := 0, seq := 1, stamp :=
            0, value := 0, limit := 0 })] } }, 0, {
              lull := false, copied := false, checkBad := false, resp := 0, source := 0, detail := 0, seq := 1, stamp
                := 0, value := 0, limit := 0 }, ?_, ?_, ?_⟩⟩ <;> decide +kernel

theorem RecorderAndHealthComplete_met :
   (∃ (t tag : Nat) (s : State) (m : Mod) (c : Cmd),
    Starts 0x0F40 t tag s m c ∧ c.body.length = 24 ∧ needBlk m .evr = .ok () ∧ 1 ≤ f32 c 8 ∧ f32 c 8 ≤ 65536 ∧
    allZero (fBytes c 12 4) = true ∧ m.evr.log.length ≤ (f64 c 0).toNat) ∧
   (∃ (t tag : Nat) (s : State) (m : Mod) (c : Cmd),
    Starts 0x0F40 t tag s m c ∧ c.body.length = 24 ∧ needBlk m .evr = .ok () ∧ 1 ≤ f32 c 8 ∧ f32 c 8 ≤ 65536 ∧
    allZero (fBytes c 12 4) = true ∧ ¬ (m.evr.log.length ≤ (f64 c 0).toNat)) ∧
   (∃ (t tag : Nat) (s : State) (m : Mod) (c : Cmd) (q : List Effect),
    Starts 0x0F41 t tag s m c ∧ c.body = [] ∧ needBlk m .evr = .ok () ∧ quorum m tag c clsMaintenance = .ok q) ∧
   (∃ (t : Nat) (s : State) (ch : Nat) (e : EvrEpoch),
    let m := s.now t
    ch < 64 ∧ ((evrChanOf m ch).epoch = some e) ∧ ((firing m (.evr ch)).isSome = true)) ∧
   (∃ (t : Nat) (s : State),
    let m := s.now t
    m.evr.writing = true) ∧
   (∃ (t : Nat) (s : State) (u : KatUnit) (b : Blk) (n : Nat),
    let m := s.now t
    inService m = true ∧ katPlace u = some (b, n) ∧ katLive m b n = true ∧ b ≠ .pke ∧ katListed b = true) ∧
   (∃ (t : Nat) (s : State) (u : KatUnit) (b : Blk) (n : Nat),
    let m := s.now t
    inService m = true ∧ katPlace u = some (b, n) ∧ katLive m b n = true ∧ b ≠ .pke ∧ katListed b = false ∧
    ((blkOf m b).testReq = true)) ∧
   (∃ (t : Nat) (s : State),
    let m := s.now t
    m.powered = true ∧ m.hlt.scrubbed + 1 < sramWords) ∧
   (∃ (t : Nat) (s : State),
    let m := s.now t
    m.hlt.epoch < hltEpochOf (extNs m)) ∧
   (∃ (t : Nat) (s : State) (x : Timer),
    let m := s.now t
    let m1 := insTimer (takeTimer m x) (.system healthTimer) (t64Add x.due healthGap)
    firing m (.system healthTimer) = some x ∧ inService m1 = true) := by
  refine ⟨
    ⟨0, 1, bench unit (cmd 0x0F40 (put 24 [(8, [1])])), _, _, starts_of rfl ?_ ?_, ?_, eq_unit ?_, ?_, ?_, ?_, ?_⟩,
    ⟨0, 1, bench { unit with evr := { EvrState.reset with log := [zeroBytes 64] } } (cmd 0x0F40 (put 24 [(8, [1])])),
      _, _, starts_of rfl ?_ ?_, ?_, eq_unit ?_, ?_, ?_, ?_, ?_⟩,
    ⟨0, 1, bench (approved unit deviceDomain clsMaintenance (admin 0x0F41 [])) (admin 0x0F41 []), _, _, _, starts_of
      rfl ?_ ?_, ?_, eq_unit ?_, eq_val ?_⟩,
    ⟨0, plain { unit with clk := 1000000000, sch := { SchState.reset with
        timers := [{ kind := .evr 63, due := 0, order := 0, placed := 0 }] }, evr := { EvrState.reset with
          chan := [(63, { EvrChan.reset with epoch := some epoch })] } }, 63, epoch, ?_, ?_, ?_⟩,
    ⟨0, plain { unit with evr := { EvrState.reset with writing := true } }, ?_⟩,
    ⟨0, plain unit, .scePipe 8, .sce, 8, ?_, ?_, ?_, ?_, ?_⟩,
    ⟨0, plain { unit with blk := [(Blk.nif.idx, { BlkHdr.reset with testReq := true })] }, .block .nif, .nif, 0, ?_,
      ?_, ?_, ?_, ?_, ?_⟩,
    ⟨0, plain unit, ?_, ?_⟩,
    ⟨0, plain { unit with clk := 60000000000 }, ?_⟩,
    ⟨0, plain { unit with clk := 1000000000, sch := { SchState.reset with
        timers := [{ kind := .system healthTimer, due := 0, order := 0, placed := 0 }] } }, {
          kind := .system healthTimer, due := 0, order := 0, placed := 0 }, ?_, ?_⟩⟩ <;> decide +kernel

theorem ResetEventsComplete_met :
   (∃ (t : Nat) (s : State),
    let m := s.now t
    m.powered = false ∧ m.jnl.resetHeld = false) ∧
   (∃ (t : Nat) (s : State),
    let m := s.now t
    m.powered = true ∧ m.jnl.started = false ∧ m.jnl.flushing = false) ∧
   (∃ (t : Nat) (s : State) (mJ : Nat),
    let m := s.now t
    m.powered = true ∧ (inService m = true → 150 ≤ mJ)) ∧
   (∃ (t : Nat) (s : State),
    let m := s.now t
    m.powered = true ∧ m.jnl.flushing = false) ∧
   (∃ (t : Nat) (s : State),
    let m := s.now t
    m.jnl.resetHeld = true ∧ m.ssv.power = .main ∧ m.powered = false) ∧
   (∃ (t : Nat) (s : State) (src : Nat),
    let m := s.now t
    m.powered = true ∧ m.jnl.flushing = false ∧ 1 ≤ src ∧ src ≤ 3) ∧
   (∃ (t : Nat) (s : State),
    let m := s.now t
    m.jnl.flushing = true) ∧
   (∃ (t : Nat) (s : State) (mJ : Nat),
    let m := s.now t
    m.powered = true ∧ mJ < 150 ∧ inService m = true) ∧
   (∃ (t : Nat) (s : State),
    let m := s.now t
    m.powered = true) ∧
   (∃ (t : Nat) (s : State),
    let m := s.now t
    inService m = true) ∧
   (∃ (t : Nat) (s : State) (a : Nat),
    let m := s.now t
    m.ssv.power ≠ .lull ∧ a < 128) := by
  refine ⟨
    ⟨0, plain Mod.reset, ?_, ?_⟩,
    ⟨0, plain { unit with jnl := JnlState.reset }, ?_, ?_, ?_⟩,
    ⟨0, plain unit, 150, ?_, ?_⟩,
    ⟨0, plain unit, ?_, ?_⟩,
    ⟨0, plain { Mod.reset with ssv := { SsvState.reset with power := .main }, jnl := { JnlState.reset with
        resetHeld := true } }, ?_, ?_, ?_⟩,
    ⟨0, plain unit, 3, ?_, ?_, ?_, ?_⟩,
    ⟨0, plain { unit with jnl := { JnlState.reset with flushing := true } }, ?_⟩,
    ⟨0, plain unit, 149, ?_, ?_, ?_⟩,
    ⟨0, plain unit, ?_⟩,
    ⟨0, plain unit, ?_⟩,
    ⟨0, plain { unit with ssv := { SsvState.reset with power := .main } }, 127, ?_, ?_⟩⟩ <;> decide +kernel

theorem BlobAndCacheEventsComplete_met :
   (∃ (t : Nat) (s : State) (n : Nat) (f : Fetch),
    let m := s.now t
    tblFind m.bsx.slots n = some f ∧ f.blob = none ∧ f.retryAt = none ∧ m.clk < f.first + 200000) ∧
   (∃ (t : Nat) (s : State) (n : Nat) (f : Fetch),
    let m := s.now t
    tblFind m.bsx.slots n = some f ∧ f.blob = none ∧ f.retryAt = none ∧ m.clk < f.first + 200000) ∧
   (∃ (t : Nat) (s : State) (n : Nat) (f : Fetch) (x : Timer),
    let m := s.now t
    tblFind m.bsx.slots n = some f ∧ f.blob = none ∧ firing m (.blob n) = some x ∧ f.retryAt.isSome = true ∧
    m.clk < f.first + 200000) ∧
   (∃ (t : Nat) (s : State) (n : Nat) (f : Fetch),
    let m := s.now t
    tblFind m.bsx.slots n = some f ∧ f.blob = none ∧ f.first + 200000 ≤ m.clk) ∧
   (∃ (t : Nat) (s : State) (n : Nat) (l : Line),
    let m := s.now t
    tblFind m.kch.lines n = some l ∧ maskDue m l = true ∧ remaskReady m = true) ∧
   (∃ (t : Nat) (s : State) (ten : Nat),
    let m := s.now t
    ((tenOf m ten).tage ≠ 0)) ∧
   (∃ (t : Nat) (s : State) (n : Nat) (l : Line),
    let m := s.now t
    tblFind m.kch.lines n = some l ∧ l.state = .valid ∧ l.pins = []) ∧
   (∃ (t : Nat) (s : State),
    let m := s.now t
    m.kch.busy = true ∧ bucketTotal ≤ m.kch.moved) := by
  refine ⟨
    ⟨0, plain { unit with clk := 0, bsx := { unit.bsx with
        slots := [(0, { handle := key 0, line := none, first := 0, issued := 0, pk := false, waiters := [], retryAt :=
                          none, blob := none })] } }, 0, {
                            handle := key 0, line := none, first := 0, issued := 0, pk := false, waiters := [],
                            retryAt := none, blob := none }, ?_, ?_, ?_, ?_⟩,
    ⟨0, plain { unit with clk := 199999, bsx := { unit.bsx with
        slots := [(0, { handle := key 0, line := none, first := 0, issued := 0, pk := false, waiters := [], retryAt :=
                          none, blob := none })] } }, 0, {
                            handle := key 0, line := none, first := 0, issued := 0, pk := false, waiters := [],
                            retryAt := none, blob := none }, ?_, ?_, ?_, ?_⟩,
    ⟨0, plain { unit with clk := 1000000, sch := { SchState.reset with
        timers := [{ kind := .blob 0, due := 0, order := 0, placed := 0 }] }, bsx := { unit.bsx with
          slots := [(0, { handle := key 0, line := none, first := 1000000, issued := 0, pk := false, waiters := [],
                          retryAt := some 7, blob := none })] } }, 0, {
                            handle := key 0, line := none, first := 1000000, issued := 0, pk := false, waiters := [],
                            retryAt := some 7, blob := none }, { kind := .blob 0, due := 0, order := 0, placed := 0 },
      ?_, ?_, ?_, ?_, ?_⟩,
    ⟨0, plain { unit with clk := 200000, bsx := { unit.bsx with
        slots := [(0, { handle := key 0, line := none, first := 0, issued := 0, pk := false, waiters := [], retryAt :=
                          none, blob := none })] } }, 0, {
                            handle := key 0, line := none, first := 0, issued := 0, pk := false, waiters := [],
                            retryAt := none, blob := none }, ?_, ?_, ?_⟩,
    ⟨0, plain { unit with kch := { KchState.reset with
        lines := [(0, { lineOf 0 [] (zeroBytes 64) with deliveries := 2 ^ 20 })] } }, 0, { lineOf 0 [] (zeroBytes 64)
      with deliveries := 2 ^ 20 }, ?_, ?_, ?_⟩,
    ⟨0, plain { unit with ten := [(5, { TenHost.reset with tage := 1 })] }, 5, ?_⟩,
    ⟨0, plain { unit with kch := { KchState.reset with
        lines := [(0, { lineOf 0 [] (zeroBytes 64) with pins := [] })] } }, 0, { lineOf 0 [] (zeroBytes 64) with
          pins := [] }, ?_, ?_, ?_⟩,
    ⟨0, plain { unit with kch := { KchState.reset with busy := true, moved := bucketTotal } }, ?_, ?_⟩⟩ <;> decide +kernel

theorem RandomEventsComplete_met :
   (∃ (t : Nat) (s : State) (n : Nat) (l : List Bool),
    let m := s.now t
    n < 2 ∧ m.powered = true ∧ ((srcEs m n).failed = false) ∧ samplesPass n l = false) ∧
   (∃ (t : Nat) (s : State) (n : Nat),
    let m := s.now t
    let d := if n = 0 then m.rng.d0 else m.rng.d1
    n < 2 ∧ m.rng.halted = false ∧ d.ready = true ∧ (m.rng.es1.ok = true ∨ m.rng.es2.ok = true) ∧
    (2 ^ 20 ≤ d.requests ∨ d.since + nsPerS ≤ m.clk)) ∧
   (∃ (t : Nat) (s : State) (n : Nat),
    let m := s.now t
    let d := if n = 0 then m.rng.d0 else m.rng.d1
    n < 2 ∧ m.rng.halted = false ∧ d.ready = true ∧ (m.rng.es1.ok = true ∨ m.rng.es2.ok = true) ∧
    (2 ^ 20 ≤ d.requests ∨ d.since + nsPerS ≤ m.clk)) ∧
   (∃ (t : Nat) (s : State) (p : Nat),
    let m := s.now t
    let g := pipeMask m p
    p < 10 ∧ m.rng.halted = false ∧ g.next = none ∧ seedAsk ≤ g.blocks) ∧
   (∃ (t : Nat) (s : State) (p : Nat) (b : Bytes),
    let m := s.now t
    let g := pipeMask m p
    p < 10 ∧ m.rng.halted = false ∧ g.next = some b ∧ g.blocks = seedBlocks) := by
  refine ⟨
    ⟨0, plain unit, 1, List.replicate 1024 true, ?_, ?_, ?_, ?_⟩,
    ⟨0, plain { unit with rng := { RngState.reset with
        es1 := { Source.reset with ok := true }, d0 := { ready := true, requests := 2 ^ 20, since := 0 } } }, 0, ?_,
      ?_, ?_, ?_, ?_⟩,
    ⟨0, plain { unit with clk := 1000000000, rng := { RngState.reset with
        es1 := { Source.reset with ok := true }, d1 := { ready := true, requests := 0, since := 0 } } }, 1, ?_, ?_,
      ?_, ?_, ?_⟩,
    ⟨0, plain { unit with sce := { unit.sce with mask := [(9, { seed := [], next := none, blocks := seedAsk })] } },
      9, ?_, ?_, ?_, ?_⟩,
    ⟨0, plain { unit with sce := { unit.sce with
        mask := [(9, { seed := [], next := some [], blocks := seedBlocks })] } }, 9, [], ?_, ?_, ?_, ?_⟩⟩ <;> decide +kernel

theorem JobEventsComplete_met :
   (∃ (t tag : Nat) (s : State) (c : Cmd) (a p : Nat),
    let m := s.now t
    cmdOf m tag = some c ∧ c.phase = .slot a ∧ pipeFor m c = some p ∧ m.clk < a + 2000000) ∧
   (∃ (t tag : Nat) (s : State) (c : Cmd) (a : Nat),
    let m := s.now t
    cmdOf m tag = some c ∧ c.phase = .slot a ∧ a + 2000000 ≤ m.clk ∧ c.opcode / 256 = 0x0A) ∧
   (∃ (t tag : Nat) (s : State) (c : Cmd) (j : Job) (ins outs aads : Bytes),
    let m := s.now t
    cmdOf m tag = some c ∧ c.phase = .job ∧ c.opcode = 0x0803 ∧ jobOf m tag = some j ∧ m.clk < j.start + 8000000 ∧
    jobKeyed m c = true ∧ sglOk (f64 c 0x28) (sglEntries ins) (f32 c 0x0C) = true ∧
    sglOk (f64 c 0x30) (sglEntries outs) (f32 c 0x0C) = true ∧
    sglOk (f64 c 0x38) (sglEntries aads) (f32 c 0x10) = true ∧ f8 c 0x0B ≠ 1) ∧
   (∃ (t tag : Nat) (s : State) (c : Cmd) (j : Job),
    let m := s.now t
    cmdOf m tag = some c ∧ c.phase = .job ∧ c.opcode / 256 = 0x0A ∧ jobOf m tag = some j ∧ m.clk < j.start + 8000000) ∧
   (∃ (t tag : Nat) (s : State) (c : Cmd) (j : Job),
    let m := s.now t
    cmdOf m tag = some c ∧ c.phase = .job ∧ c.opcode / 256 = 0x0A ∧ jobOf m tag = some j ∧ j.start + 8000000 ≤ m.clk) ∧
   (∃ (t : Nat) (s : State) (ten x : Nat),
    let m := s.now t
    let y := strOf m ten x
    (y.state = 1 ∨ y.state = 3) ∧ ((t64Add y.lastStamp (m.sce.streamIdle * nsPerS)).toNat ≤ (nowT m).toNat)) := by
  refine ⟨
    ⟨0, 1, plain (hasCmd unit ({ cmd 0x0801 [] with phase := .slot 0 })), { cmd 0x0801 [] with phase := .slot 0 }, 0,
      0, ?_, ?_, ?_, ?_⟩,
    ⟨0, 1, plain (hasCmd { unit with clk := 2000000 } ({ cmd 0x0A01 [] with phase := .slot 0 })), { cmd 0x0A01 [] with
        phase := .slot 0 }, 0, ?_, ?_, ?_, ?_⟩,
    ⟨0, 1, plain (hasCmd { withKeys unit [(attr 'A' 128 "D0" 'B' 0, zeroBytes 64)] with
        sce := { unit.sce with jobs := [{ tag := 1, pipe := 0, start := 0 }] } } ({ cmd 0x0803 (put 80 [(0, le64 (key
      0)), (8, [1, 0, 16]), (0x0C, [16]), (0x28, [16]), (0x30, [16])]) with phase := .job })), { cmd 0x0803 (put 80
      [(0, le64 (key 0)), (8, [1, 0, 16]), (0x0C, [16]), (0x28, [16]), (0x30, [16])]) with phase := .job }, {
        tag := 1, pipe := 0, start := 0 }, put 16 [(8, [16]), (12, [2])], put 16 [(8, [16]), (12, [2])], [], ?_, ?_,
      ?_, ?_, ?_, ?_, ?_, ?_, ?_, ?_⟩,
    ⟨0, 1, plain (hasCmd { unit with dge := { DgeState.reset with jobs := [{ tag := 1, pipe := 0, start := 0 }] } } ({
      cmd 0x0A01 [] with phase := .job })), { cmd 0x0A01 [] with phase := .job }, { tag := 1, pipe := 0, start := 0 },
      ?_, ?_, ?_, ?_, ?_⟩,
    ⟨0, 1, plain (hasCmd { unit with clk := 8000000, dge := { DgeState.reset with
        jobs := [{ tag := 1, pipe := 0, start := 0 }] } } ({ cmd 0x0A01 [] with phase := .job })), { cmd 0x0A01 []
      with phase := .job }, { tag := 1, pipe := 0, start := 0 }, ?_, ?_, ?_, ?_, ?_⟩,
    ⟨0, plain { unit with clk := 60000000000, sce := { unit.sce with str := [(40, { Stream.reset with state := 1 })] }
                            }, 5, 0, ?_, ?_⟩⟩ <;> decide +kernel

theorem SchedulerEventsComplete_met :
   (∃ (t : Nat) (s : State) (core ctx : Nat),
    let m := s.now t
    ctxFree m core ctx = true) ∧
   (∃ (t : Nat) (s : State) (core ctx : Nat),
    let m := s.now t
    ctxFree m core ctx = true) ∧
   (∃ (t : Nat) (s : State) (core ctx tag : Nat) (m1 : Mod),
    let m := s.now t
    waitingCtx m = some (core, ctx) ∧ chooseTag m = some (tag, m1)) ∧
   (∃ (t : Nat) (s : State) (tag l a : Nat) (c : Cmd),
    let m := s.now t
    cmdOf m tag = some c ∧ c.phase = .ready l a ∧ l < 7 ∧ a + m.sch.age * 1000 ≤ m.clk) ∧
   (∃ (t : Nat) (s : State) (tag : Nat) (c : Cmd),
    let m := s.now t
    cmdOf m tag = some c ∧ atWork c = true ∧ c.runs < dispatchesOf m c ∧ mayYield c = true) ∧
   (∃ (t : Nat) (s : State) (tag : Nat) (c : Cmd),
    let m := s.now t
    cmdOf m tag = some c ∧ atWork c = true) ∧
   (∃ (t : Nat) (s : State) (x : Timer) (h : Nat),
    let m := s.now t
    dueTimer m 4 = some x ∧ x.kind = .key h) ∧
   (∃ (t : Nat) (s : State) (x : Timer) (h : Nat) (b : Budget),
    let m := s.now t
    let m1 := takeTimer m x
    dueTimer m 3 = some x ∧ x.kind = .budget h ∧ tblFind m1.dur.bud h = some b) ∧
   (∃ (t : Nat) (s : State) (x : Timer),
    let m := s.now t
    firing m (.system snapshotTimer) = some x) := by
  refine ⟨
    ⟨0, plain (hasCmd { unit with txp := { TxpState.reset with coreAvail := 2 ^ 63 }, sch := { SchState.reset with
        rings := [(0, [{ tenant := 5, deficit := 0, visited := false, tags := [1] }])] } } ({ cmd 0x0201 [] with
          phase := .ready 0 0 })), 63, 3, ?_⟩,
    ⟨0, plain { unit with txp := { TxpState.reset with coreAvail := 2 ^ 63 }, sch := { SchState.reset with
        rings := [] } }, 63, 3, ?_⟩,
    ⟨0, plain (hasCmd { unit with txp := { TxpState.reset with coreAvail := 2 ^ 63 }, sch := { SchState.reset with
        rings := [(0, [{ tenant := 5, deficit := 0, visited := false, tags := [1] }])], waiting := [(63, 3)] } } ({
      cmd 0x0201 [] with phase := .ready 0 0 })), 63, 3, _, _, ?_, eq_get2 ?_⟩,
    ⟨0, plain (hasCmd { unit with clk := 1000000 } ({ cmd 0x0109 [] with phase := .ready 0 0 })), 1, 0, 0, { cmd
      0x0109 [] with phase := .ready 0 0 }, ?_, ?_, ?_, ?_⟩,
    ⟨0, plain (hasCmd unit ({ cmd 0x0109 [] with runs := 0 })), 1, { cmd 0x0109 [] with runs := 0 }, ?_, ?_,
      Nat.succ_pos _, ?_⟩,
    ⟨0, plain (hasCmd unit (cmd 0x0109 [])), 1, cmd 0x0109 [], ?_, ?_⟩,
    ⟨0, plain { unit with clk := 1000000000, sch := { SchState.reset with
        timers := [{ kind := .key 0, due := 0, order := 0, placed := 0 }] } }, {
          kind := .key 0, due := 0, order := 0, placed := 0 }, 0, ?_, ?_⟩,
    ⟨0, plain { unit with clk := 1000000000, sch := { SchState.reset with
        timers := [{ kind := .budget 0, due := 0, order := 0, placed := 0 }] }, dur := { unit.dur with
          bud := [(0, { limit := 3, window := 60, current := 0, count := 0, spent := none })] } }, {
            kind := .budget 0, due := 0, order := 0, placed := 0 }, 0, {
              limit := 3, window := 60, current := 0, count := 0, spent := none }, ?_, ?_, ?_⟩,
    ⟨0, plain { unit with clk := 1000000000, sch := { SchState.reset with
        timers := [{ kind := .system snapshotTimer, due := 0, order := 0, placed := 0 }] } }, {
          kind := .system snapshotTimer, due := 0, order := 0, placed := 0 }, ?_⟩⟩ <;> decide +kernel

theorem TimeComplete_met :
   (∃ (t : Nat) (s : State) (x : PtpMsg) (src : TimeSrc),
    let m := s.now t
    ptpEntryOf m x = some src ∧ x.secs < 2 ^ 34 ∧ x.nanos ≤ 999999999) ∧
   (∃ (t : Nat) (s : State) (x : PtpMsg) (src : TimeSrc),
    let m := s.now t
    let b := ptpEntry m.dur.tcfg (srcIdx src)
    ptpEntryOf m x = some src ∧ x.ptpTimescale = true ∧ x.clockClass ≤ getNat8 b 5) ∧
   (∃ (t : Nat) (s : State) (x : PtpMsg) (src : TimeSrc) (a : Nat),
    let m := s.now t
    let b := ptpEntry m.dur.tcfg (srcIdx src)
    ptpEntryOf m x = some src ∧ tblFind m.tim.reqSent (srcIdx src) = some a ∧ ptpP2p b = true) ∧
   (∃ (t : Nat) (s : State) (x : PtpMsg),
    let m := s.now t
    let b := ptpEntry m.dur.tcfg 0
    srcEnabled m.dur.tcfg .ptp0 = true ∧ ptpP2p b = true ∧ ptpPlace b x = true ∧ netPortSends m x.port = true) ∧
   (∃ (t : Nat) (s : State),
    let m := s.now t
    let b := ptpEntry m.dur.tcfg 0
    srcEnabled m.dur.tcfg .ptp0 = true ∧ netPortSends m (getNat8 b 1) = true ∧
    (∀ a, tblFind m.tim.reqAt 0 = some a → a + ptpInterval b ≤ m.clk)) ∧
   (∃ (t : Nat) (s : State) (a secs : Nat),
    let m := s.now t
    m.tim.tod = some (a, secs) ∧ m.clk ≤ a + nsPerS) ∧
   (∃ (b : Bytes),
    todOk b = true ∧ ((getNat8 b 3).testBit 0 = true)) ∧
   (∃ (t : Nat) (s : State) (src : TimeSrc) (a : Nat),
    let m := s.now t
    ((if src = .pps then m.tim.pps else (srcOf m src).last.map Prod.fst) = some a) ∧ a + lossAfter src ≤ m.clk) ∧
   (∃ (t : Nat) (s : State) (a : W64),
    let m := s.now t
    m.tim.mode = .holdover ∧ m.tim.lossAt = some a ∧ ((holdEnd m a).toNat ≤ (nowT m).toNat)) ∧
   (∃ (t : Nat) (s : State) (src : TimeSrc) (h : Nat),
    let m := s.now t
    ((srcOf m src).rejected = some h) ∧ h < hourNow m) ∧
   (∃ (t tag : Nat) (s : State) (m : Mod) (c : Cmd) (q : List Effect),
    Starts 0x0F20 t tag s m c ∧ c.body.length = 112 ∧ needBlk m .tim = .ok () ∧ f32 c 0 ≤ 259200 ∧
    f32 c 4 ≤ 1000000 ∧ 1 ≤ f32 c 8 ∧ f32 c 8 ≤ 10000000 ∧ f8 c 12 ≤ 7 ∧ allZero (fBytes c 13 3) = true ∧
    ptpEntryOk (fBytes c 0x10 48) = true ∧ ptpEntryOk (fBytes c 0x40 48) = true ∧
    quorum m tag c clsTimeConfig = .ok q) ∧
   (∃ (t tag : Nat) (s : State) (m : Mod) (c : Cmd) (q : List Effect) (src : TimeSrc) (e : Int),
    Starts 0x0F21 t tag s m c ∧ c.body = [] ∧ needBlk m .tim = .ok () ∧ timeSrcs.find? (srcRefused m) = some src ∧
    srcTime m src = some e ∧ quorum m tag c clsTimeConfig = .ok q) := by
  refine ⟨
    ⟨0, plain { unit with dur := { unit.dur with tcfg := { TimeCfg.reset with ptp0 := ptpEntry0 } } }, ptpMsg, .ptp0,
      ?_, ?_, ?_⟩,
    ⟨0, plain { unit with dur := { unit.dur with tcfg := { TimeCfg.reset with ptp0 := ptpEntry0 } } }, ptpMsg, .ptp0,
      ?_, ?_, ?_⟩,
    ⟨0, plain { unit with dur := { unit.dur with tcfg := { TimeCfg.reset with ptp0 := ptpEntry0 } }, tim := { unit.tim
                            with reqSent := [(0, 0)] } }, ptpMsg, .ptp0, 0, ?_, ?_, ?_⟩,
    ⟨0, plain { unit with dur := { unit.dur with tcfg := { TimeCfg.reset with ptp0 := ptpEntry0 } }, nif := hosted.nif
                            }, ptpMsg, ?_, ?_, ?_, ?_⟩,
    ⟨0, plain { unit with dur := { unit.dur with tcfg := { TimeCfg.reset with ptp0 := ptpEntry0 } }, nif := hosted.nif
                            }, ?_, ?_, all_none ?_⟩,
    ⟨0, plain { unit with tim := { unit.tim with tod := some (0, 1) } }, 0, 1, ?_, ?_⟩,
    ⟨[0xA5, 0x5A, 1, 1, 1, 0, 0, 0, 0, 0, 0, 0] ++ le32 (crc32c [0xA5, 0x5A, 1, 1, 1, 0, 0, 0, 0, 0, 0, 0]), ?_, ?_⟩,
    ⟨0, plain { unit with clk := 2000000000, tim := { unit.tim with pps := some 0 } }, .pps, 0, ?_, ?_⟩,
    ⟨0, plain { unit with clk := 20000000000000, tim := { unit.tim with mode := .holdover, lossAt := some 0 } }, 0,
      ?_, ?_, ?_⟩,
    ⟨0, plain { unit with clk := 4000000000000, tim := { unit.tim with
        src := [(srcIdx .pps, { SrcState.reset with rejected := some 0, qualified := true, last := some (0, 0) })] }
                            }, .pps, 0, ?_, ?_⟩,
    ⟨0, 1, bench (approved unit deviceDomain clsTimeConfig (admin 0x0F20 (put 112 [(8, [1])]))) (admin 0x0F20 (put 112
      [(8, [1])])), _, _, _, starts_of rfl ?_ ?_, ?_, eq_unit ?_, ?_, ?_, ?_, ?_, ?_, ?_, ?_, ?_, eq_val ?_⟩,
    ⟨0, 1, bench (approved { unit with
        tim := { unit.tim with src := [(srcIdx .pps, { SrcState.reset with
          rejected := some 0, qualified := true, last := some (0, 0) })] } } deviceDomain clsTimeConfig (admin 0x0F21
      [])) (admin 0x0F21 []), _, _, _, .pps, 0, starts_of rfl ?_ ?_, ?_, eq_unit ?_, ?_, ?_, eq_val ?_⟩⟩ <;> decide +kernel

theorem TwinCommandsComplete_met :
   (∃ (t tag : Nat) (s : State) (m : Mod) (c : Cmd) (q : List Effect),
    let cert := c.body.drop 16
    Starts 0x1001 t tag s m c ∧ 16 ≤ c.body.length ∧ c.body.length = 16 + f16 c 14 ∧ needBlk m .tlk = .ok () ∧
    f8 c 8 ≤ 1 ∧ allZero (fBytes c 9 5) = true ∧ canPair m = true ∧ m.tlk.pairing = none ∧
    quorum m tag c clsTwinPair = .ok q ∧ (¬ ((Config.certKey cert).length = 96 ∧ Config.certUid cert = f64 c 0))) ∧
   (∃ (t tag : Nat) (s : State) (m : Mod) (c : Cmd) (q : List Effect),
    Starts 0x1002 t tag s m c ∧ c.body.length = 8 ∧ needBlk m .tlk = .ok () ∧ f8 c 0 ≤ 1 ∧
    allZero (fBytes c 1 7) = true ∧ m.tlk.paired = true ∧ quorum m tag c clsTwinPair = .ok q ∧
    (f8 c 0 = 1 ∧ silentFor m (60 * nsPerS) = true)) ∧
   (∃ (t tag : Nat) (s : State) (m : Mod) (c : Cmd) (q : List Effect),
    Starts 0x1002 t tag s m c ∧ c.body.length = 8 ∧ needBlk m .tlk = .ok () ∧ f8 c 0 ≤ 1 ∧
    allZero (fBytes c 1 7) = true ∧ m.tlk.paired = true ∧ quorum m tag c clsTwinPair = .ok q ∧
    (¬ (f8 c 0 = 1 ∧ silentFor m (60 * nsPerS) = true)) ∧
    (linkPasses m 0 = true ∧ pathSilent m 0 = false ∨ linkPasses m 1 = true ∧ pathSilent m 1 = false) ∧
    m.tlk.role = .windward ∧ m.tlk.sync = true) ∧
   (∃ (t tag : Nat) (s : State) (m : Mod) (c : Cmd) (q : List Effect),
    Starts 0x1002 t tag s m c ∧ c.body.length = 8 ∧ needBlk m .tlk = .ok () ∧ f8 c 0 ≤ 1 ∧
    allZero (fBytes c 1 7) = true ∧ m.tlk.paired = true ∧ quorum m tag c clsTwinPair = .ok q ∧
    (¬ (f8 c 0 = 1 ∧ silentFor m (60 * nsPerS) = true)) ∧
    (linkPasses m 0 = true ∧ pathSilent m 0 = false ∨ linkPasses m 1 = true ∧ pathSilent m 1 = false) ∧
    ¬ (m.tlk.role = .windward)) ∧
   (∃ (t tag : Nat) (s : State) (m : Mod) (c : Cmd),
    Starts 0x1003 t tag s m c ∧ c.body = [] ∧ needBlk m .tlk = .ok ()) ∧
   (∃ (t tag : Nat) (s : State) (m : Mod) (c : Cmd) (q : List Effect),
    Starts 0x1004 t tag s m c ∧ c.body = [] ∧ needBlk m .tlk = .ok () ∧
    (m.tlk.role = .leeward ∨ m.tlk.role = .held) ∧ m.tlk.paired = true ∧ m.tlk.orphaned = false ∧
    isErased m = false ∧ m.tlk.promoting = none ∧ allSilent m = true ∧ quorum m tag c clsTwinPair = .ok q) ∧
   (∃ (t tag : Nat) (s : State) (m : Mod) (c : Cmd),
    Starts 0x1005 t tag s m c ∧ c.body = [] ∧ needBlk m .tlk = .ok () ∧ m.tlk.paired = true ∧
    m.tlk.role = .windward ∧ m.tlk.sync = true ∧ m.tlk.peerFormat = true ∧ m.tlk.handover = none) ∧
   (∃ (t tag : Nat) (s : State) (m : Mod) (c : Cmd),
    Starts 0x1006 t tag s m c ∧ c.body.length = 8 ∧ needBlk m .tlk = .ok () ∧ f8 c 0 ≤ 1 ∧ 1 ≤ f32 c 4 ∧
    f32 c 4 ≤ 3600 ∧ allZero (fBytes c 1 3) = true) ∧
   (∃ (t tag : Nat) (s : State) (m : Mod) (c : Cmd),
    Starts 0x1007 t tag s m c ∧ c.body = [] ∧ m.tlk.role = .leeward) := by
  refine ⟨
    ⟨0, 1, bench (approved unit deviceDomain clsTwinPair mispaired) mispaired, _, _, _, starts_of rfl ?_ ?_, ?_, ?_,
      eq_unit ?_, ?_, ?_, ?_, ?_, eq_val (approved_ok _ rfl _ rfl), mispaired_cert _⟩,
    ⟨0, 1, bench (approved { { twinned .leeward with tlk := { (twinned .leeward).tlk with silent := [] } } with
        clk := 60000000000 } deviceDomain clsTwinPair (admin 0x1002 (put 8 [(0, [1])]))) (admin 0x1002 (put 8 [(0,
      [1])])), _, _, _, starts_of rfl ?_ ?_, ?_, eq_unit ?_, ?_, ?_, ?_, eq_val ?_, ?_⟩,
    ⟨0, 1, bench (approved (twinned .windward) deviceDomain clsTwinPair (admin 0x1002 (put 8 []))) (admin 0x1002 (put
      8 [])), _, _, _, starts_of rfl ?_ ?_, ?_, eq_unit ?_, ?_, ?_, ?_, eq_val ?_, ?_, ?_, ?_, ?_⟩,
    ⟨0, 1, bench (approved (twinned .leeward) deviceDomain clsTwinPair (admin 0x1002 (put 8 []))) (admin 0x1002 (put 8
      [])), _, _, _, starts_of rfl ?_ ?_, ?_, eq_unit ?_, ?_, ?_, ?_, eq_val ?_, ?_, ?_, ?_⟩,
    ⟨0, 1, bench (twinned .leeward) (admin 0x1003 []), _, _, starts_of rfl ?_ ?_, ?_, eq_unit ?_⟩,
    ⟨0, 1, bench (approved { twinned .leeward with tlk := { (twinned .leeward).tlk with silent := [] } } deviceDomain
      clsTwinPair (admin 0x1004 [])) (admin 0x1004 []), _, _, _, starts_of rfl ?_ ?_, ?_, eq_unit ?_, ?_, ?_, ?_, ?_,
      ?_, ?_, eq_val ?_⟩,
    ⟨0, 1, bench (twinned .windward) (admin 0x1005 []), _, _, starts_of rfl ?_ ?_, ?_, eq_unit ?_, ?_, ?_, ?_, ?_, ?_⟩,
    ⟨0, 1, bench unit (admin 0x1006 (put 8 [(4, [1])])), _, _, starts_of rfl ?_ ?_, ?_, eq_unit ?_, ?_, ?_, ?_, ?_⟩,
    ⟨0, 1, bench (twinned .leeward) (admin 0x1007 []), _, _, starts_of rfl ?_ ?_, ?_, ?_⟩⟩ <;> decide +kernel

theorem LeewardEventsComplete_met :
   (∃ (t : Nat) (f : LinkFrame) (s : State),
    let m := s.now t
    let m1 := noteFrame m f
    linkPasses m f.link = true ∧ frameTaken m f = true ∧ m1.tlk.paired = true) ∧
   (∃ (t : Nat) (f : LinkFrame) (s : State) (r : JRecord),
    let m := s.now t
    let m1 := noteFrame m f
    linkPasses m f.link = true ∧ frameTaken m f = true ∧ takesRecords m1 f.link = true ∧ r.jsn ≠ 0 ∧
    m1.jnl.jsnLast.toNat < r.jsn.toNat ∧ r.jsn = m1.jnl.jsnLast + 1 ∧ m1.tlk.stale = false ∧
    imageMatches m1 r = true) ∧
   (∃ (t : Nat) (f : LinkFrame) (s : State),
    let m := s.now t
    let m1 := noteFrame m f
    linkPasses m f.link = true ∧ frameTaken m f = true ∧ takesRecords m1 f.link = true ∧ m1.tlk.stale = false) ∧
   (∃ (t : Nat) (f : LinkFrame) (s : State),
    let m := s.now t
    let m1 := noteFrame m f
    linkPasses m f.link = true ∧ frameTaken m f = true ∧ takesRecords m1 f.link = true ∧ m1.tlk.resync = false) ∧
   (∃ (t : Nat) (f : LinkFrame) (s : State),
    let m := s.now t
    let m1 := noteFrame m f
    linkPasses m f.link = true ∧ frameTaken m f = true ∧ takesRecords m1 f.link = true ∧ m1.tlk.resync = false) ∧
   (∃ (t : Nat) (f : LinkFrame) (s : State) (jsn : W64),
    let m := s.now t
    let m1 := noteFrame m f
    linkPasses m f.link = true ∧ frameTaken m f = true ∧ takesRecords m1 f.link = true ∧ m1.tlk.sync = true ∧
    m1.tlk.stale = false ∧ jsn = m1.jnl.jsnLast) := by
  refine ⟨
    ⟨0, linkFrame, plain (twinned .leeward), ?_, ?_, ?_⟩,
    ⟨0, linkFrame, plain (twinned .leeward), { jsn := 1, effects := [], req := none, tag := none, unitOnly := false },
      ?_, ?_, ?_, ?_, ?_, ?_, ?_, ?_⟩,
    ⟨0, linkFrame, plain (twinned .leeward), ?_, ?_, ?_, ?_⟩,
    ⟨0, linkFrame, plain (twinned .leeward), ?_, ?_, ?_, ?_⟩,
    ⟨0, linkFrame, plain (twinned .leeward), ?_, ?_, ?_, ?_⟩,
    ⟨0, linkFrame, plain (twinned .leeward), _, ?_, ?_, ?_, ?_, ?_, rfl⟩⟩ <;> decide +kernel

theorem WindwardAndHeartbeatsComplete_met :
   (∃ (t : Nat) (s : State) (f : LinkFrame) (jsn : W64),
    let m := s.now t
    let m1 := noteFrame m f
    linkPasses m f.link = true ∧ frameTaken m f = true ∧ m1.tlk.paired = true ∧ m1.tlk.role = .windward ∧
    m1.tlk.sync = true ∧ jsn ≠ 0 ∧ m1.tlk.jsnAcked.toNat < jsn.toNat ∧ jsn.toNat ≤ m1.jnl.jsnLast.toNat) ∧
   (∃ (t : Nat) (s : State) (jsn : W64) (w : Nat),
    let m := s.now t
    m.tlk.paired = true ∧ m.tlk.role = .windward ∧ m.tlk.sync = true ∧ jsn ≠ 0 ∧ ackWait m jsn = some w ∧
    m.tlk.jsnAcked.toNat < jsn.toNat ∧ 50000 ≤ w) ∧
   (∃ (t : Nat) (s : State),
    let m := s.now t
    serveOk m = true) ∧
   (∃ (t : Nat) (s : State) (f : LinkFrame),
    let m := s.now t
    let m1 := noteFrame m f
    f.link < 2 ∧ linkPasses m f.link = true ∧ frameTaken m f = true ∧ m1.tlk.paired = true) ∧
   (∃ (t : Nat) (s : State) (f : LinkFrame),
    let m := s.now t
    f.link < 2 ∧ linkPasses m f.link = true ∧ frameTaken m f = false) ∧
   (∃ (t : Nat) (s : State),
    let m := s.now t
    pathSilent m 2 = false ∧ heardAt m 2 + 1000000 ≤ m.clk) ∧
   (∃ (t : Nat) (s : State) (l : Nat),
    let m := s.now t
    linkPasses m l = true ∧
    (2 ^ 32 ≤ (linkOf m l).sent ∨ 2 ^ 32 ≤ (linkOf m l).got ∨ (linkOf m l).keyedAt + 3600 * nsPerS ≤ m.clk)) := by
  refine ⟨
    ⟨0, plain { twinned .windward with
        clk := 7, jnl := { unit.jnl with
          jsnLast := 1, issued := [{ rcd := { jsn := 1, effects := [], req := none, tag := none, unitOnly := false },
                                     issued := 0 }] } }, linkFrame, 1, ?_, ?_, ?_, ?_, ?_, ?_, ?_, ?_⟩,
    ⟨0, plain { twinned .windward with
        clk := 50000, jnl := { unit.jnl with
          jsnLast := 1, issued := [{ rcd := { jsn := 1, effects := [], req := none, tag := none, unitOnly := false },
                                     issued := 0 }] } }, 1, 50000, ?_, ?_, ?_, ?_, ?_, ?_, ?_⟩,
    ⟨0, plain (twinned .windward), ?_⟩,
    ⟨0, plain (twinned .windward), linkFrame, ?_, ?_, ?_, ?_⟩,
    ⟨0, plain (twinned .windward), { linkFrame with tagOk := false }, ?_, ?_, ?_⟩,
    ⟨0, plain { twinned .windward with clk := 1000000 }, ?_, ?_⟩,
    ⟨0, plain { twinned .windward with clk := 3600000000000 }, 0, ?_, ?_⟩⟩ <;> decide +kernel

theorem RoleEventsComplete_met :
   (∃ (t : Nat) (s : State) (l : Nat) (h : LinkHello),
    let m := s.now t
    l < 2 ∧ m.powered = true ∧ m.rng.halted = false ∧ m.jnl.started = true ∧ m.jnl.fit = true ∧
    m.jnl.flushing = false ∧ m.ssv.tamper = .normal ∧ m.khs.idKey ≠ none ∧ 2 ≤ h.lanes ∧ helloOk m h = false) ∧
   (∃ (t : Nat) (s : State) (l : Nat) (h : LinkHello),
    let m := s.now t
    l < 2 ∧ m.powered = true ∧ m.rng.halted = false ∧ m.jnl.started = true ∧ m.jnl.fit = true ∧
    m.jnl.flushing = false ∧ m.ssv.tamper = .normal ∧ m.khs.idKey ≠ none ∧ h.lanes < 2) ∧
   (∃ (t : Nat) (s : State) (a : Nat),
    let m := s.now t
    m.tlk.promoting = some a ∧ a + 11000000 ≤ m.clk ∧ serveOk m = true) ∧
   (∃ (t : Nat) (s : State),
    let m := s.now t
    m.tlk.paired = true ∧ m.tlk.resync = true ∧ (linkPasses m 0 = true ∨ linkPasses m 1 = true) ∧
    m.tlk.role = .leeward) ∧
   (∃ (t : Nat) (s : State),
    let m := s.now t
    m.tlk.paired = true ∧ m.tlk.resync = true ∧ (linkPasses m 0 = true ∨ linkPasses m 1 = true) ∧
    m.tlk.role = .windward) ∧
   (∃ (t : Nat) (s : State) (a : W64) (x : Timer),
    let m := s.now t
    m.tlk.handover = some a ∧ m.tlk.role = .windward ∧ m.tlk.sync = true ∧ serveOk m = true ∧
    firing m (.system 0) = some x) ∧
   (∃ (t : Nat) (s : State) (a : W64),
    let m := s.now t
    m.tlk.handover = some a ∧ m.tlk.role = .windward ∧ m.tlk.sync = true ∧ serveOk m = true ∧ m.tlk.handing = true ∧
    ((t64Add a 900000).toNat ≤ (nowT m).toNat)) ∧
   (∃ (t : Nat) (s : State) (a : Nat),
    let m := s.now t
    m.tlk.holdFrom = some a ∧ m.tlk.handover = none ∧ a + m.dur.revertHold * nsPerS ≤ m.clk) ∧
   (∃ (t : Nat) (s : State) (tag : Nat) (uid : W64) (home : Bool) (c : Cmd),
    let m := s.now t
    m.tlk.pairing = some (tag, uid, home) ∧ cmdOf m tag = some c ∧
    ((t64Add c.stamp (600 * nsPerS)).toNat ≤ (nowT m).toNat)) ∧
   (∃ (t : Nat) (s : State) (a : Nat),
    let m := s.now t
    m.tlk.starting = some a ∧ a + 20000000 ≤ m.clk ∧ allSilent m = true) ∧
   (∃ (t : Nat) (s : State),
    let m := s.now t
    m.powered = true ∧ holdsWork m = true) := by
  refine ⟨
    ⟨0, plain { unit with khs := { unit.khs with idKey := some 1 } }, 1, { hello with sigOk := false }, ?_, ?_, ?_,
      ?_, ?_, ?_, ?_, ?_, ?_, ?_⟩,
    ⟨0, plain { unit with khs := { unit.khs with idKey := some 1 } }, 1, { hello with lanes := 1 }, ?_, ?_, ?_, ?_,
      ?_, ?_, ?_, ?_, ?_⟩,
    ⟨0, plain { { twinned .held with tlk := { (twinned .held).tlk with promoting := some 0 } } with clk := 11000000 },
      0, ?_, ?_, ?_⟩,
    ⟨0, plain { twinned .leeward with tlk := { (twinned .leeward).tlk with resync := true } }, ?_, ?_, ?_, ?_⟩,
    ⟨0, plain { twinned .windward with tlk := { (twinned .windward).tlk with resync := true } }, ?_, ?_, ?_, ?_⟩,
    ⟨0, plain { { twinned .windward with tlk := { (twinned .windward).tlk with handover := some 0 } } with
        clk := 1000000000, sch := { SchState.reset with
          timers := [{ kind := .system 0, due := 0, order := 0, placed := 0 }] } }, 0, {
            kind := .system 0, due := 0, order := 0, placed := 0 }, ?_, ?_, ?_, ?_, ?_⟩,
    ⟨0, plain { { twinned .windward with tlk := { (twinned .windward).tlk with handover := some 0, handing := true } }
      with clk := 900000 }, 0, ?_, ?_, ?_, ?_, ?_, ?_⟩,
    ⟨0, plain { { twinned .windward with tlk := { (twinned .windward).tlk with holdFrom := some 0 } } with
        clk := 3600000000000 }, 0, ?_, ?_, ?_⟩,
    ⟨0, plain (hasCmd { { twinned .unpaired with
        tlk := { (twinned .unpaired).tlk with pairing := some (1, 7, true) } } with clk := 601000000000 } ({ admin
      0x1001 [] with phase := .twin })), 1, 7, true, { admin 0x1001 [] with phase := .twin }, ?_, ?_, ?_⟩,
    ⟨0, plain { { twinned .unpaired with tlk := { (twinned .unpaired).tlk with starting := some 0, silent := [] } }
      with clk := 20000000 }, 0, ?_, ?_, ?_⟩,
    ⟨0, plain (hasCmd unit ({ cmd 0x0109 [] with phase := .done })), ?_, ?_⟩⟩ <;> decide +kernel

theorem QueuesAndFifosComplete_met :
   (∃ (t : Nat) (s : State) (q : QId) (at' : Nat) (entry : Bytes),
    let m := s.now t
    let e := fitRight 128 entry
    readingOf m q = some at' ∧ readLate m at' = false ∧ entryOk e = false) ∧
   (∃ (t : Nat) (s : State) (q : QId) (at' : Nat) (entry : Bytes),
    let m := s.now t
    let e := fitRight 128 entry
    readingOf m q = some at' ∧ readLate m at' = false ∧ entryOk e = true ∧ entryPtr e = false) ∧
   (∃ (t : Nat) (s : State) (q : QId) (at' : Nat) (entry : Bytes),
    let m := s.now t
    let e := fitRight 128 entry
    readingOf m q = some at' ∧ readLate m at' = false ∧ entryOk e = true ∧ entryPtr e = true) ∧
   (∃ (t : Nat) (s : State) (ten n : Nat),
    let m := s.now t
    ((readingOf m (.qp ten n)).isSome = true)) ∧
   (∃ (t : Nat) (s : State) (p : Port) (at' : Nat),
    let m := s.now t
    readingOf m (.admin p) = some at') ∧
   (∃ (t : Nat) (s : State) (p : Port) (at' : Nat),
    let m := s.now t
    readingOf m (.admin p) = some at' ∧ at' + 50000 ≤ m.clk) ∧
   (∃ (t : Nat) (s : State) (id : Nat) (x : PtrRead),
    let m := s.now t
    tblFind m.cmq.ptr id = some x ∧ x.got = none ∧ m.clk < x.issued + 50000) ∧
   (∃ (t : Nat) (s : State) (id : Nat) (x : PtrRead),
    let m := s.now t
    tblFind m.cmq.ptr id = some x ∧ x.got = none) ∧
   (∃ (t : Nat) (s : State) (id : Nat) (x : PtrRead),
    let m := s.now t
    tblFind m.cmq.ptr id = some x ∧ x.got = none ∧ x.issued + 50000 ≤ m.clk) ∧
   (∃ (t : Nat) (s : State) (tag : Nat) (c : Cmd),
    let m := s.now t
    cmdOf m tag = some c ∧ c.readAt + 50000 ≤ m.clk) ∧
   (∃ (t : Nat) (s : State) (ten : Nat) (d d1 : W64) (rest : List W64),
    let m := s.now t
    let h := tenOf m ten
    h.fifo.push = d :: d1 :: rest ∧ h.fifo.granted = true ∧ fifoWaits m ten = true) := by
  refine ⟨
    ⟨0, plain hosted, .qp 5 0, 0, [], ?_, ?_, ?_⟩,
    ⟨0, plain hosted, .admin .a, 0, put 128 [(2, [32])], ?_, ?_, ?_, ?_⟩,
    ⟨0, plain hosted, .qp 5 0, 0, put 128 [(0, [1]), (2, [32])], ?_, ?_, ?_, ?_⟩,
    ⟨0, plain hosted, 5, 0, ?_⟩,
    ⟨0, plain hosted, .a, 0, ?_⟩,
    ⟨0, plain { hosted with clk := 50000 }, .a, 0, ?_, ?_⟩,
    ⟨0, plain { hosted with clk := 7, cmq := { hosted.cmq with
        ptr := [(0, { q := .qp 5 0, sqHead := 0, entry := zeroBytes 128, stamp := { time := 0, clk := 0 }, issued :=
                        0, got := none })] } }, 0, {
                          q := .qp 5 0, sqHead := 0, entry := zeroBytes 128, stamp := { time := 0, clk := 0 }, issued
                            := 0, got := none }, ?_, ?_, ?_⟩,
    ⟨0, plain { hosted with clk := 7, cmq := { hosted.cmq with
        ptr := [(0, { q := .qp 5 0, sqHead := 0, entry := zeroBytes 128, stamp := { time := 0, clk := 0 }, issued :=
                        0, got := none })] } }, 0, {
                          q := .qp 5 0, sqHead := 0, entry := zeroBytes 128, stamp := { time := 0, clk := 0 }, issued
                            := 0, got := none }, ?_, ?_⟩,
    ⟨0, plain { hosted with clk := 50000, cmq := { hosted.cmq with
        ptr := [(0, { q := .qp 5 0, sqHead := 0, entry := zeroBytes 128, stamp := { time := 0, clk := 0 }, issued :=
                        0, got := none })] } }, 0, {
                          q := .qp 5 0, sqHead := 0, entry := zeroBytes 128, stamp := { time := 0, clk := 0 }, issued
                            := 0, got := none }, ?_, ?_, ?_⟩,
    ⟨0, plain (hasCmd { unit with clk := 50000 } ({ cmd 0x0801 [] with phase := .job })), 1, { cmd 0x0801 [] with
        phase := .job }, ?_, ?_⟩,
    ⟨0, plain { hosted with ten := [(5, { TenHost.reset with
        attA := true, fifo := { Fifo.reset with push := [32, 7, 0, 0, 0, 0], granted := true } })] }, 5, 32, 7, [0, 0,
      0, 0], ?_, ?_, ?_⟩⟩ <;> decide +kernel

theorem CapsuleTransportCompletes_met :
   (∃ (t : Nat) (s : State) (f : NetFrame) (caps : List Bytes),
    let m := s.now t
    let b := f.payload
    let m1 := pmcEvent m 0x1007 none
    frameHeard m f = true ∧ isDatagram m f = true ∧ headerOk m1 b 1 = true ∧ admits m1 = true ∧
    splitCapsules (ncCount b) (b.drop 24) = some caps ∧ capsulesOk m1 b caps = true ∧ ncSession b = 0) ∧
   (∃ (t : Nat) (s : State) (f : NetFrame) (caps : List Bytes),
    let m := s.now t
    let b := f.payload
    let m1 := pmcEvent m 0x1007 none
    let n0 := (nctOf m1 (ncTenant b) (ncSession b)).getD (NctSess.start (peerOfFrame f))
    let n1 := takeAck { n0 with peer := peerOfFrame f } (ncAck b) (ncSack b)
    let n2 := if n1.fresh then { n1 with ackDsn := ncDsn b - 1, bitmap := 0, fresh := false } else n1
    frameHeard m f = true ∧ isDatagram m f = true ∧ headerOk m1 b 1 = true ∧ admits m1 = true ∧
    splitCapsules (ncCount b) (b.drop 24) = some caps ∧ capsulesOk m1 b caps = true ∧ ncSession b ≠ 0 ∧
    ((sessOf m1 (ncTenant b) (ncSession b)).isSome = true) ∧ dsnOld n2 (ncDsn b) = true) ∧
   (∃ (t : Nat) (s : State) (f : NetFrame) (caps : List Bytes),
    let m := s.now t
    let b := f.payload
    let m1 := pmcEvent m 0x1007 none
    let n0 := (nctOf m1 (ncTenant b) (ncSession b)).getD (NctSess.start (peerOfFrame f))
    let n1 := takeAck { n0 with peer := peerOfFrame f } (ncAck b) (ncSack b)
    let n2 := if n1.fresh then { n1 with ackDsn := ncDsn b - 1, bitmap := 0, fresh := false } else n1
    frameHeard m f = true ∧ isDatagram m f = true ∧ headerOk m1 b 1 = true ∧ admits m1 = true ∧
    splitCapsules (ncCount b) (b.drop 24) = some caps ∧ capsulesOk m1 b caps = true ∧ ncSession b ≠ 0 ∧
    ((sessOf m1 (ncTenant b) (ncSession b)).isSome = true) ∧ dsnOld n2 (ncDsn b) = false ∧
    n2.outstanding + caps.length ≤ lastWindow m1 (ncTenant b) n2) ∧
   (∃ (t : Nat) (s : State) (f : NetFrame),
    let m := s.now t
    let b := f.payload
    let m1 := pmcEvent m 0x1007 none
    frameHeard m f = true ∧ isDatagram m f = true ∧ headerOk m1 b 2 = true ∧ b.length = 24 ∧ ncCount b = 0 ∧
    ((sessOf m1 (ncTenant b) (ncSession b)).isSome = true)) ∧
   (∃ (t : Nat) (s : State) (ten sid : Nat) (n : NctSess) (d : Nat),
    let m := s.now t
    nctOf m ten sid = some n ∧ m.powered = true ∧ n.ackDue = some d ∧ d ≤ m.clk) ∧
   (∃ (t : Nat) (s : State) (ten sid : Nat) (n : NctSess) (dsn : Nat) (x : NctSent),
    let m := s.now t
    nctOf m ten sid = some n ∧ m.powered = true ∧
    n.sent.find? (fun s => s.dsn == dsn && decide (s.due ≤ m.clk)) = some x ∧ x.tries < m.nif.retries) ∧
   (∃ (t : Nat) (s : State) (ten sid : Nat) (n : NctSess) (dsn : Nat) (x : NctSent),
    let m := s.now t
    nctOf m ten sid = some n ∧ m.powered = true ∧
    n.sent.find? (fun s => s.dsn == dsn && decide (s.due ≤ m.clk)) = some x ∧ m.nif.retries ≤ x.tries) ∧
   (∃ (t : Nat) (s : State) (ten sid : Nat) (n : NctSess),
    let m := s.now t
    nctOf m ten sid = some n ∧ m.powered = true ∧ n.heldSince + m.nif.coalesce * 1000 ≤ m.clk) := by
  refine ⟨
    ⟨0, plain hosted, datagram 1 0 0 [openHello, openHello], [openHello, openHello], ?_, ?_, ?_, ?_, ?_, ?_, ?_⟩,
    ⟨0, plain { hosted with nif := { hosted.nif with sess := [(sessKey 5 1, { nct with fresh := false })] } },
      datagram 1 1 0 [capsule 1], [capsule 1], ?_, ?_, ?_, ?_, ?_, ?_, ?_, ?_, ?_⟩,
    ⟨0, plain hosted, datagram 1 1 9 [capsule 1], [capsule 1], ?_, ?_, ?_, ?_, ?_, ?_, ?_, ?_, ?_, ?_⟩,
    ⟨0, plain hosted, datagram 2 1 0 [], ?_, ?_, ?_, ?_, ?_, ?_⟩,
    ⟨0, plain { hosted with nif := { hosted.nif with sess := [(sessKey 5 1, { nct with ackDue := some 0 })] } }, 5, 1,
      { nct with ackDue := some 0 }, 0, ?_, ?_, ?_, ?_⟩,
    ⟨0, plain { hosted with nif := { hosted.nif with
        sess := [(sessKey 5 1, { nct with
          sent := [{ dsn := 3, recs := [], count := 1, due := 0, gap := 100000, tries := 5 }] })] } }, 5, 1, { nct
      with sent := [{ dsn := 3, recs := [], count := 1, due := 0, gap := 100000, tries := 5 }] }, 3, {
        dsn := 3, recs := [], count := 1, due := 0, gap := 100000, tries := 5 }, ?_, ?_, ?_, ?_⟩,
    ⟨0, plain { hosted with nif := { hosted.nif with
        sess := [(sessKey 5 1, { nct with
          sent := [{ dsn := 3, recs := [], count := 1, due := 0, gap := 100000, tries := 6 }] })] } }, 5, 1, { nct
      with sent := [{ dsn := 3, recs := [], count := 1, due := 0, gap := 100000, tries := 6 }] }, 3, {
        dsn := 3, recs := [], count := 1, due := 0, gap := 100000, tries := 6 }, ?_, ?_, ?_, ?_⟩,
    ⟨0, plain { hosted with nif := { hosted.nif with sess := [(sessKey 5 1, { nct with heldSince := 0 })] } }, 5, 1, {
      nct with heldSince := 0 }, ?_, ?_, ?_⟩⟩ <;> decide +kernel

theorem NetAnswersAndPortsComplete_met :
   (∃ (t : Nat) (s : State) (f : NetFrame) (e : NetEntry),
    let m := s.now t
    frameHeard m f = true ∧ frameFits m f = true ∧ nextHop m f.port f.vlan f.v6 f.src = some e ∧
    netPortSends m f.port = true ∧ f.v6 = false ∧ ((ownAddress m f.port f.vlan false f.target).isSome = true)) ∧
   (∃ (t : Nat) (s : State) (f : NetFrame) (e : NetEntry),
    let m := s.now t
    frameHeard m f = true ∧ frameFits m f = true ∧ nextHop m f.port f.vlan f.v6 f.src = some e ∧
    netPortSends m f.port = true ∧ f.v6 = true ∧ ((ownAddress m f.port f.vlan true f.target).isSome = true)) ∧
   (∃ (t : Nat) (s : State) (f : NetFrame) (e : NetEntry),
    let m := s.now t
    frameHeard m f = true ∧ frameFits m f = true ∧ nextHop m f.port f.vlan f.v6 f.src = some e ∧
    netPortSends m f.port = true ∧ ((ownAddress m f.port f.vlan f.v6 f.dst).isSome = true)) ∧
   (∃ (t : Nat) (s : State) (n : Nat),
    let m := s.now t
    m.powered = true ∧ n < 8) ∧
   (∃ (t : Nat) (s : State) (p : Port),
    let m := s.now t
    m.powered = true ∧ ((portOf m p).perst = false)) ∧
   (∃ (t : Nat) (s : State) (p : Port),
    let m := s.now t
    m.powered = true ∧ ((portOf m p).perst = false) ∧ ((portOf m p).cfgReady = false)) ∧
   (∃ (t : Nat) (s : State) (p : Port),
    let m := s.now t
    m.powered = true ∧ ((portOf m p).perst = false) ∧ ((portOf m p).cfgReady = true)) ∧
   (∃ (t : Nat) (s : State) (p : Port) (width gen : Nat),
    let m := s.now t
    m.powered = true ∧ ((portOf m p).perst = false) ∧ 1 ≤ gen ∧ gen ≤ 5 ∧ 1 ≤ width ∧ width ≤ 16) ∧
   (∃ (t : Nat) (s : State) (p : Port),
    let m := s.now t
    ((portOf m p).linkUp = true)) := by
  refine ⟨
    ⟨0, plain hosted, frame [], { NetEntry.reset with ctl := 0x08000001, addr := [10, 0, 0, 1] ++ zeroBytes 12 }, ?_,
      ?_, ?_, ?_, ?_, ?_⟩,
    ⟨0, plain { hosted with nif := { hosted.nif with
        addr := [(0, { NetEntry.reset with ctl := 0x40000003 })], nh := [(0, { NetEntry.reset with ctl := 0x40000003
                                                                                                     })] } }, { frame
      [] with v6 := true, src := zeroBytes 16, target := zeroBytes 16 }, { NetEntry.reset with ctl := 0x40000003 },
      ?_, ?_, ?_, ?_, ?_, ?_⟩,
    ⟨0, plain hosted, frame [], { NetEntry.reset with ctl := 0x08000001, addr := [10, 0, 0, 1] ++ zeroBytes 12 }, ?_,
      ?_, ?_, ?_, ?_⟩,
    ⟨0, plain hosted, 7, ?_, ?_⟩,
    ⟨0, plain hosted, .a, ?_, ?_⟩,
    ⟨0, plain hosted, .b, ?_, ?_, ?_⟩,
    ⟨0, plain { hosted with port := [(0, { PortState.reset with cfgReady := true })] }, .a, ?_, ?_, ?_⟩,
    ⟨0, plain hosted, .b, 16, 1, ?_, ?_, ?_, ?_, ?_, ?_⟩,
    ⟨0, plain hosted, .a, ?_⟩⟩ <;> decide +kernel

theorem BlockHeadersComplete_met :
   (∃ (t : Nat) (s : State) (ini : Initiator) (b : Blk),
    let m := s.now t
    WritesReg m ini b 0 0x08 ∧ fixedBlk b = false ∧ ((blkOf m b).ctl.getLsbD 0 = true ∨ quiesced m b = true)) ∧
   (∃ (t : Nat) (s : State) (ini : Initiator) (b : Blk),
    let m := s.now t
    WritesReg m ini b 0 0x08 ∧ fixedBlk b = false) ∧
   (∃ (t : Nat) (s : State) (ini : Initiator) (b : Blk),
    let m := s.now t
    WritesReg m ini b 0 0x08 ∧ fixedBlk b = false ∧ quiesced m b = true) ∧
   (∃ (t : Nat) (s : State) (ini : Initiator) (b : Blk),
    let m := s.now t
    WritesReg m ini b 0 0x08 ∧ fixedBlk b = false ∧ quiesced m b = false) ∧
   (∃ (t : Nat) (s : State) (ini : Initiator) (b : Blk),
    let m := s.now t
    WritesReg m ini b 0 0x08 ∧ fixedBlk b = false ∧ ((blkOf m b).ctl.getLsbD 0 = true ∨ quiesced m b = true)) ∧
   (∃ (t : Nat) (s : State) (ini : Initiator) (b : Blk),
    let m := s.now t
    WritesReg m ini b 0 0x08 ∧ fixedBlk b = true) ∧
   (∃ (t : Nat) (s : State) (ini : Initiator) (b : Blk),
    let m := s.now t
    WritesReg m ini b 0 0x08 ∧ fixedBlk b = true) ∧
   (∃ (t : Nat) (s : State) (ini : Initiator) (b : Blk),
    let m := s.now t
    WritesReg m ini b 0 0x10) ∧
   (∃ (t : Nat) (s : State) (ini : Initiator) (b : Blk),
    let m := s.now t
    WritesReg m ini b 0 0x18) := by
  refine ⟨
    ⟨0, plain served, .pf .a, .pke, ⟨?_, ?_, ?_⟩, ?_, ?_⟩,
    ⟨0, plain served, .pf .a, .pke, ⟨?_, ?_, ?_⟩, ?_⟩,
    ⟨0, plain { served with blk := [(Blk.pke.idx, { BlkHdr.reset with ctl := 2 })] }, .pf .a, .pke, ⟨?_, ?_, ?_⟩, ?_,
      ?_⟩,
    ⟨0, plain served, .pf .a, .pke, ⟨?_, ?_, ?_⟩, ?_, ?_⟩,
    ⟨0, plain served, .pf .a, .pke, ⟨?_, ?_, ?_⟩, ?_, ?_⟩,
    ⟨0, plain served, .pf .a, .rng, ⟨?_, ?_, ?_⟩, ?_⟩,
    ⟨0, plain served, .pf .a, .rng, ⟨?_, ?_, ?_⟩, ?_⟩,
    ⟨0, plain served, .pf .a, .tim, ⟨?_, ?_, ?_⟩⟩,
    ⟨0, plain served, .pf .a, .hif, ⟨?_, ?_, ?_⟩⟩⟩ <;> decide +kernel

theorem QueuePairRegistersComplete_met :
   (∃ (t : Nat) (s : State) (ini : Initiator) (ten q : Nat) (v : W32),
    let m := s.now t
    let at' := 0x1000 + 0x100 * q
    let x := qpOf m ten q
    let n := v.toNat % 4096
    q < 4 ∧ WritesWindow m ini ten (at' + 0x0C) ∧ n < x.sqSize) ∧
   (∃ (t : Nat) (s : State) (ini : Initiator) (ten q : Nat) (v : W32),
    let m := s.now t
    let at' := 0x1000 + 0x100 * q
    let x := qpOf m ten q
    let n := v.toNat % 4096
    q < 4 ∧ WritesWindow m ini ten (at' + 0x0C) ∧ x.sqSize ≤ n) ∧
   (∃ (t : Nat) (s : State) (ini : Initiator) (ten q : Nat) (v : W32),
    let m := s.now t
    let at' := 0x1000 + 0x100 * q
    let x := qpOf m ten q
    let n := v.toNat % 4096
    q < 4 ∧ WritesWindow m ini ten (at' + 0x1C) ∧ n < x.cqSize) ∧
   (∃ (t : Nat) (s : State) (ini : Initiator) (ten q : Nat) (v : W32),
    let m := s.now t
    let at' := 0x1000 + 0x100 * q
    let x := qpOf m ten q
    let n := v.toNat % 4096
    q < 4 ∧ WritesWindow m ini ten (at' + 0x1C) ∧ x.cqSize ≤ n) ∧
   (∃ (t : Nat) (s : State) (ini : Initiator) (ten q : Nat),
    let m := s.now t
    let at' := 0x1000 + 0x100 * q
    let x := qpOf m ten q
    q < 4 ∧ WritesWindow m ini ten (at' + 0x20) ∧ x.enable = false) ∧
   (∃ (t : Nat) (s : State) (ini : Initiator) (ten q : Nat),
    let m := s.now t
    let at' := 0x1000 + 0x100 * q
    let x := qpOf m ten q
    q < 4 ∧ WritesWindow m ini ten (at' + 0x20) ∧ x.enable = true) ∧
   (∃ (t : Nat) (s : State) (ini : Initiator) (ten q : Nat),
    let m := s.now t
    let at' := 0x1000 + 0x100 * q
    q < 4 ∧ WritesWindow m ini ten (at' + 0x20)) ∧
   (∃ (t : Nat) (s : State) (ini : Initiator) (ten q : Nat) (hi : Bool),
    let m := s.now t
    let at' := 0x1000 + 0x100 * q
    q < 4 ∧ WritesWindow m ini ten (at' + (if hi then 0x04 else 0)) ∧ qpActive m ten q = false) := by
  refine ⟨
    ⟨0, plain { served with ten := [(5, { TenHost.reset with
        attA := true, vfA := 1, qp := [(3, { QPair.reset with sqSize := 4096 })] })] }, .vf .a 1, 5, 3, 0xFFF, ?_,
      ⟨0x130c, ?_, ?_, ?_, ?_⟩, ?_⟩,
    ⟨0, plain { served with ten := [(5, { TenHost.reset with
        attA := true, vfA := 1, qp := [(3, { QPair.reset with sqSize := 2 })] })] }, .vf .a 1, 5, 3, 2, ?_, ⟨0x130c,
      ?_, ?_, ?_, ?_⟩, ?_⟩,
    ⟨0, plain { served with ten := [(5, { TenHost.reset with
        attA := true, vfA := 1, qp := [(3, { QPair.reset with cqSize := 2 })] })] }, .vf .a 1, 5, 3, 1, ?_, ⟨0x131c,
      ?_, ?_, ?_, ?_⟩, ?_⟩,
    ⟨0, plain { served with ten := [(5, { TenHost.reset with
        attA := true, vfA := 1, qp := [(3, { QPair.reset with cqSize := 2 })] })] }, .vf .a 1, 5, 3, 2, ?_, ⟨0x131c,
      ?_, ?_, ?_, ?_⟩, ?_⟩,
    ⟨0, plain { served with ten := [(5, { TenHost.reset with
        attA := true, vfA := 1, qp := [(3, { QPair.reset with enable := false })] })] }, .vf .a 1, 5, 3, ?_, ⟨0x1320,
      ?_, ?_, ?_, ?_⟩, ?_⟩,
    ⟨0, plain { served with ten := [(5, { TenHost.reset with
        attA := true, vfA := 1, qp := [(3, { QPair.reset with enable := true })] })] }, .vf .a 1, 5, 3, ?_, ⟨0x1320,
      ?_, ?_, ?_, ?_⟩, ?_⟩,
    ⟨0, plain { served with ten := [(5, { TenHost.reset with
        attA := true, vfA := 1, qp := [(3, { QPair.reset with enable := true })] })] }, .vf .a 1, 5, 3, ?_, ⟨0x1320,
      ?_, ?_, ?_, ?_⟩⟩,
    ⟨0, plain { served with ten := [(5, { TenHost.reset with
        attA := true, vfA := 1, qp := [(3, { QPair.reset with enable := false })] })] }, .vf .a 1, 5, 3, true, ?_,
      ⟨0x1304, ?_, ?_, ?_, ?_⟩, ?_⟩⟩ <;> decide +kernel

theorem AdminQueueRegistersComplete_met :
   (∃ (t : Nat) (s : State) (p : Port) (v : W32),
    let m := s.now t
    let grant := fun (off : Nat) => Granted m (write32 (.pf p) off 0) .inner off
    let x := admqOf m p
    let n := v.toNat % 4096
    grant 0x4C ∧ n < x.sqSize) ∧
   (∃ (t : Nat) (s : State) (p : Port) (v : W32),
    let m := s.now t
    let grant := fun (off : Nat) => Granted m (write32 (.pf p) off 0) .inner off
    let x := admqOf m p
    let n := v.toNat % 4096
    grant 0x4C ∧ x.sqSize ≤ n) ∧
   (∃ (t : Nat) (s : State) (p : Port) (v : W32),
    let m := s.now t
    let grant := fun (off : Nat) => Granted m (write32 (.pf p) off 0) .inner off
    let x := admqOf m p
    let n := v.toNat % 4096
    grant 0x5C ∧ n < x.cqSize) ∧
   (∃ (t : Nat) (s : State) (p : Port) (v : W32),
    let m := s.now t
    let grant := fun (off : Nat) => Granted m (write32 (.pf p) off 0) .inner off
    let x := admqOf m p
    let n := v.toNat % 4096
    grant 0x5C ∧ x.cqSize ≤ n) ∧
   (∃ (t : Nat) (s : State) (p : Port) (v : W32),
    let m := s.now t
    let grant := fun (off : Nat) => Granted m (write32 (.pf p) off 0) .inner off
    let size := v.toNat % 8192
    grant 0x48 ∧ (size = 0 ∨ 2 ≤ size ∧ size ≤ 4096)) ∧
   (∃ (t : Nat) (s : State) (p : Port) (v : W32),
    let m := s.now t
    let grant := fun (off : Nat) => Granted m (write32 (.pf p) off 0) .inner off
    let size := v.toNat % 8192
    grant 0x48 ∧ (size = 1 ∨ 4096 < size)) ∧
   (∃ (t : Nat) (s : State) (p : Port) (v : W32),
    let m := s.now t
    let grant := fun (off : Nat) => Granted m (write32 (.pf p) off 0) .inner off
    let size := v.toNat % 8192
    grant 0x58 ∧ (size = 0 ∨ 2 ≤ size ∧ size ≤ 4096)) ∧
   (∃ (t : Nat) (s : State) (p : Port) (v : W32),
    let m := s.now t
    let grant := fun (off : Nat) => Granted m (write32 (.pf p) off 0) .inner off
    let size := v.toNat % 8192
    grant 0x58 ∧ (size = 1 ∨ 4096 < size)) := by
  refine ⟨
    ⟨0, plain { served with port := [(0, { PortState.reset with
        linkUp := true, admq := { AdminQ.reset with sqSize := 4096 } })] }, .a, 4095, ⟨?_, ?_, ?_⟩, ?_⟩,
    ⟨0, plain { served with port := [(0, { PortState.reset with
        linkUp := true, admq := { AdminQ.reset with sqSize := 2 } })] }, .a, 2, ⟨?_, ?_, ?_⟩, ?_⟩,
    ⟨0, plain { served with port := [(0, { PortState.reset with
        linkUp := true, admq := { AdminQ.reset with cqSize := 2 } })] }, .a, 1, ⟨?_, ?_, ?_⟩, ?_⟩,
    ⟨0, plain { served with port := [(0, { PortState.reset with
        linkUp := true, admq := { AdminQ.reset with cqSize := 2 } })] }, .a, 2, ⟨?_, ?_, ?_⟩, ?_⟩,
    ⟨0, plain { served with port := [(0, { PortState.reset with
        linkUp := true, admq := { AdminQ.reset with cqSize := 0 } })] }, .a, 4096, ⟨?_, ?_, ?_⟩, ?_⟩,
    ⟨0, plain { served with port := [(0, { PortState.reset with
        linkUp := true, admq := { AdminQ.reset with cqSize := 0 } })] }, .a, 4097, ⟨?_, ?_, ?_⟩, ?_⟩,
    ⟨0, plain { served with port := [(0, { PortState.reset with
        linkUp := true, admq := { AdminQ.reset with cqSize := 0 } })] }, .a, 2, ⟨?_, ?_, ?_⟩, ?_⟩,
    ⟨0, plain { served with port := [(0, { PortState.reset with
        linkUp := true, admq := { AdminQ.reset with cqSize := 0 } })] }, .a, 1, ⟨?_, ?_, ?_⟩, ?_⟩⟩ <;> decide +kernel

theorem FifoRegistersComplete_met :
   (∃ (t : Nat) (s : State) (ini : Initiator) (ten : Nat) (w : W64),
    let m := s.now t
    let x := (tenOf m ten).fifo
    ReachesWindow m ini ten 0x2000 (fun a => write64 ini a w) ∧ x.discard ≠ 0 ∧ x.push.length < 512) ∧
   (∃ (t : Nat) (s : State) (ini : Initiator) (ten : Nat) (w : W64),
    let m := s.now t
    let x := (tenOf m ten).fifo
    ReachesWindow m ini ten 0x2000 (fun a => write64 ini a w) ∧ x.discard ≠ 0 ∧ 512 ≤ x.push.length) ∧
   (∃ (t : Nat) (s : State) (ini : Initiator) (ten : Nat) (w : W64),
    let m := s.now t
    let x := (tenOf m ten).fifo
    ReachesWindow m ini ten 0x2000 (fun a => write64 ini a w) ∧ x.discard = 0 ∧ x.push.length < 512 ∧
    (partWords x ≠ [] ∨ descOk w = true)) ∧
   (∃ (t : Nat) (s : State) (ini : Initiator) (ten : Nat) (w : W64),
    let m := s.now t
    let x := (tenOf m ten).fifo
    ReachesWindow m ini ten 0x2000 (fun a => write64 ini a w) ∧ x.discard = 0 ∧ x.push.length < 512 ∧
    (partWords x ≠ [] ∨ descOk w = true)) ∧
   (∃ (t : Nat) (s : State) (ini : Initiator) (ten : Nat) (w : W64),
    let m := s.now t
    let x := (tenOf m ten).fifo
    ReachesWindow m ini ten 0x2000 (fun a => write64 ini a w) ∧ x.discard = 0 ∧ x.push.length < 512 ∧
    partWords x = [] ∧ descOk w = false) ∧
   (∃ (t : Nat) (s : State) (ini : Initiator) (ten : Nat) (w : W64),
    let m := s.now t
    let x := (tenOf m ten).fifo
    ReachesWindow m ini ten 0x2000 (fun a => write64 ini a w) ∧ x.discard = 0 ∧ 512 ≤ x.push.length) ∧
   (∃ (t : Nat) (s : State) (ini : Initiator) (ten : Nat) (w : W64) (r : List W64),
    let m := s.now t
    let x := (tenOf m ten).fifo
    ReachesWindow m ini ten 0x2010 (fun a => read64 ini a) ∧ x.left = w :: r) ∧
   (∃ (t : Nat) (s : State) (ini : Initiator) (ten : Nat) (c : Bytes) (r : List Bytes),
    let m := s.now t
    let x := (tenOf m ten).fifo
    ReachesWindow m ini ten 0x2010 (fun a => read64 ini a) ∧ x.left = [] ∧ x.cpl = c :: r) ∧
   (∃ (t : Nat) (s : State) (ini : Initiator) (ten : Nat),
    let m := s.now t
    let x := (tenOf m ten).fifo
    ReachesWindow m ini ten 0x2010 (fun a => read64 ini a) ∧ x.left = [] ∧ x.cpl = []) ∧
   (∃ (t : Nat) (s : State) (ini : Initiator) (ten : Nat),
    let m := s.now t
    WritesWindow m ini ten 0x2018) := by
  refine ⟨
    ⟨0, plain { served with ten := [(5, { TenHost.reset with
        attA := true, vfA := 1, fifo := { Fifo.reset with discard := 3 } })] }, .vf .a 1, 5, 7, ⟨0x2000, ?_, ?_, ?_,
      ?_⟩, ?_, ?_⟩,
    ⟨0, plain { served with ten := [(5, { TenHost.reset with
        attA := true, vfA := 1, fifo := { Fifo.reset with discard := 3, push := List.replicate 512 0 } })] }, .vf .a
      1, 5, 7, ⟨0x2000, ?_, ?_, ?_, ?_⟩, ?_, ?_⟩,
    ⟨0, plain { served with ten := [(5, { TenHost.reset with
        attA := true, vfA := 1, fifo := { Fifo.reset with push := [40] } })] }, .vf .a 1, 5, 7, ⟨0x2000, ?_, ?_, ?_,
      ?_⟩, ?_, ?_, ?_⟩,
    ⟨0, plain { served with ten := [(5, { TenHost.reset with
        attA := true, vfA := 1, fifo := { Fifo.reset with push := [] } })] }, .vf .a 1, 5, 0xC500000000000060,
      ⟨0x2000, ?_, ?_, ?_, ?_⟩, ?_, ?_, ?_⟩,
    ⟨0, plain { served with ten := [(5, { TenHost.reset with
        attA := true, vfA := 1, fifo := { Fifo.reset with push := [] } })] }, .vf .a 1, 5, 7, ⟨0x2000, ?_, ?_, ?_,
      ?_⟩, ?_, ?_, ?_, ?_⟩,
    ⟨0, plain { served with ten := [(5, { TenHost.reset with
        attA := true, vfA := 1, fifo := { Fifo.reset with push := List.replicate 512 0 } })] }, .vf .a 1, 5, 7,
      ⟨0x2000, ?_, ?_, ?_, ?_⟩, ?_, ?_⟩,
    ⟨0, plain { served with ten := [(5, { TenHost.reset with
        attA := true, vfA := 1, fifo := { Fifo.reset with left := [7] } })] }, .vf .a 1, 5, 7, [], ⟨0x2010, ?_, ?_,
      ?_, ?_⟩, ?_⟩,
    ⟨0, plain { served with ten := [(5, { TenHost.reset with
        attA := true, vfA := 1, fifo := { Fifo.reset with cpl := [zeroBytes 64] } })] }, .vf .a 1, 5, zeroBytes 64,
      [], ⟨0x2010, ?_, ?_, ?_, ?_⟩, ?_, ?_⟩,
    ⟨0, plain { served with ten := [(5, { TenHost.reset with
        attA := true, vfA := 1, fifo := { Fifo.reset with left := [] } })] }, .vf .a 1, 5, ⟨0x2010, ?_, ?_, ?_, ?_⟩,
      ?_, ?_⟩,
    ⟨0, plain { served with ten := [(5, { TenHost.reset with
        attA := true, vfA := 1, fifo := { Fifo.reset with left := [] } })] }, .vf .a 1, 5, ⟨0x2018, ?_, ?_, ?_, ?_⟩⟩⟩ <;> decide +kernel

theorem SettingsWritesComplete_met :
   (∃ (t : Nat) (s : State) (ini : Initiator) (v : W32),
    let m := s.now t
    let n := v.toNat % 8192
    WritesReg m ini .sch 1 0x120 ∧ 100 ≤ n ∧ n ≤ 4000) ∧
   (∃ (t : Nat) (s : State) (ini : Initiator) (v : W32),
    let m := s.now t
    let n := v.toNat % 8192
    WritesReg m ini .sch 1 0x120 ∧ (n < 100 ∨ 4000 < n)) ∧
   (∃ (t : Nat) (s : State) (ini : Initiator),
    let m := s.now t
    WritesReg m ini .kch 1 0x120 ∧ m.kch.busy = true) ∧
   (∃ (t : Nat) (s : State) (ini : Initiator),
    let m := s.now t
    WritesReg m ini .kch 1 0x120 ∧ m.kch.busy = false) ∧
   (∃ (t : Nat) (s : State) (ini : Initiator) (w : W64),
    let m := s.now t
    Granted m (write64 ini (blkAddr .bsx 1 0x108) w) .inner (blkAddr .bsx 1 0x108)) ∧
   (∃ (t : Nat) (s : State) (ini : Initiator) (reg : WinReg),
    let m := s.now t
    reg ≠ .base ∧ WritesReg m ini .bsx 1 (if reg = .size then 0x110 else 0x114)) ∧
   (∃ (t : Nat) (s : State) (ini : Initiator) (v : W32) (p : Port),
    let m := s.now t
    let ten := m.cmq.tsel
    let n := v.toNat % 8192
    let old := vfOf (tenOf m ten) p
    let taken := (tenantOfVf m p n).elim false (fun x => x != ten)
    WritesReg m ini .cmq 1 (0x180 + 4 * p.idx) ∧ n ≤ 4096 ∧ taken = false ∧
    (old = 0 ∨ n = old ∨ tenShown m ten ≠ .active)) ∧
   (∃ (t : Nat) (s : State) (ini : Initiator) (v : W32) (p : Port),
    let m := s.now t
    let ten := m.cmq.tsel
    let n := v.toNat % 8192
    let old := vfOf (tenOf m ten) p
    let taken := (tenantOfVf m p n).elim false (fun x => x != ten)
    WritesReg m ini .cmq 1 (0x180 + 4 * p.idx) ∧
    (4096 < n ∨ taken = true ∨ (old ≠ 0 ∧ n ≠ old ∧ tenShown m ten = .active))) ∧
   (∃ (t : Nat) (s : State) (ini : Initiator),
    let m := s.now t
    WritesReg m ini .cmq 1 0x110) := by
  refine ⟨
    ⟨0, plain served, .pf .a, 4000, ⟨?_, ?_, ?_⟩, ?_, ?_⟩,
    ⟨0, plain served, .pf .a, 99, ⟨?_, ?_, ?_⟩, ?_⟩,
    ⟨0, plain { served with kch := { served.kch with busy := true } }, .pf .a, ⟨?_, ?_, ?_⟩, ?_⟩,
    ⟨0, plain served, .pf .a, ⟨?_, ?_, ?_⟩, ?_⟩,
    ⟨0, plain served, .pf .a, 0x200000, ⟨?_, ?_, ?_⟩⟩,
    ⟨0, plain served, .pf .a, .size, ?_, ⟨?_, ?_, ?_⟩⟩,
    ⟨0, plain served, .pf .a, 4096, .b, ⟨?_, ?_, ?_⟩, ?_, ?_, ?_⟩,
    ⟨0, plain served, .pf .a, 4097, .a, ⟨?_, ?_, ?_⟩, ?_⟩,
    ⟨0, plain served, .pf .a, ⟨?_, ?_, ?_⟩⟩⟩ <;> decide +kernel

theorem GuardRegistersComplete_met :
   (∃ (t : Nat) (s : State) (ini : Initiator),
    let m := s.now t
    WritesReg m ini .ssv 1 0x158) ∧
   (∃ (t : Nat) (s : State) (ini : Initiator) (word : Nat),
    let m := s.now t
    word < 4 ∧ WritesReg m ini .ssv 1 (0x110 + 4 * word)) ∧
   (∃ (t : Nat) (s : State) (ini : Initiator) (agree : Bool) (st : W16),
    let m := s.now t
    let r := mboxBytes m 272
    WritesReg m ini .lcc 1 0x108 ∧ lccLive m = true ∧ lcState m ≠ 7 ∧
    transitionCheck m r (nowT m) agree = .error (.status st)) ∧
   (∃ (t : Nat) (s : State) (ini : Initiator),
    let m := s.now t
    WritesReg m ini .lcc 1 0x108 ∧ lccLive m = true ∧ ((blkOf m .lcc).locked = false) ∧ lcState m ≠ 7 ∧
    m.rng.halted = false) ∧
   (∃ (t : Nat) (s : State) (ini : Initiator),
    let m := s.now t
    WritesReg m ini .lcc 1 0x108 ∧ lccBusy m = false ∧ m.lcc.dbgOpen = true) := by
  refine ⟨
    ⟨0, plain served, .pf .a, ⟨?_, ?_, ?_⟩⟩,
    ⟨0, plain served, .pf .a, 3, ?_, ⟨?_, ?_, ?_⟩⟩,
    ⟨0, plain { served with lcc := { LccState.reset with decoded := some 1, dbgOpen := true } }, .pf .a, true,
      stBadLength, ⟨?_, ?_, ?_⟩, ?_, ?_, eq_error ?_⟩,
    ⟨0, plain { served with lcc := { LccState.reset with decoded := some 1, dbgOpen := true } }, .pf .a, ⟨?_, ?_, ?_⟩,
      ?_, ?_, ?_, ?_⟩,
    ⟨0, plain { served with lcc := { LccState.reset with decoded := some 1, dbgOpen := true } }, .pf .a, ⟨?_, ?_, ?_⟩,
      ?_, ?_⟩⟩ <;> decide +kernel

theorem MeasurementRegistersComplete_met :
   (∃ (t : Nat) (s : State) (ini : Initiator),
    let m := s.now t
    WritesReg m ini .evr 1 0x108) ∧
   (∃ (t : Nat) (s : State) (ini : Initiator),
    let m := s.now t
    WritesReg m ini .evr 1 0x13C) ∧
   (∃ (t : Nat) (s : State) (ini : Initiator),
    let m := s.now t
    WritesReg m ini .pmc 1 0x100) ∧
   (∃ (t : Nat) (s : State) (ini : Initiator),
    let m := s.now t
    WritesReg m ini .pmc 1 0x100) ∧
   (∃ (t : Nat) (s : State) (ini : Initiator),
    let m := s.now t
    Granted m (read64 ini (blkAddr .tlk 1 0x160)) .inner (blkAddr .tlk 1 0x160) ∧ m.tlk.divLog = []) ∧
   (∃ (t : Nat) (s : State) (ini : Initiator),
    let m := s.now t
    Granted m (read64 ini (blkAddr .rng 2 0x100)) .inner (blkAddr .rng 2 0x100)) ∧
   (∃ (t : Nat) (s : State) (ini : Initiator) (v : Bool),
    let m := s.now t
    WritesReg m ini .evr 1 0x100 ∧ m.evr.en = v) ∧
   (∃ (t : Nat) (s : State) (ini : Initiator) (v : Bool),
    let m := s.now t
    WritesReg m ini .evr 1 0x100 ∧ m.evr.en ≠ v) ∧
   (∃ (t : Nat) (s : State) (ini : Initiator) (n : Nat) (v : W64),
    let m := s.now t
    n < 256 ∧ Granted m (write64 ini (blkAddr .pmc 2 (8 * n)) v) .inner (blkAddr .pmc 2 (8 * n))) ∧
   (∃ (t : Nat) (s : State) (ini : Initiator) (x : W64) (r : List W64),
    let m := s.now t
    Granted m (read64 ini (blkAddr .tlk 1 0x160)) .inner (blkAddr .tlk 1 0x160) ∧ m.tlk.divLog = x :: r) := by
  refine ⟨
    ⟨0, plain served, .pf .a, ⟨?_, ?_, ?_⟩⟩,
    ⟨0, plain served, .pf .a, ⟨?_, ?_, ?_⟩⟩,
    ⟨0, plain served, .pf .a, ⟨?_, ?_, ?_⟩⟩,
    ⟨0, plain served, .pf .a, ⟨?_, ?_, ?_⟩⟩,
    ⟨0, plain served, .pf .a, ⟨?_, ?_, ?_⟩, ?_⟩,
    ⟨0, plain { served with lcc := { LccState.reset with decoded := some 1 } }, .test, ⟨?_, ?_, ?_⟩⟩,
    ⟨0, plain served, .pf .a, true, ⟨?_, ?_, ?_⟩, ?_⟩,
    ⟨0, plain served, .pf .a, false, ⟨?_, ?_, ?_⟩, ?_⟩,
    ⟨0, plain served, .pf .a, 255, 0, ?_, ⟨?_, ?_, ?_⟩⟩,
    ⟨0, plain { served with tlk := { TlkState.reset with divLog := [7] } }, .pf .a, 7, [], ⟨?_, ?_, ?_⟩, ?_⟩⟩ <;> decide +kernel

theorem RegisterWriteCompletes_met :
   (∃ (t : Nat) (s : State) (ini : Initiator) (sp : Space) (off addr : Nat) (v : W32) (r : Reg),
    let m := s.now t
    let n := choice m
    let e := envOf ini (BitVec.ofNat 32 n) (n / 2 ^ 32 % 2 == 1) (n / 2 ^ 33 % 2 == 1)
    Granted m (write32 ini addr v) sp off ∧ off % 4 = 0 ∧ (sp = .inner → off ≠ 0x1E1020 ∧ off ≠ 0x1E1028) ∧
    (((regAt e sp (off / 8 * 8)).filter (fun r => r.wide)) = none) ∧ regAt e sp off = some r) ∧
   (∃ (t : Nat) (s : State) (ini : Initiator) (sp : Space) (off addr : Nat) (v : W32),
    let m := s.now t
    let n := choice m
    let e := envOf ini (BitVec.ofNat 32 n) (n / 2 ^ 32 % 2 == 1) (n / 2 ^ 33 % 2 == 1)
    Granted m (write32 ini addr v) sp off ∧ off % 4 = 0 ∧ (sp = .inner → off ≠ 0x1E1020 ∧ off ≠ 0x1E1028) ∧
    (((regAt e sp (off / 8 * 8)).filter (fun r => r.wide)) = none) ∧ regAt e sp off = none) := by
  refine ⟨
    ⟨0, plain served, .pf .a, .inner, (blkAddr .pke 0 0x14), (blkAddr .pke 0 0x14), 5, _, ⟨?_, ?_, ?_⟩, ?_, ?_,
      eq_none ?_, eq_get ?_⟩,
    ⟨0, plain served, .pf .a, .inner, (blkAddr .pke 0 0xFFC), (blkAddr .pke 0 0xFFC), 5, ⟨?_, ?_, ?_⟩, ?_, ?_, eq_none
      ?_, eq_none ?_⟩⟩ <;> decide +kernel

theorem StepRunsFront_met :
   ∃ (c : Instr) (q : List Instr) (s : State),
    s.pending = c :: q :=
  ⟨.ppsEdge 0 true, [.ppsEdge 1 false], { mod := unit, pending := [.ppsEdge 0 true, .ppsEdge 1 false] }, rfl⟩

theorem StepIdles_met :
   ∃ (s : State),
    s.pending = [] :=
  ⟨plain unit, rfl⟩

theorem InvKept_met :
   ∃ (s s' : State),
    Inv s.mod ∧ step s = .next s' := by
  exact ⟨{ mod := unit, pending := [.ppsEdge 0 true] }, _, ⟨by decide +kernel, by simp [unit, Mod.reset,
    AcuState.reset]⟩, rfl⟩

theorem QuietCommandsChangeNothingElse_met :
   ∃ (i : Instr) (t : Nat) (s : State) (m : Mod),
    let m0 := advance t s.mod
    Leaves i t s m ∧ Quiet m ∧ m.ssv.squalled = m0.ssv.squalled ∧
    (∀ (b : Blk), (blkOf m b).fault = true → (blkOf m0 b).fault = true) ∧ devStat m = devStat s.mod ∧
    statusPins m = statusPins s.mod ∧ m.resets = s.mod.resets :=
  ⟨.ppsEdge 0 true, 0, plain unit, opPpsEdge true ((plain unit).now 0), acts_eq rfl, quiet_unit, rfl, fun _ h
    => h, rfl, rfl, rfl⟩

theorem BarTwoWindows_met :
   (∃ (t : Nat) (s : State) (a : Access) (p : Port) (ten off : Nat),
    let m := s.now t
    a.ini = .bar2 p ∧ ten < 4096 ∧ off < 65536 ∧ a.addr = ten * 65536 + off ∧ ((portOf m p).bar2En = true) ∧
    vfOf (tenOf m ten) p = 0) ∧
   (∃ (t : Nat) (s : State) (a : Access) (p : Port),
    let m := s.now t
    a.ini = .bar2 p ∧ arrives m a.ini = true ∧ ((portOf m p).bar2En = false)) := by
  refine ⟨
    ⟨0, plain { served with port := [(0, { PortState.reset with linkUp := true, bar2En := true })] }, write32 (.bar2
      .a) (4095 * 65536 + 65535) 0, .a, 4095, 65535, ?_, ?_, ?_, ?_, ?_, ?_⟩,
    ⟨0, plain { served with port := [(0, { PortState.reset with linkUp := true })] }, write32 (.bar2 .a) 0 0, .a, ?_,
      ?_, ?_⟩⟩ <;> decide +kernel

theorem UnboundWindows_met :
   ∃ (t : Nat) (s : State) (a : Access) (p : Port) (n : Nat),
    let m := s.now t
    a.ini = .vf p n ∧ a.vfTable = false ∧ tenantOfVf m p n = none ∧ 0 < a.len ∧ arrives m a.ini = true := by
  refine ⟨0, plain served, write32 (.vf .b 7) 0x2000 0, .b, 7, ?_, ?_, ?_, ?_, ?_⟩ <;> decide +kernel

theorem KeyPagesAreClosed_met :
   ∃ (t : Nat) (s : State) (a : Access) (off n : Nat),
    let m := s.now t
    arrives m a.ini = true ∧ spaceOf m a = (.inner, off) ∧ n ∈ pagesOf a off ∧ innerMapped n = true ∧
    keyPage (slotOf .inner n) (n % 16) = true ∧ (a.write = false ∨ a.ini.colour ≠ 0) := by
  refine ⟨0, plain served, read64 .ssv (blkAddr .kch 15 0xFF8), blkAddr .kch 15 0xFF8, blkAddr .kch 15 0xFF8 / 4096,
    ?_, ?_, ?_, ?_, ?_, ?_⟩ <;> decide +kernel

theorem ViolationStore_met :
   (∃ (c : Instr) (s s' : State),
    exec c s = .next s' ∧ s'.mod.resets = s.mod.resets) ∧
   (∃ (t : Nat) (s : State) (ini : Initiator),
    let m := s.now t
    WritesReg m ini .acu 1 0x20) ∧
   (∃ (m : Mod),
    m.acu.fifo = []) ∧
   (∃ (m : Mod) (a : Access) (sp : Space) (off slot page : Nat) (f : VioFlags),
    TurnedAway m a sp off f slot page) ∧
   (∃ (m : Mod) (a : Access) (sp : Space) (off slot page : Nat) (f : VioFlags),
    TurnedAway m a sp off f slot page ∧ m.acu.fifo.length < 1024) ∧
   (∃ (m : Mod) (a : Access) (sp : Space) (off slot page : Nat) (f : VioFlags),
    TurnedAway m a sp off f slot page ∧ 1024 ≤ m.acu.fifo.length) := by
  refine ⟨
    ⟨.ppsEdge 0 true, plain unit, _, rfl, rfl⟩,
    ⟨0, plain served, .pf .a, ⟨?_, ?_, ?_⟩⟩,
    ⟨Mod.reset, rfl⟩,
    ⟨served, read64 .ssv (blkAddr .kch 15 0xFF8), .inner, blkAddr .kch 15 0xFF8, Blk.kch.idx, 15, { VioFlags.none with
        key := true }, ⟨?_, ?_, ?_⟩⟩,
    ⟨served, read64 .ssv (blkAddr .kch 15 0xFF8), .inner, blkAddr .kch 15 0xFF8, Blk.kch.idx, 15, { VioFlags.none with
        key := true }, ⟨?_, ?_, ?_⟩, ?_⟩,
    ⟨{ served with acu := { AcuState.reset with fifo := List.replicate 1024 { w0 := 0, w1 := 0, w2 := 0, w3 := 0 } }
                     }, read64 .ssv (blkAddr .kch 15 0xFF8), .inner, blkAddr .kch 15 0xFF8, Blk.kch.idx, 15, {
      VioFlags.none with key := true }, ⟨?_, ?_, ?_⟩, ?_⟩⟩ <;> decide +kernel

theorem ReplayWindowIsExact_met :
   ∃ (m : Mod) (tag : Nat) (c : Cmd) (x : Session),
    cmdOf m tag = some c ∧ c.wasSealed = true ∧ sessOf m c.tenant c.session = some x ∧
    gated m x c.seq.toNat = false ∧ winFresh x.h x.bitmap c.seq.toNat = false := by
  refine ⟨hasCmd sessioned ({ cmd 0x0201 [] with wasSealed := true, session := 1, phase := .gate }), 1, { cmd 0x0201
    [] with wasSealed := true, session := 1, phase := .gate }, session, ?_, ?_, ?_, ?_, ?_⟩ <;> decide +kernel

theorem DisagreementsSquall_met :
   (∃ (m : Mod),
    let seen := m.ssv.fi.filter (fun a => decide (m.clk ≤ a + 60000000000))
    seen.length < 2) ∧
   (∃ (m : Mod),
    let seen := m.ssv.fi.filter (fun a => decide (m.clk ≤ a + 60000000000))
    2 ≤ seen.length) := by
  refine ⟨
    ⟨{ unit with clk := 60000000000, ssv := { SsvState.reset with fi := [0] } }, ?_⟩,
    ⟨{ unit with clk := 60000000000, ssv := { SsvState.reset with fi := [0, 1] } }, ?_⟩⟩ <;> decide +kernel

theorem ChainedCountersCountAsOne_met :
   (∃ (m : Mod) (n : Nat),
    n % 2 = 0 ∧ pselChain (pmcSel m (n + 1)) = true ∧ pselEn (pmcSel m (n + 1)) = true ∧
    tblGet 0 m.pmc.cnt n < 2 ^ 48 ∧ tblGet 0 m.pmc.cnt (n + 1) < 2 ^ 48) ∧
   (∃ (m : Mod) (n : Nat),
    let value := fun (x : Mod) => tblGet 0 x.pmc.cnt n + tblGet 0 x.pmc.cnt (n + 1) * 2 ^ 48
    n % 2 = 0 ∧ pselChain (pmcSel m (n + 1)) = true ∧ pselEn (pmcSel m (n + 1)) = true ∧
    tblGet 0 m.pmc.cnt n < 2 ^ 48 ∧ tblGet 0 m.pmc.cnt (n + 1) < 2 ^ 48 ∧ value m + 1 < 2 ^ 96) ∧
   (∃ (m : Mod) (n : Nat),
    let value := fun (x : Mod) => tblGet 0 x.pmc.cnt n + tblGet 0 x.pmc.cnt (n + 1) * 2 ^ 48
    n % 2 = 0 ∧ pselChain (pmcSel m (n + 1)) = true ∧ pselEn (pmcSel m (n + 1)) = true ∧
    tblGet 0 m.pmc.cnt n < 2 ^ 48 ∧ tblGet 0 m.pmc.cnt (n + 1) < 2 ^ 48 ∧ value m + 1 = 2 ^ 96) ∧
   (∃ (m : Mod) (n : Nat),
    n % 2 = 1 ∧ pselChain (pmcSel m n) = true) ∧
   (∃ (m : Mod) (n : Nat),
    tblGet 0 m.pmc.cnt n < 2 ^ 48 ∧ (n % 2 = 0 → pselChain (pmcSel m (n + 1)) = false)) ∧
   (∃ (n : Nat),
    n % 2 = 0) := by
  refine ⟨
    ⟨{ unit with pmc := { PmcState.reset with cnt := [], sel := [(1, 0x60000000)] } }, 0, ?_, ?_, ?_, ?_, ?_⟩,
    ⟨{ unit with pmc := { PmcState.reset with cnt := [(0, 2 ^ 48 - 1)], sel := [(1, 0x60000000)] } }, 0, ?_, ?_, ?_,
      ?_, ?_, ?_⟩,
    ⟨{ unit with pmc := { PmcState.reset with
        cnt := [(254, 2 ^ 48 - 1), (255, 2 ^ 48 - 1)], sel := [(255, 0x60000000)] } }, 254, ?_, ?_, ?_, ?_, ?_, ?_⟩,
    ⟨{ unit with pmc := { PmcState.reset with cnt := [], sel := [(255, 0x60000000)] } }, 255, ?_, ?_⟩,
    ⟨{ unit with pmc := { PmcState.reset with cnt := [(0, 2 ^ 48 - 1)], sel := [] } }, 0, ?_, ?_⟩,
    ⟨0, ?_⟩⟩ <;> decide +kernel

theorem SnapshotCopiesCounters_met :
   (∃ (t : Nat) (s : State) (ini : Initiator),
    let m := s.now t
    WritesReg m ini .pmc 1 0x100) ∧
   (∃ (n : Nat),
    n < 256) := by
  refine ⟨
    ⟨0, plain served, .pf .a, ⟨?_, ?_, ?_⟩⟩,
    ⟨255, ?_⟩⟩ <;> decide +kernel

theorem TenantsReachOnlyTheirWindow_met :
   (∃ (m : Mod) (a : Access) (sp : Space) (off : Nat) (p : Port) (n : Nat),
    Granted m a sp off ∧ 0 < a.len ∧ a.vfTable = false ∧ a.ini = .vf p n) ∧
   (∃ (m : Mod) (a : Access) (sp : Space) (off ten : Nat),
    Granted m a sp off ∧ 0 < a.len ∧ a.vfTable = false ∧ a.ini = .net ten) ∧
   (∃ (m : Mod) (a : Access) (sp : Space) (off ten : Nat),
    Granted m a sp off ∧ 0 < a.len ∧ a.vfTable = false ∧ a.ini = .net ten) := by
  refine ⟨
    ⟨{ served with ten := [(5, { TenHost.reset with attA := true, vfA := 1 })] }, read64 (.vf .a 1) 0x2010, .window 5,
      0x2010, .a, 1, ⟨?_, ?_, ?_⟩, ?_, ?_, ?_⟩,
    ⟨{ served with ten := [(5, { TenHost.reset with attNet := true })] }, read64 (.net 5) (netWindows + 5 * 65536 +
      0x2010), .window 5, 0x2010, 5, ⟨?_, ?_, ?_⟩, ?_, ?_, ?_⟩,
    ⟨served, read64 (.net 5) (blkAddr .khs 2 0), .inner, blkAddr .khs 2 0, 5, ⟨?_, ?_, ?_⟩, ?_, ?_, ?_⟩⟩ <;> decide +kernel

end Sys2Proof.Tests
end

/-! SUPPORT. Refused and silent accesses: what a refused page makes of the whole access, what its record shows, and how
REGISTER_WRITE completes where nothing is granted (02 R44, R55 to R58). -/

namespace Sys2Proof.Machine

/-! ### The flags of a refusal -/

/-- Every field of FLAGS stands at its own bit (02 Table 2.16). -/
theorem VioFlags.code_bits (f : VioFlags) (portB : Bool) :
    f.code portB < 256 ∧ (f.code portB).testBit 1 = f.key ∧ (f.code portB).testBit 4 = f.unbound := by
  obtain ⟨straddle, key, unmapped, tag, unbound, aliased, port⟩ := f
  revert straddle key unmapped tag unbound aliased port portB
  decide

/-- FLAGS of a record begins at bit 32 of its first word. -/
theorem vioRecord_flag (m : Mod) (a : Access) (sp : Space) (f : VioFlags) (slot page : Nat) {k : Nat} (hk : k < 8) :
    (vioRecord m a sp f slot page).w0.getLsbD (32 + k) = (f.code (hostPort a.ini == some .b)).testBit k := by
  have hseq : m.acu.seq.toNat < 2 ^ 32 := m.acu.seq.isLt
  unfold vioRecord
  generalize hf : f.code (hostPort a.ini == some .b) = code
  have hcode : code < 2 ^ 8 := hf ▸ (f.code_bits _).1
  have hw : bitAt 40 a.write = 2 ^ 40 * bitAt 0 a.write := by cases a.write <;> rfl
  have hsum : 2 ^ 63 + a.ini.colour * 2 ^ 56 + tagOf a.ini sp % 4096 * 2 ^ 44 + bitAt 40 a.write + code * 2 ^ 32 +
      m.acu.seq.toNat =
      2 ^ 32 * (2 ^ 8 * (2 ^ 23 + a.ini.colour * 2 ^ 16 + tagOf a.ini sp % 4096 * 2 ^ 4 + bitAt 0 a.write) + code) +
        m.acu.seq.toNat := by
    omega
  simp only [BitVec.getLsbD_ofNat, hsum]
  rw [Nat.testBit_two_pow_mul_add _ hseq, if_neg (by omega), Nat.add_sub_cancel_left,
    Nat.testBit_two_pow_mul_add _ hcode, if_pos hk, decide_eq_true (by omega), Bool.true_and]

/-- A flag that `or` joins and STRADDLE leaves alone: any of Table 2.16 but STRADDLE. -/
structure JoinedFlag (flag : VioFlags → Bool) : Prop where
  or_eq : ∀ f g, flag (f.or g) = (flag f || flag g)
  straddle_eq : ∀ f b, flag { f with straddle := b } = flag f

theorem joinedFlag_key : JoinedFlag VioFlags.key := ⟨fun _ _ => rfl, fun _ _ => rfl⟩

theorem joinedFlag_unbound : JoinedFlag VioFlags.unbound := ⟨fun _ _ => rfl, fun _ _ => rfl⟩

theorem JoinedFlag.foldl {flag : VioFlags → Bool} (h : JoinedFlag flag) (l : List (VioFlags × Nat)) (f : VioFlags) :
    flag (l.foldl (fun g x => g.or x.1) f) = (flag f || l.any (fun x => flag x.1)) := by
  induction l generalizing f with
  | nil => simp
  | cons x l ih => rw [List.foldl_cons, ih, h.or_eq, List.any_cons, Bool.or_assoc]

/-- One page that refuses refuses the whole access, which shows that page's flags (02 R56). -/
theorem refusal_of_page {flag : VioFlags → Bool} (h : JoinedFlag flag) {m : Mod} {a : Access} {sp : Space} {off n : Nat}
    {g : VioFlags} (hn : n ∈ pagesOf a off) (hg : pageRefuses m a sp off n = some g) (hf : flag g = true) :
    ∃ f k, refusal m a sp off = some (f, k) ∧ flag f = true := by
  have hmem : (g, n) ∈ (pagesOf a off).filterMap (fun n => (pageRefuses m a sp off n).map (fun f => (f, n))) :=
    List.mem_filterMap.mpr ⟨n, hn, by rw [hg]; rfl⟩
  unfold refusal
  dsimp only
  generalize (pagesOf a off).filterMap (fun n => (pageRefuses m a sp off n).map (fun f => (f, n))) = refused at hmem
  cases refused with
  | nil => cases hmem
  | cons x rest =>
    refine ⟨_, _, rfl, ?_⟩
    rw [h.straddle_eq, h.foldl]
    rcases List.mem_cons.mp hmem with rfl | hr
    · simp [hf]
    · rw [List.any_eq_true.mpr ⟨(g, n), hr, hf⟩, Bool.or_true]

/-- Where a page refuses an access, the ACU refuses it, and shows that page's flags. -/
theorem judge_of_page {flag : VioFlags → Bool} (h : JoinedFlag flag) {m : Mod} {a : Access} {sp : Space} {off n : Nat}
    {g : VioFlags} (hsp : sp ≠ .off) (hn : n ∈ pagesOf a off) (hg : pageRefuses m a sp off n = some g)
    (hf : flag g = true) : ∃ f slot page, flag f = true ∧ judge m a sp off = .refused f slot page := by
  obtain ⟨f, k, hr, hfl⟩ := refusal_of_page h hn hg hf
  refine ⟨f, slotOf sp k, k % 16, hfl, ?_⟩
  cases sp with
  | off => exact absurd rfl hsp
  | _ => simp only [judge, hr]

/-- An access to at least one byte touches the page it begins in. -/
theorem firstPage_mem (a : Access) (off : Nat) (h : 0 < a.len) : off / 4096 ∈ pagesOf a off := by
  unfold pagesOf
  rw [if_neg (by omega)]
  exact List.mem_map.mpr ⟨0, List.mem_range.mpr (by omega), rfl⟩

/-! ### A free choice decides nothing -/

@[simp] theorem arrives_afterChoice (m : Mod) (ini : Initiator) : arrives (afterChoice m) ini = arrives m ini := rfl

@[simp] theorem spaceOf_afterChoice (m : Mod) (a : Access) : spaceOf (afterChoice m) a = spaceOf m a := rfl

@[simp] theorem judge_afterChoice (m : Mod) (a : Access) (sp : Space) (off : Nat) :
    judge (afterChoice m) a sp off = judge m a sp off := rfl

/-! ### Accesses that are not carried out -/

/-- A refused access reads zero or is dropped, and the SSV is told. -/
theorem regAccess_turnedAway {m : Mod} {a : Access} {sp : Space} {off slot page : Nat} {f : VioFlags}
    (h : TurnedAway m a sp off f slot page) (e : RegEnv) : regAccess e a m = reply a (zeroBytes a.len) (tellSsv m f) := by
  obtain ⟨ha, hs, hj⟩ := h
  simp [regAccess, ha, hs, hj]

/-- A refused access is recorded. -/
theorem acuNext_turnedAway {m : Mod} {a : Access} {sp : Space} {off slot page : Nat} {f : VioFlags}
    (h : TurnedAway m a sp off f slot page) : acuNext a m = m.acu.store (vioRecord m a sp f slot page) := by
  obtain ⟨ha, hs, hj⟩ := h
  simp [acuNext, ha, hs, hj]

/-- A refusal does not rest on the free choice drawn before an access. -/
theorem TurnedAway.afterChoice {m : Mod} {a : Access} {sp : Space} {off slot page : Nat} {f : VioFlags}
    (h : TurnedAway m a sp off f slot page) : TurnedAway (afterChoice m) a sp off f slot page := h

/-- An access that arrives at a disabled BAR2 reads zero or is dropped (02 R44). -/
theorem regAccess_silent {m : Mod} {a : Access} (ha : arrives m a.ini = true) (hs : (spaceOf m a).1 = .off) (e : RegEnv) :
    regAccess e a m = reply a (zeroBytes a.len) m := by
  simp [regAccess, ha, hs, judge]

/-- An access to a disabled BAR2 is not recorded (02 R44). -/
theorem acuNext_silent {m : Mod} {a : Access} (hs : (spaceOf m a).1 = .off) : acuNext a m = m.acu := by
  simp [acuNext, hs, judge]

/-! ### REGISTER_WRITE -/

/-- An access whose free value is drawn first completes as its effect on the block at its instant, after the draw. -/
theorem accessesFree_eq {t : Nat} {row : Row} {s : State} {e : RegEnv} {a : Access} {m : Mod} {q : Mod → AcuState}
    (hr : row (s.now t) = some (e, a)) (hm : regAccess e a (afterChoice (s.now t)) = m)
    (hq : acuNext a (s.now t) = q (s.now t)) :
    accessesFree t row s = .next { s with mod := happens t (fun _ => m) q s.mod } := by
  have h : (row (s.now t)).elim (s.now t) (fun x => regAccess x.1 x.2 (afterChoice (s.now t))) = m := by
    rw [hr]
    exact hm
  have hq' : rowAcu row (s.now t) = q (s.now t) := by
    simp only [rowAcu, hr, Option.elim_some, hq]
  exact congrArg (fun x => (Host.Outcome.next { s with mod := x } : Result)) (happens_congr h hq')

theorem exec_registerWrite (t : Nat) (a : Access) (s : State) :
    exec (.registerWrite t a) s = accessesFree t (rowRegister a) s := rfl

/-- REGISTER_WRITE of a refused access: zero data or none, the SSV told, the violation stored. -/
theorem registerWrite_turnedAway {t : Nat} {s : State} {a : Access} {sp : Space} {off slot page : Nat} {f : VioFlags}
    (h : TurnedAway (s.now t) a sp off f slot page) :
    exec (.registerWrite t a) s = .next { s with
      mod := happens t (fun _ => reply a (zeroBytes a.len) (tellSsv (afterChoice (s.now t)) f))
        (fun x => x.acu.store (vioRecord x a sp f slot page)) s.mod } :=
  (exec_registerWrite t a s).trans
    (accessesFree_eq rfl (regAccess_turnedAway h.afterChoice _) (acuNext_turnedAway h))

/-- REGISTER_WRITE of an access to a disabled BAR2: zero data or none. -/
theorem registerWrite_silent {t : Nat} {s : State} {a : Access} (ha : arrives (s.now t) a.ini = true)
    (hs : (spaceOf (s.now t) a).1 = .off) :
    Leaves (.registerWrite t a) t s (reply a (zeroBytes a.len) (afterChoice (s.now t))) :=
  (exec_registerWrite t a s).trans
    (accessesFree_eq rfl (regAccess_silent (by simpa using ha) (by simpa using hs) _) (acuNext_silent hs))

/-! ### BAR2 and the windows of VFs -/

/-- An access through BAR2 to a tenant with no VF on the port lies in that tenant's window. -/
theorem spaceOf_bar2_window {m : Mod} {a : Access} {p : Port} {ten off : Nat} (hi : a.ini = .bar2 p) (ht : ten < 4096)
    (ho : off < 65536) (haddr : a.addr = ten * 65536 + off) (hen : (portOf m p).bar2En = true)
    (hvf : vfOf (tenOf m ten) p = 0) : spaceOf m a = (.window ten, off) := by
  have hten : a.addr / 2 ^ 16 % 4096 = ten := by omega
  have hoff : a.addr % 2 ^ 16 = off := by omega
  simp only [spaceOf, hi, hten, hoff, hen, hvf, Bool.not_true, Bool.false_eq_true, if_false, ne_eq, not_true]

theorem spaceOf_bar2_disabled {m : Mod} {a : Access} {p : Port} (hi : a.ini = .bar2 p) (hen : (portOf m p).bar2En = false) :
    (spaceOf m a).1 = .off := by
  simp [spaceOf, hi, hen]

theorem spaceOf_vf_unbound {m : Mod} {a : Access} {p : Port} {n : Nat} (hi : a.ini = .vf p n) (hv : a.vfTable = false)
    (ht : tenantOfVf m p n = none) : spaceOf m a = (.unbound, a.addr % 65536) := by
  simp [spaceOf, hi, hv, ht]

/-- Settles O52: an access at t × 0x0001_0000 has t as its quotient, and a disabled BAR2 is the one place where the ACU
decides nothing. -/
theorem barTwoWindows : Obligations.BarTwoWindows := by
  intro t s a p m hi
  constructor
  · intro ten off ht ho haddr hen hvf
    exact spaceOf_bar2_window hi ht ho haddr hen hvf
  · intro ha hen
    exact registerWrite_silent ha (spaceOf_bar2_disabled hi hen)

/-- Settles O53: every page of an unbound VF's window refuses, the first one among them. -/
theorem unboundWindows : Obligations.UnboundWindows := by
  intro t s a p n m hi hv ht hlen ha
  obtain ⟨f, slot, page, hf, hj⟩ := judge_of_page (m := m) (sp := .unbound) joinedFlag_unbound (by decide)
    (firstPage_mem a (a.addr % 65536) hlen) rfl rfl
  have hrec : (vioRecord m a .unbound f slot page).w0.getLsbD (32 + 4) = true := by
    rw [vioRecord_flag m a .unbound f slot page (by decide), (f.code_bits _).2.2, hf]
  exact ⟨f, slot, page, hf, hj, registerWrite_turnedAway ⟨ha, spaceOf_vf_unbound hi hv ht, hj⟩, hrec⟩

/-! ### Key-bearing pages -/

theorem loadedGrant_idx (b : Blk) (page : Nat) : loadedGrant b.idx page = blkGrant b page := by
  have hidx := idx_lt b
  unfold loadedGrant
  rw [if_neg (by omega), blkList_idx]
  rfl

/-- The boot grant set opens pages of JNL and LCC alone, beside the device header (02 R54). -/
theorem bootGrant_idx {b : Blk} (page : Nat) (hj : b ≠ .jnl) (hl : b ≠ .lcc) : bootGrant b.idx page = (0, 0) := by
  cases b with
  | jnl => exact absurd rfl hj
  | lcc => exact absurd rfl hl
  | _ => simp [bootGrant, Blk.idx]

/-- A key-bearing page is a block's, whose grants in every image are none to read and colour 0's to write; it is not
among the pages of JNL and LCC, which keep grants of their own before an image is loaded (02 R54). -/
theorem keyPage_owner {slot page : Nat} (h : keyPage slot page = true) :
    ∃ b : Blk, slot = b.idx ∧ b ≠ .jnl ∧ b ≠ .lcc ∧ blkGrant b page = some (0, colours [0]) := by
  simp only [keyPage, Bool.or_eq_true, Bool.and_eq_true, beq_iff_eq, decide_eq_true_eq] at h
  rcases h with (((⟨hs, hp⟩ | ⟨hs, hp⟩) | ⟨hs, hp⟩) | ⟨hs, hp⟩) | ⟨hs, hp⟩
  · obtain ⟨k, rfl⟩ := Nat.exists_eq_add_of_le' hp
    exact ⟨.kch, hs, by decide, by decide, by simp [blkGrant, keyPage]⟩
  · obtain ⟨k, rfl⟩ := Nat.exists_eq_add_of_le' hp
    exact ⟨.pke, hs, by decide, by decide, by simp [blkGrant, keyPage]⟩
  · exact ⟨.khs, hs, by decide, by decide, by rw [hp]; rfl⟩
  · exact ⟨.txp, hs, by decide, by decide, by rw [hp]; rfl⟩
  · exact ⟨.ssv, hs, by decide, by decide, by rw [hp]; rfl⟩

@[simp] theorem dropColour_zero (c : Nat) (b : Bool) : dropColour c b 0 = 0 := by
  simp [dropColour]

/-- Colour 0's grant alone loses nothing with another colour's. -/
theorem dropColour_one {c : Nat} (b : Bool) (hc : c ≠ 0) : dropColour c b 1 = 1 := by
  simp [dropColour, Nat.testBit_one_eq_true_iff_self_eq_zero, hc]

/-- No grant in force opens a key-bearing page to a read, nor to a write by any colour but 0 (02 R57). -/
theorem grantOf_keyPage (m : Mod) {slot page : Nat} (h : keyPage slot page = true) :
    (grantOf m slot page).1 = 0 ∧ ((grantOf m slot page).2 = 0 ∨ (grantOf m slot page).2 = 1) := by
  obtain ⟨b, rfl, hj, hl, hb⟩ := keyPage_owner h
  have hkeep : (b.idx == Blk.lcc.idx) = false := by
    cases b with
    | lcc => exact absurd rfl hl
    | _ => rfl
  have hload : (loadedGrant b.idx page).getD (0, 0) = (0, 1) := by rw [loadedGrant_idx, hb]; rfl
  unfold grantOf
  simp only [hload, bootGrant_idx page hj hl, hkeep, Bool.false_and]
  cases narrowed m
  · cases m.txp.imageLoaded <;> simp [dropColour_one]
  · exact ⟨rfl, Or.inl rfl⟩

/-- A mapped key-bearing page refuses every read, and every write by another colour than 0, with KEY_REGION. -/
theorem pageRefuses_keyPage (m : Mod) {a : Access} (off : Nat) {n : Nat} (hm : innerMapped n = true)
    (hk : keyPage (slotOf .inner n) (n % 16) = true) (hw : a.write = false ∨ a.ini.colour ≠ 0) :
    pageRefuses m a .inner off n = some { VioFlags.none with key := true } := by
  obtain ⟨hread, hwrite⟩ := grantOf_keyPage m hk
  have hshut : (if a.write then (grantOf m (slotOf .inner n) (n % 16)).2
      else (grantOf m (slotOf .inner n) (n % 16)).1).testBit a.ini.colour = false := by
    cases hwr : a.write with
    | false => simp [hread]
    | true =>
      have hc : a.ini.colour ≠ 0 := hw.resolve_left (by simp [hwr])
      rcases hwrite with h0 | h1
      · simp [h0]
      · rw [if_pos rfl, h1]
        exact Bool.eq_false_iff.mpr (mt Nat.testBit_one_eq_true_iff_self_eq_zero.mp hc)
  simp only [pageRefuses, hm, hshut, hk, Bool.not_true, Bool.false_and, Bool.false_eq_true, if_false]

/-- The SSV takes a refusal that shows KEY_REGION as source 0x6B (02 R57). -/
theorem tellSsv_key (m : Mod) {f : VioFlags} (hf : f.key = true) : tellSsv m f = trigger m 0x6B 0 0 := by
  rw [tellSsv, if_pos hf]

/-- Settles O54: a key-bearing page refuses whatever the other pages of the access decide. -/
theorem keyPagesAreClosed : Obligations.KeyPagesAreClosed := by
  intro t s a off n m ha hs hn hmap hk hw
  obtain ⟨f, slot, page, hf, hj⟩ := judge_of_page joinedFlag_key (by decide) hn (pageRefuses_keyPage m off hmap hk hw) rfl
  have hrec : (vioRecord m a .inner f slot page).w0.getLsbD (32 + 1) = true := by
    rw [vioRecord_flag m a .inner f slot page (by decide), (f.code_bits _).2.1, hf]
  refine ⟨f, slot, page, hj, ?_, hrec⟩
  rw [registerWrite_turnedAway ⟨ha, hs, hj⟩, tellSsv_key _ hf]

end Sys2Proof.Machine

/-! SUPPORT. Operations that leave the security supervisor as it is: interrupts, cache lines, completions, time, the pair
and what follows from a record's effects. -/

namespace Sys2Proof.Machine

/-- What every step of a fold leaves, the fold leaves. -/
theorem foldl_keeps {α β γ : Type} (g : β → γ) {f : β → α → β} (h : ∀ b x, g (f b x) = g b) (l : List α) (b : β) :
    g (l.foldl f b) = g b := by
  induction l generalizing b with
  | nil => rfl
  | cons x l ih => rw [List.foldl_cons, ih, h]

/-! ### Interrupts and measures -/

@[simp] theorem raiseInt_ssv (m : Mod) (b : Blk) (bits : W32) : (raiseInt m b bits).ssv = m.ssv := by
  rw [raiseInt_eq]

@[simp] theorem raiseErr_ssv (m : Mod) (b : Blk) (bit code : Nat) (x : W64) : (raiseErr m b bit code x).ssv = m.ssv := by
  simp [raiseErr]

@[simp] theorem msixPf_ssv (m : Mod) (p : Port) (v : Nat) : (msixPf m p v).ssv = m.ssv := by
  rw [msixPf_eq]

@[simp] theorem signalOn_ssv (m : Mod) (t : Nat) (p : Port) (src : Nat) : (signalOn m t p src).ssv = m.ssv := by
  unfold signalOn
  split
  · rw [msixVf_eq]
  · dsimp only
    split <;> simp
  · rfl

@[simp] theorem raiseTen_ssv (m : Mod) (t : Nat) (bits : BitVec 6) : (raiseTen m t bits).ssv = m.ssv := by
  simp only [raiseTen, signalBoth, apply_ite Mod.ssv, signalOn_ssv, updTen_ssv, ite_self]

@[simp] theorem noteTenant_ssv (old new : Tenant) (t : Nat) (m : Mod) : (noteTenant old new t m).ssv = m.ssv := by
  unfold noteTenant
  split <;> simp

@[simp] theorem pmcOver_ssv (m : Mod) (n : Nat) : (pmcOver m n).ssv = m.ssv := by
  simp [pmcOver]

@[simp] theorem pmcCount_ssv (m : Mod) (n k : Nat) : (pmcCount m n k).ssv = m.ssv := by
  unfold pmcCount pmcAdd
  dsimp only
  split
  · rfl
  · split
    · split
      · split
        · rfl
        · rw [pmcOver_ssv]
      · rfl
    · rw [pmcOver_ssv]

@[simp] theorem pmcEvent_ssv (m : Mod) (code : Nat) (ten : Option Nat) : (pmcEvent m code ten).ssv = m.ssv := by
  unfold pmcEvent
  split
  · rfl
  · exact foldl_keeps Mod.ssv (fun m n => pmcCount_ssv m n 1) _ m

@[simp] theorem evrSample_ssv (m : Mod) (src : Nat) (ten : Option Nat) (v : Nat) : (evrSample m src ten v).ssv = m.ssv := by
  unfold evrSample evrSamples
  split <;> rfl

/-! ### Cache lines -/

@[simp] theorem freeLine_ssv (m : Mod) (n : Nat) : (freeLine m n).ssv = m.ssv := by
  unfold freeLine
  split <;> rfl

@[simp] theorem updLine_ssv (m : Mod) (n : Nat) (f : Line → Line) : (updLine m n f).ssv = m.ssv := by
  unfold updLine
  split <;> rfl

@[simp] theorem unpinLine_ssv (m : Mod) (tag n : Nat) : (unpinLine m tag n).ssv = m.ssv := by
  simp only [unpinLine]
  split
  · rfl
  · split
    · rw [freeLine_ssv]
    · split <;> rfl

@[simp] theorem unpinAll_ssv (m : Mod) (tag : Nat) : (unpinAll m tag).ssv = m.ssv := by
  unfold unpinAll
  split
  · rfl
  · rw [updCmd_ssv]
    exact foldl_keeps Mod.ssv (fun m n => unpinLine_ssv m tag n) _ m

@[simp] theorem addWay_ssv (m : Mod) (w : Way) : (addWay m w).ssv = m.ssv := by
  simp only [addWay, noteStash]
  split <;> simp

@[simp] theorem takeLine_ssv (m : Mod) (t : Nat) : (takeLine m t).2.ssv = m.ssv := by
  simp only [takeLine]
  split
  · split <;> simp
  · split
    · rfl
    · split <;> simp

@[simp] theorem fillLine_ssv (m : Mod) (n : Nat) (attr key : Bytes) : (fillLine m n attr key).ssv = m.ssv := by
  simp [fillLine]

@[simp] theorem zeroTenantLines_ssv (m : Mod) (t : Nat) : (zeroTenantLines m t).ssv = m.ssv := by
  refine foldl_keeps Mod.ssv (fun m p => ?_) _ m
  split <;> simp

@[simp] theorem zeroHandleLine_ssv (m : Mod) (h : W64) : (zeroHandleLine m h).ssv = m.ssv := by
  unfold zeroHandleLine
  split
  · rfl
  · split
    · rfl
    · split <;> simp

/-! ### Timers -/

@[simp] theorem refillTimers_ssv (f : Nat) (m : Mod) : (refillTimers f m).ssv = m.ssv := by
  induction f generalizing m with
  | zero => rfl
  | succ f ih =>
    rw [refillTimers]
    split
    · rfl
    · split
      · simp [ih, putTimer]
      · rfl

@[simp] theorem dropTimers_ssv (m : Mod) (p : TimerKind → Bool) : (dropTimers m p).ssv = m.ssv := by
  simp [dropTimers]

@[simp] theorem insTimer_ssv (m : Mod) (kind : TimerKind) (due : W64) : (insTimer m kind due).ssv = m.ssv := by
  simp only [insTimer]
  split
  · rfl
  · split
    · rfl
    · split
      · rfl
      · split <;> simp [putOverflow, putTimer]

/-! ### Completions -/

@[simp] theorem sampleCpl_ssv (m : Mod) (c : Cpl) : (sampleCpl m c).ssv = m.ssv := by
  unfold sampleCpl
  split
  · rfl
  · dsimp only
    split <;> simp

@[simp] theorem sendNct_ssv (m : Mod) (peer : NetPeer) (d : Bytes) : (sendNct m peer d).ssv = m.ssv := by
  unfold sendNct sendFrame
  split
  · rfl
  · split
    · simp
    · rfl

@[simp] theorem setNct_ssv (m : Mod) (t sid : Nat) (n : NctSess) : (setNct m t sid n).ssv = m.ssv := rfl

@[simp] theorem sendHeld_ssv (m : Mod) (t sid : Nat) : (sendHeld m t sid).ssv = m.ssv := by
  unfold sendHeld
  split
  · rfl
  · split
    · rfl
    · exact (foldl_keeps Mod.ssv sampleCpl_ssv _ _).trans (by simp)

@[simp] theorem nctTooLong_ssv (m : Mod) (sid : Nat) (c : Cpl) : (nctTooLong m sid c).ssv = m.ssv := by
  unfold nctTooLong nctDrop
  split <;> rfl

@[simp] theorem nctComplete_ssv (m : Mod) (peer : NetPeer) (sid : Nat) (c : Cpl) :
    (nctComplete m peer sid c).ssv = m.ssv := by
  simp only [nctComplete, apply_ite Mod.ssv, nctTooLong_ssv, sampleCpl_ssv, sendNct_ssv, sendHeld_ssv, setNct_ssv, ite_self]

@[simp] theorem writeResult_ssv (m : Mod) (p : Port) (c : Cpl) : (writeResult m p c).ssv = m.ssv := by
  unfold writeResult
  split <;> rfl

@[simp] theorem writeCpl_ssv (m : Mod) (c : Cpl) : (writeCpl m c).ssv = m.ssv := by
  unfold writeCpl
  split
  · simp only [writeQp, updQp]
    split <;> simp
  · simp only [pushFifo, updFifo]
    split <;> simp
  · exact nctComplete_ssv _ _ _ _
  · simp [writeAdmin, updAdmq]

@[simp] theorem noteStall_ssv (m : Mod) (c : Cpl) : (noteStall m c).ssv = m.ssv := by
  unfold noteStall
  split <;> simp

@[simp] theorem deliver_ssv (m : Mod) (c : Cpl) : (deliver m c).1.ssv = m.ssv := by
  simp only [deliver, park]
  split
  · simp
  · split
    · rfl
    · split <;> simp

@[simp] theorem noteDone_ssv (m : Mod) (c : Cmd) (status : W16) : (noteDone m c status).ssv = m.ssv := by
  simp [noteDone]

@[simp] theorem endOne_ssv (m : Mod) (tag : Nat) (status : W16) (result : Bytes) (dup : Bool) :
    (endOne m tag status result dup).ssv = m.ssv := by
  simp only [endOne]
  split
  · rfl
  · split
    · simp
    · split <;> simp [waitDone]

@[simp] theorem complete_ssv (m : Mod) (tag : Nat) (status : W16) (result : Bytes) :
    (complete m tag status result).ssv = m.ssv :=
  (foldl_keeps Mod.ssv (fun m d => endOne_ssv m d status result true) _ _).trans (endOne_ssv _ _ _ _ _)

@[simp] theorem drainParked_ssv (t f : Nat) (m : Mod) : (drainParked t f m).ssv = m.ssv := by
  induction f generalizing m with
  | zero => rfl
  | succ f ih =>
    rw [drainParked]
    split
    · rfl
    · simp [ih]

@[simp] theorem drainTag_ssv (m : Mod) (tag : Nat) : (drainTag m tag).ssv = m.ssv := by
  simp only [drainTag]
  split
  · rfl
  · split
    · rfl
    · split <;> simp

@[simp] theorem drainTenant_ssv (m : Mod) (t : Nat) : (drainTenant m t).ssv = m.ssv :=
  (foldl_keeps Mod.ssv drainTag_ssv _ _).trans (drainParked_ssv t 256 m)

@[simp] theorem updStr_ssv (m : Mod) (t c : Nat) (f : Stream → Stream) : (updStr m t c f).ssv = m.ssv := rfl

theorem dropSlot_ssv (m : Mod) (n : Nat) : (dropSlot m n).ssv = m.ssv :=
  dropTimers_ssv _ _

theorem leaveSlot_ssv (tag : Nat) (m : Mod) (n : Nat) : (leaveSlot tag m n).ssv = m.ssv := by
  unfold leaveSlot
  split
  · rfl
  · split
    · exact dropSlot_ssv m n
    · rfl

@[simp] theorem releaseKeys_ssv (m : Mod) (tag : Nat) : (releaseKeys m tag).ssv = m.ssv := by
  unfold releaseKeys
  split
  · rfl
  · rw [updCmd_ssv]
    exact (foldl_keeps Mod.ssv (leaveSlot_ssv tag) _ _).trans (unpinAll_ssv m tag)

@[simp] theorem endCmd_ssv (m : Mod) (tag : Nat) (st : W16) (res : Bytes) : (endCmd m tag st res).ssv = m.ssv := by
  simp only [endCmd, noteStatus, complete_ssv, releaseKeys_ssv]
  split
  · rfl
  · split <;> rfl

/-! ### Time -/

@[simp] theorem useSrc_ssv (m : Mod) (s : Option TimeSrc) : (useSrc m s).ssv = m.ssv := by
  unfold useSrc
  split <;> simp

@[simp] theorem setTrust_ssv (m : Mod) (s : W64) (b : Bool) : (setTrust m s b).ssv = m.ssv := rfl

@[simp] theorem updSrc_ssv (m : Mod) (s : TimeSrc) (f : SrcState → SrcState) : (updSrc m s f).ssv = m.ssv := rfl

@[simp] theorem holdFromLoss_ssv (m : Mod) (loss : W64) : (holdFromLoss m loss).ssv = m.ssv := by
  simp only [holdFromLoss, apply_ite Mod.ssv, raiseInt_ssv, setTrust_ssv, ite_self]

@[simp] theorem enterHoldover_ssv (m : Mod) : (enterHoldover m).ssv = m.ssv := by
  simp only [enterHoldover]
  split <;> simp

@[simp] theorem fallBack_ssv (m : Mod) : (fallBack m).ssv = m.ssv := by
  unfold fallBack
  split
  · rfl
  · split
    · rfl
    · split <;> simp

@[simp] theorem lockOn_ssv (m : Mod) (s : TimeSrc) : (lockOn m s).ssv = m.ssv := by
  simp only [lockOn, apply_ite Mod.ssv, raiseInt_ssv, setTrust_ssv, useSrc_ssv, ite_self]

@[simp] theorem keepTrust_ssv (m : Mod) (was : Bool) : (keepTrust m was).ssv = m.ssv := by
  simp only [keepTrust]
  split <;> rfl

@[simp] theorem stepTime_ssv (m : Mod) (off : Int) : (stepTime m off).ssv = m.ssv := by
  simp [stepTime, evrStep, foldSlew]

@[simp] theorem acceptTime_ssv (m : Mod) (n : Nat) (off : Int) : (acceptTime m n off).ssv = m.ssv := by
  simp only [acceptTime]
  split <;> simp

@[simp] theorem configured_ssv (old : TimeCfg) (m : Mod) : (configured old m).ssv = m.ssv := by
  have restart (m : Mod) (s : TimeSrc) :
      (if srcChanged old m.dur.tcfg s then updSrc m s (fun _ => SrcState.reset) else m).ssv = m.ssv := by
    split <;> rfl
  have fallen (l : List TimeSrc) := (fallBack_ssv _).trans (foldl_keeps Mod.ssv restart l m)
  simp only [configured]
  split
  · split
    · exact fallen _
    · rw [holdFromLoss_ssv]
      exact fallen _
  · exact fallen _

/-! ### Roles and the pair -/

@[simp] theorem setRole_ssv (m : Mod) (r : Role) : (setRole m r).ssv = m.ssv := by
  simp only [setRole]
  split
  · rfl
  · rw [raiseInt_ssv]
    split <;> rfl

@[simp] theorem setSync_ssv (m : Mod) (b : Bool) : (setSync m b).ssv = m.ssv := by
  unfold setSync
  split <;> simp

@[simp] theorem endAlign_ssv (m : Mod) : (endAlign m).ssv = m.ssv := by
  simp only [endAlign]
  split
  · rfl
  · split <;> simp

@[simp] theorem pairFormed_ssv (m : Mod) (uid : W64) (home windward : Bool) :
    (pairFormed m uid home windward).ssv = m.ssv := by
  simp only [pairFormed, setRole_ssv]
  split <;> rfl

@[simp] theorem pairEnded_ssv (m : Mod) : (pairEnded m).ssv = m.ssv := by
  simp only [pairEnded]
  split <;> simp [zeroLinks, leavePair]

/-! ### Routes, blobs and tenants -/

@[simp] theorem notePool_ssv (m0 m : Mod) : (notePool m0 m).ssv = m.ssv := by
  unfold notePool
  split <;> simp

@[simp] theorem compactFor_ssv (m0 m : Mod) (sizes : List Nat) : (compactFor m0 m sizes).ssv = m.ssv := by
  unfold compactFor
  split <;> rfl

@[simp] theorem noteRoutes_ssv (m0 m : Mod) (t : Nat) (r : Routes) (switched : Bool) :
    (noteRoutes m0 m t r switched).ssv = m.ssv := by
  simp only [noteRoutes, notePool_ssv, apply_ite Mod.ssv, compactFor_ssv, ite_self]

@[simp] theorem cacheBlob_ssv (m : Mod) (t index : Nat) (b : Bytes) (s : W64) : (cacheBlob m t index b s).ssv = m.ssv := by
  have taken := takeLine_ssv m t
  simp only [cacheBlob]
  split
  · rfl
  · split
    · rfl
    · split
      next h => rwa [h] at taken
      next h =>
        rw [h] at taken
        simpa [setLine] using taken

@[simp] theorem writeBlob_ssv (m : Mod) (t i : Nat) (b : Bytes) : (writeBlob m t i b).ssv = m.ssv := by
  unfold writeBlob
  split
  · simp
  · unfold placeBlob
    split
    · rfl
    · split <;> rfl

@[simp] theorem idleStreams_ssv (m : Mod) (t : Nat) : (idleStreams m t).ssv = m.ssv :=
  foldl_keeps Mod.ssv (fun _ _ => by rfl) _ m

@[simp] theorem installVolatile_ssv (m : Mod) (i : SnapImage) : (installVolatile m i).ssv = m.ssv := by
  have streams (m : Mod) : (i.streams.foldl (fun m p => updStr m i.tenant p.1 (fun _ => p.2)) m).ssv = m.ssv :=
    foldl_keeps Mod.ssv (fun _ _ => by rfl) _ m
  simp only [installVolatile]
  split <;> simp [streams]

@[simp] theorem endDrain_ssv (m : Mod) (t : Nat) (r : Tenant) : (endDrain m t r).ssv = m.ssv := by
  unfold endDrain
  split <;> rfl

@[simp] theorem noteEpoch_ssv (m : Mod) (t n : Nat) : (noteEpoch m t n).ssv = m.ssv := by
  simp only [noteEpoch, apply_ite Mod.ssv, raiseInt_ssv, ite_self]

@[simp] theorem noteKst_ssv (m : Mod) : (noteKst m).ssv = m.ssv := by
  unfold noteKst
  split <;> simp

end Sys2Proof.Machine

/-! SUPPORT. The counter of disagreements: what a Squall, a tamper response and a record do not reach, and what a
disagreement makes of it (15 R403, R404). -/

namespace Sys2Proof.Machine

/-! ### The Squall -/

@[simp] theorem eraseCmds_ssv (m : Mod) : (eraseCmds m).ssv = m.ssv :=
  foldl_keeps Mod.ssv (fun _ _ => (endOne_ssv _ _ _ _ _).trans (updCmd_ssv _ _ _)) _ m

@[simp] theorem eraseCpls_ssv (m : Mod) : (eraseCpls m).ssv = m.ssv :=
  foldl_keeps Mod.ssv (fun m _ => sendHeld_ssv m _ _) _ _

@[simp] theorem noteClosed_ssv (old m : Mod) : (noteClosed old m).ssv = m.ssv :=
  foldl_keeps Mod.ssv (fun m _ => noteTenant_ssv _ _ _ m) _ m

/-- What a Squall zeroes on the core die leaves the supervisor. -/
@[simp] theorem squallCore_ssv (m : Mod) : (squallCore m).ssv = m.ssv := by
  simp only [squallCore, leavePair, haltPke, zeroRoots, zeroLinks, zeroDcu, dropJournal, dropCapsules, dropSched, dropLines,
    loseStreams, noteClosed_ssv, eraseCpls_ssv, eraseCmds_ssv]

/-- After a Squall SQUALLED is set and the ESH gone, wherever it found the unit (15 R395). -/
theorem squall_ssv (m : Mod) : (squall m).ssv.squalled = true ∧ (squall m).ssv.esh = none := by
  simp only [squall, zeroEsh]
  split
  · exact ⟨rfl, rfl⟩
  · split <;> simp only [squallCore_ssv, and_self]

/-! ### The counter of disagreements -/

/-- What the SSV keeps of disagreements: the instants that still count, and how many there were (15 R404, Table 15.12). -/
def SsvState.fiCounts (v : SsvState) : List Nat × Nat := (v.fi, v.fiTotal)

@[simp] theorem squall_fiCounts (m : Mod) : (squall m).ssv.fiCounts = m.ssv.fiCounts := by
  simp only [squall, zeroEsh]
  split
  · rfl
  · split <;> simp only [squallCore_ssv, SsvState.fiCounts]

@[simp] theorem addRecord_fiCounts (m : Mod) (src resp detail : Nat) (value limit : W32) :
    (addRecord m src resp detail value limit).ssv.fiCounts = m.ssv.fiCounts := by
  simp only [addRecord]
  split
  · rfl
  · simp only [apply_ite Mod.ssv, raiseInt_ssv, afterChoice_ssv, ite_self, SsvState.fiCounts]

@[simp] theorem latchSrc_fiCounts (m : Mod) (src : Nat) : (latchSrc m src).ssv.fiCounts = m.ssv.fiCounts := by
  simp only [latchSrc]
  split <;> simp [SsvState.fiCounts]

@[simp] theorem zeroEsh_fiCounts (m : Mod) : (zeroEsh m).ssv.fiCounts = m.ssv.fiCounts := rfl

@[simp] theorem respond_fiCounts (m : Mod) (src resp detail : Nat) (value limit : W32) (quiet : Bool) :
    (respond m src resp detail value limit quiet).ssv.fiCounts = m.ssv.fiCounts := by
  simp only [respond, apply_ite Mod.ssv, apply_ite SsvState.fiCounts, squall_fiCounts, zeroEsh_fiCounts, latchSrc_fiCounts,
    addRecord_fiCounts, ite_self]

@[simp] theorem trigger_fiCounts (m : Mod) (src detail : Nat) (value : W32) :
    (trigger m src detail value).ssv.fiCounts = m.ssv.fiCounts := by
  unfold trigger
  split
  · rfl
  · split <;> simp

@[simp] theorem judgeTemps_fiCounts (m : Mod) : (judgeTemps m).ssv.fiCounts = m.ssv.fiCounts := by
  have judged (src : Nat) (ok : Mod → Bool) (read : Mod → BitVec 16) (m : Mod) :
      (judgeTemp src ok read m).ssv.fiCounts = m.ssv.fiCounts := by
    simp only [judgeTemp]
    split <;> simp
  simp only [judgeTemps, judged]

@[simp] theorem cellsMissing_fiCounts (m : Mod) : (cellsMissing m).ssv.fiCounts = m.ssv.fiCounts := by
  simp only [cellsMissing, apply_ite Mod.ssv, apply_ite SsvState.fiCounts, respond_fiCounts, ite_self]

@[simp] theorem ssvMaint_fiCounts (m : Mod) (open_ : Bool) : (ssvMaint m open_).ssv.fiCounts = m.ssv.fiCounts := by
  simp only [ssvMaint]
  split
  · exact cellsMissing_fiCounts _
  · rfl

@[simp] theorem setMaint_fiCounts (m : Mod) (w : Option (W64 × W64)) : (setMaint m w).ssv.fiCounts = m.ssv.fiCounts := by
  unfold setMaint
  split <;> simp

@[simp] theorem releaseRoots_ssv (m : Mod) (dus esh : Bytes) : (releaseRoots m dus esh).ssv = m.ssv := by
  simp only [releaseRoots]
  split <;> rfl

/-- A fresh erase share takes no disagreement away. -/
theorem freshEsh_fiCounts (m : Mod) (dus : Bytes) : (freshEsh m dus).ssv.fiCounts = m.ssv.fiCounts := by
  simp [freshEsh, afterFreshDraw, reseedD0, SsvState.fiCounts]

@[simp] theorem readmitted_fiCounts (m : Mod) : (readmitted m).ssv.fiCounts = m.ssv.fiCounts := by
  simp only [readmitted]
  split
  · exact freshEsh_fiCounts m _
  · rw [raiseInt_ssv]
    exact freshEsh_fiCounts m _

/-! ### Records applied -/

/-- Whatever a record brings this unit, a Squall and a re-admission among it, takes no disagreement away. -/
theorem followEff_fiCounts (m0 m : Mod) (stamp : W64) (e : Effect) :
    (followEff m0 m stamp e).ssv.fiCounts = m.ssv.fiCounts := by
  cases e with
  | calibration b => exact judgeTemps_fiCounts _
  | maint w => exact setMaint_fiCounts m w
  | readmit => exact readmitted_fiCounts m
  | release | portResult p id | image dg v s a => rfl
  | blob t i b =>
    simp only [followEff, writeBlob_ssv]
    split <;> simp
  | closeTenant t =>
    simp only [followEff, idleStreams_ssv, zeroTenantLines_ssv]
    split <;> rfl
  | restored i =>
    simp only [followEff]
    split <;> simp
  | budget h b =>
    simp only [followEff]
    split <;> simp
  | budgetSet h _ _ _ =>
    simp only [followEff]
    cases tblFind _ h.toNat <;> simp
  | _ => simp [followEff]

theorem effMod_fiCounts (stamp : W64) (m : Mod) (e : Effect) : (effMod stamp m e).ssv.fiCounts = m.ssv.fiCounts :=
  followEff_fiCounts _ _ _ e

@[simp] theorem noteReq_ssv (m : Mod) (r : JRecord) (s : W64) : (noteReq m r s).ssv = m.ssv := by
  unfold noteReq
  split
  · rfl
  · split <;> rfl

@[simp] theorem noteSealed_ssv (m : Mod) : (noteSealed m).ssv = m.ssv := by
  unfold noteSealed
  split <;> rfl

@[simp] theorem noteRing_ssv (m : Mod) (r : JRecord) (s : W64) : (noteRing m r s).ssv = m.ssv := by
  unfold noteRing
  split <;> simp

/-- A record applied on the Leeward, the commands that waited for an unpairing ended with it. -/
theorem applyRecord_fiCounts (m : Mod) (x : JRecord × W64) : (applyRecord m x).ssv.fiCounts = m.ssv.fiCounts := by
  obtain ⟨r, s⟩ := x
  have effects (l : List Effect) :
      (l.foldl (fun m e => (leewardEffs m.dur e).foldl (effMod s) m) m).ssv.fiCounts = m.ssv.fiCounts :=
    foldl_keeps (fun m : Mod => m.ssv.fiCounts)
      (fun m e => foldl_keeps (fun m : Mod => m.ssv.fiCounts) (effMod_fiCounts s) (leewardEffs m.dur e) m) l m
  simp only [applyRecord]
  split
  · rw [foldl_keeps Mod.ssv (fun m (p : Nat × Cmd) => endCmd_ssv m p.1 stOk [])]
    simp [effects]
  · simp [effects]

theorem ackedKept_fiCounts (m : Mod) : (ackedKept m).ssv.fiCounts = m.ssv.fiCounts := by
  unfold ackedKept
  split
  · exact foldl_keeps (fun m : Mod => m.ssv.fiCounts) applyRecord_fiCounts _ _
  · rfl

/-- A reset of the core die, with the records a Leeward then applies and the end of the maintenance window, leaves the
counter (15 R404). -/
theorem coreReset_fiCounts (m : Mod) : (coreReset m).ssv.fiCounts = m.ssv.fiCounts :=
  (ssvMaint_fiCounts _ _).trans (ackedKept_fiCounts m)

/-! ### A disagreement -/

@[simp] theorem lockBlk_ssv (m : Mod) (b : Blk) : (lockBlk m b).ssv = m.ssv := by
  simp only [lockBlk]
  split <;> rfl

/-- A disagreement enters the instants that still count; the third within 60 s empties them. The Squall that may follow
changes neither (15 R404). -/
theorem disagree_fiCounts (m : Mod) (b : Blk) :
    (disagree m b).ssv.fiCounts =
      (if 2 ≤ (recentFi m).length then [] else recentFi m ++ [m.clk], min 0xFFFFFF (m.ssv.fiTotal + 1)) := by
  simp only [disagree, decide_eq_true_eq]
  split
  · rw [squall_fiCounts, trigger_fiCounts]
    simp [SsvState.fiCounts]
  · rw [trigger_fiCounts]
    simp [SsvState.fiCounts]

/-- The third within 60 s squalls, whatever the response configured for source 0x6C (15 R404). -/
theorem disagree_third (m : Mod) (b : Blk) (h : 2 ≤ (recentFi m).length) :
    (disagree m b).ssv.squalled = true ∧ (disagree m b).ssv.esh = none := by
  simp only [disagree, decide_eq_true h, if_true]
  exact squall_ssv _

/-- Settles O57: nothing that a trigger, a Squall or a reset does reaches the counter, so a disagreement leaves there what it
enters itself, and a reset leaves it whole. -/
theorem disagreementsSquall : Obligations.DisagreementsSquall := by
  refine ⟨fun m b => ?_, fun m => Prod.ext_iff.mp (coreReset_fiCounts m)⟩
  obtain ⟨hfi, htotal⟩ := Prod.ext_iff.mp (disagree_fiCounts m b)
  exact ⟨htotal, fun h => hfi.trans (if_neg (Nat.not_le.mpr h)), disagree_third m b⟩

end Sys2Proof.Machine

/-! SUPPORT. Performance counters: what counting leaves in a counter and in PMC_OVF, alone and in a pair, and what a
write of PMC_CTL.SNAP copies (17 R437, R438). -/

namespace Sys2Proof.Machine

/-! ### One counter -/

@[simp] theorem raiseInt_pmc (m : Mod) (b : Blk) (bits : W32) : (raiseInt m b bits).pmc = m.pmc := by
  rw [raiseInt_eq]

/-- An overflow reaches PMC_OVF, and no other field of the counters. -/
@[simp] theorem pmcOver_pmc (m : Mod) (n : Nat) :
    (pmcOver m n).pmc = { m.pmc with ovf := m.pmc.ovf ||| BitVec.ofNat 256 (2 ^ n) } := by
  simp [pmcOver]

/-- Adding to a counter reaches that counter alone. -/
@[simp] theorem pmcAdd_pmc (m : Mod) (n k : Nat) :
    (pmcAdd m n k).1.pmc = { m.pmc with cnt := tblSet m.pmc.cnt n ((tblGet 0 m.pmc.cnt n + k) % 2 ^ 48) } := rfl

/-- How often a counter passes its maximum. -/
@[simp] theorem pmcAdd_wraps (m : Mod) (n k : Nat) : (pmcAdd m n k).2 = (tblGet 0 m.pmc.cnt n + k) / 2 ^ 48 := rfl

/-- A counter that does not pass its maximum only counts. -/
theorem pmcCount_below {m : Mod} {n k : Nat} (h : tblGet 0 m.pmc.cnt n + k < 2 ^ 48) :
    pmcCount m n k = (pmcAdd m n k).1 :=
  if_pos (Nat.div_eq_of_lt h)

/-- A counter with no chained neighbour above it wraps and sets its own overflow bit. -/
theorem pmcCount_over {m : Mod} {n k : Nat} (h : 2 ^ 48 ≤ tblGet 0 m.pmc.cnt n + k)
    (hc : ¬ (n % 2 = 0 ∧ pmcChained m (n + 1) = true)) : pmcCount m n k = pmcOver (pmcAdd m n k).1 n :=
  (if_neg (Nat.ne_of_gt (Nat.div_pos h (by decide)))).trans (if_neg hc)

/-- An even counter's wraps are counted by its chained neighbour, whose overflow bit alone may be set. -/
theorem pmcCount_carry {m : Mod} {n k : Nat} (h : 2 ^ 48 ≤ tblGet 0 m.pmc.cnt n + k)
    (hc : n % 2 = 0 ∧ pmcChained m (n + 1) = true) (he : pselEn (pmcSel m (n + 1)) = true) :
    pmcCount m n k =
      let c := pmcAdd (pmcAdd m n k).1 (n + 1) ((tblGet 0 m.pmc.cnt n + k) / 2 ^ 48)
      if c.2 = 0 then c.1 else pmcOver c.1 (n + 1) :=
  (if_neg (Nat.ne_of_gt (Nat.div_pos h (by decide)))).trans ((if_pos hc).trans (if_pos he))

/-! ### Chains -/

/-- CHAIN on an even counter is ignored. -/
theorem pmcChained_even (m : Mod) {n : Nat} (h : n % 2 = 0) : pmcChained m n = false := by
  simp [pmcChained, h]

theorem pmcChained_odd (m : Mod) {n : Nat} (h : n % 2 = 1) : pmcChained m n = pselChain (pmcSel m n) := by
  simp [pmcChained, h]

/-- The counter above an even one is chained where its selector has CHAIN. -/
theorem pmcChained_succ (m : Mod) {n : Nat} (h : n % 2 = 0) : pmcChained m (n + 1) = pselChain (pmcSel m (n + 1)) :=
  pmcChained_odd m (by omega)

/-- A chained counter counts no event of its own. -/
theorem not_mem_pmcTakers {m : Mod} {n : Nat} (h : pmcChained m n = true) (code : Nat) (ten : Option Nat) :
    n ∉ pmcTakers m code ten := by
  intro hn
  obtain ⟨p, _, hp⟩ := List.mem_filterMap.mp hn
  split at hp
  · rename_i htakes
    obtain rfl : p.1 = n := Option.some.inj hp
    simp [h] at htakes
  · cases hp

/-- The number that an even counter and its neighbour form: the odd one holds bits 95:48. -/
def pmcPair (m : Mod) (n : Nat) : Nat := tblGet 0 m.pmc.cnt n + tblGet 0 m.pmc.cnt (n + 1) * 2 ^ 48

/-- A chained pair counts as one 96-bit number, and its overflow bit, the odd counter's, is set where that number passes
its maximum. -/
theorem pmcCount_pair {m : Mod} {n : Nat} (k : Nat) (hc : n % 2 = 0 ∧ pmcChained m (n + 1) = true)
    (he : pselEn (pmcSel m (n + 1)) = true) (hi : tblGet 0 m.pmc.cnt (n + 1) < 2 ^ 48) :
    pmcPair (pmcCount m n k) n = (pmcPair m n + k) % 2 ^ 96 ∧
      (pmcCount m n k).pmc.ovf =
        if pmcPair m n + k < 2 ^ 96 then m.pmc.ovf else m.pmc.ovf ||| BitVec.ofNat 256 (2 ^ (n + 1)) := by
  have hne : n + 1 ≠ n := by omega
  unfold pmcPair
  rcases Nat.lt_or_ge (tblGet 0 m.pmc.cnt n + k) (2 ^ 48) with hlow | hlow
  · rw [pmcCount_below hlow, if_pos (by omega)]
    simp only [pmcAdd_pmc, tblGet_tblSet_same, tblGet_tblSet_other _ _ _ hne, and_true]
    omega
  · rw [pmcCount_carry hlow hc he]
    simp only [pmcAdd_pmc, pmcAdd_wraps, tblGet_tblSet_other _ _ _ hne]
    split
    · rw [if_pos (by omega)]
      simp only [pmcAdd_pmc, tblGet_tblSet_same, tblGet_tblSet_other _ _ _ hne,
        tblGet_tblSet_other _ _ _ hne.symm, and_true]
      omega
    · rw [if_neg (by omega)]
      simp only [pmcOver_pmc, pmcAdd_pmc, tblGet_tblSet_same, tblGet_tblSet_other _ _ _ hne,
        tblGet_tblSet_other _ _ _ hne.symm, and_true]
      omega

/-- A counter with no chained neighbour above it wraps to 0 at its maximum and sets its overflow bit. -/
theorem pmcCount_alone {m : Mod} {n : Nat} (hlt : tblGet 0 m.pmc.cnt n < 2 ^ 48)
    (hc : ¬ (n % 2 = 0 ∧ pmcChained m (n + 1) = true)) :
    tblGet 0 (pmcCount m n 1).pmc.cnt n = (tblGet 0 m.pmc.cnt n + 1) % 2 ^ 48 ∧
      (pmcCount m n 1).pmc.ovf =
        if tblGet 0 m.pmc.cnt n + 1 = 2 ^ 48 then m.pmc.ovf ||| BitVec.ofNat 256 (2 ^ n) else m.pmc.ovf := by
  rcases Nat.lt_or_ge (tblGet 0 m.pmc.cnt n + 1) (2 ^ 48) with h | h
  · rw [pmcCount_below h, if_neg (Nat.ne_of_lt h)]
    simp
  · rw [pmcCount_over h hc, if_pos (by omega)]
    simp

/-- Settles O58: the case that matters is the even counter's wrap, which the odd one counts. -/
theorem chainedCountersCountAsOne : Obligations.ChainedCountersCountAsOne := by
  refine ⟨fun m n hn hchain hen _ hi => ?_, fun m n hn hchain => ?_, fun m n hlt hfree => ?_,
    fun m n => pmcChained_even m⟩
  · obtain ⟨hvalue, hovf⟩ := pmcCount_pair 1 ⟨hn, (pmcChained_succ m hn).trans hchain⟩ hen hi
    refine ⟨hvalue, fun h => hovf.trans (if_pos h), fun h => hovf.trans (if_neg ?_)⟩
    exact Nat.not_lt.mpr (Nat.le_of_eq h.symm)
  · exact not_mem_pmcTakers ((pmcChained_odd m hn).trans hchain)
  · refine pmcCount_alone hlt fun ⟨hn, hchain⟩ => ?_
    rw [pmcChained_succ m hn, hfree hn] at hchain
    cases hchain

/-! ### The snapshot -/

/-- A write of PMC_CTL that sets SNAP and keeps FREEZE takes the snapshot and does no more. -/
theorem pmcCtl_snap {v : Nat} {m : Mod} (hfreeze : v.testBit 0 = m.pmc.freeze) (hsnap : v.testBit 1 = true) :
    pmcCtl v m = pmcSnap m := by
  unfold pmcCtl
  rw [hfreeze, if_pos hsnap]
  rfl

/-- What PMC_SNAP writes holds FREEZE as it stands, and SNAP. -/
theorem snapWord_bits (freeze : Bool) :
    let v := (merged (BitVec.ofNat 64 (bitAt 0 freeze)) 0xFFFFFFFF ((if freeze then 3 else 2 : W32).setWidth 64)).toNat
    v.testBit 0 = freeze ∧ v.testBit 1 = true := by
  cases freeze <;> decide

/-- A granted PMC_SNAP copies the counters. -/
theorem pmcSnap_leaves {t : Nat} {s : State} {ini : Initiator} (h : WritesReg (s.now t) ini .pmc 1 0x100) :
    Leaves (.pmcSnap t ini) t s (pmcSnap (s.now t)) := by
  obtain ⟨hfreeze, hsnap⟩ := snapWord_bits (s.now t).pmc.freeze
  have hwrite := blk_write (row := rowPmcSnap ini) h rfl (by decide) (by decide) (by decide) rfl rfl (by simp)
  exact hwrite.trans (congrArg (left t s) (pmcCtl_snap hfreeze hsnap))

/-- The register at each eighth byte of PMC page 3 is its counter's copy. -/
theorem pmcSnapRegs_eq {n : Nat} (h : n < 256) :
    pmcSnapRegs (8 * n) = some (ro64 (fun m => BitVec.ofNat 64 (tblGet 0 m.pmc.snap n))) := by
  unfold pmcSnapRegs
  rw [if_pos (by omega), Nat.mul_div_cancel_left n (by decide)]

/-- Settles O59: the write keeps FREEZE, so the copy is all it does, and the registers of page 3 read that copy. -/
theorem snapshotCopiesCounters : Obligations.SnapshotCopiesCounters :=
  ⟨fun _ _ _ => pmcSnap_leaves, fun _ _ hn => ⟨_, pmcSnapRegs_eq hn, rfl, rfl, rfl⟩⟩

end Sys2Proof.Machine

/-! SUPPORT. What a command of the table is: one operation, or one access, at its instant; and what follows from that
about completion, the queue, the clock and the store of violations. -/

namespace Sys2Proof.Machine

/-! ### The shape of a command -/

/-- What a command makes of the store of violations: nothing, or what an access makes of it (02 R60). -/
inductive AcuEffect : (Mod → AcuState) → Prop where
  | none : AcuEffect (fun m => m.acu)
  | access (row : Row) : AcuEffect (rowAcu row)

/-- Every command happens at its instant and leaves the queue alone; only the rows of registers act on the store of
violations, each by its access. -/
theorem exec_happens (i : Instr) (s : State) :
    ∃ t f q, exec i s = .next { s with mod := happens t f q s.mod } ∧ AcuEffect q := by
  cases i with
  | registerWrite | blkQuiesce | blkEnable | selftestReq | intStatClear | intTest | acuVioNext | qpSqTailDoorbell
  | qpCqHeadDoorbell | qpEnable | qpDisable | qpSqBaseWrite | admqSqTailDoorbell | admqCqHeadDoorbell | admqSqSizeWrite
  | admqCqSizeWrite | cmdPush | cplPop | cplFlush | cmdDrop | schAgeWrite | rehashStart | bsxWinWrite | vfBindWrite
  | cmqTcfgWrite | ssvRecClear | ssvLatchClear | lcTransition | dbgChallenge | debugResponse | dbgClose | evrFlush
  | evrCapply | evrCtlEnWrite | pmcSnap | pmcFreeze | pmcCounterWrite | rngRawRead | twinDivLogRead =>
    exact ⟨_, _, _, rfl, .access _⟩
  | _ => exact ⟨_, _, _, rfl, .none⟩

/-- Settles O47: a command is something that happens at an instant, which never turns the clock back. -/
theorem everyCommandCompletes : Obligations.EveryCommandCompletes := by
  intro i s
  obtain ⟨t, f, q, he, _⟩ := exec_happens i s
  exact ⟨_, he, by rw [happens_clk]; exact Nat.le_max_left _ _⟩

/-! ### The step -/

theorem step_cons {c : Instr} {q : List Instr} {s : State} (h : s.pending = c :: q) :
    step s = exec c { s with pending := q } := by
  simp only [step, h]

theorem step_nil {s : State} (h : s.pending = []) : step s = .next s := by
  simp only [step, h]

/-- Settles O45. -/
theorem stepRunsFront : Obligations.StepRunsFront := fun _ _ _ => step_cons

/-- Settles O46. -/
theorem stepIdles : Obligations.StepIdles := fun _ => step_nil

/-! ### The violation store -/

/-- The invariant speaks of the store alone. -/
def AcuState.Kept (q : AcuState) : Prop := q.fifo.length ≤ 1024 ∧ ∀ v ∈ q.fifo, v.Fits

theorem inv_iff (m : Mod) : Inv m ↔ m.acu.Kept := Iff.rfl

theorem AcuState.reset_kept : AcuState.reset.Kept := ⟨Nat.zero_le _, fun _ h => by cases h⟩

/-- Settles O49: nothing is stored at reset. -/
theorem invAtReset : Obligations.InvAtReset := AcuState.reset_kept

theorem colour_lt (ini : Initiator) : ini.colour < 16 := by cases ini <;> simp [Initiator.colour]

theorem extract_ofNat_eq_zero {x k n : Nat} (h : x % 2 ^ 64 / 2 ^ k % 2 ^ n = 0) :
    (BitVec.ofNat 64 x).extractLsb' k n = 0 := by
  apply BitVec.eq_of_toNat_eq
  rw [BitVec.extractLsb'_toNat, BitVec.toNat_ofNat, Nat.shiftRight_eq_div_pow, h]
  rfl

/-- Every record lies as Table 2.16 gives it, whatever access it shows: each field ends below the reserved bits above
it. -/
theorem vioRecord_fits (m : Mod) (a : Access) (sp : Space) (f : VioFlags) (slot page : Nat) :
    (vioRecord m a sp f slot page).Fits := by
  have hcolour := colour_lt a.ini
  have hcode := (f.code_bits (hostPort a.ini == some .b)).1
  have hseq : m.acu.seq.toNat < 2 ^ 32 := m.acu.seq.isLt
  have hbit : a.write.toNat ≤ 1 := a.write.toNat_le
  have hwrite : bitAt 40 a.write = 2 ^ 40 * a.write.toNat := by cases a.write <;> rfl
  unfold vioRecord
  rw [hwrite]
  refine ⟨?_, extract_ofNat_eq_zero ?_, extract_ofNat_eq_zero ?_, extract_ofNat_eq_zero ?_, extract_ofNat_eq_zero ?_⟩
  · rw [BitVec.getLsbD_ofNat, Nat.testBit_eq_decide_div_mod_eq]
    simp only [Nat.reduceLT, decide_true, Bool.true_and, decide_eq_true_eq]
    omega
  all_goals omega

theorem AcuState.Kept.store {q : AcuState} (h : q.Kept) {v : Violation} (hv : v.Fits) : (q.store v).Kept := by
  unfold AcuState.store
  split
  · refine ⟨by simp; omega, fun w hw => ?_⟩
    rcases List.mem_append.mp hw with hw | hw
    · exact h.2 w hw
    · rwa [List.mem_singleton.mp hw]
  · exact h

theorem AcuState.Kept.acuWrite {q : AcuState} (h : q.Kept) (a : Access) (off : Nat) : (acuWrite a off q).Kept := by
  unfold Machine.acuWrite
  refine List.foldlRecOn _ _ h fun q hq d _ => ?_
  split
  · exact hq
  · split
    · exact ⟨by have := hq.1; simp; omega, fun v hv => hq.2 v (List.mem_of_mem_drop hv)⟩
    · split <;> exact hq

/-- An access keeps the store's invariant: it stores one record where it is refused, and drops or clears where it writes
the store's own registers (02 R60). -/
theorem acuNext_kept {m : Mod} (h : m.acu.Kept) (a : Access) : (acuNext a m).Kept := by
  unfold acuNext
  dsimp only
  split
  · exact h
  · split
    · exact h
    · exact h.store (vioRecord_fits _ _ _ _ _ _)
    · split
      · exact h.acuWrite a _
      · exact h

theorem AcuEffect.kept {q : Mod → AcuState} (hq : AcuEffect q) {m : Mod} (h : m.acu.Kept) : (q m).Kept := by
  cases hq with
  | none => exact h
  | access row =>
    unfold rowAcu
    cases row m with
    | none => exact h
    | some x => exact acuNext_kept h x.2

/-- A command keeps the invariant: what its access makes of the store does, and the reset of the core die empties it. -/
theorem exec_keeps_inv {i : Instr} {s s' : State} (h : Inv s.mod) (he : exec i s = .next s') : Inv s'.mod := by
  obtain ⟨t, f, q, hx, hq⟩ := exec_happens i s
  obtain rfl := Host.Outcome.next.inj (hx.symm.trans he)
  rcases happens_acu t f q s.mod with hr | hr
  · have h0 : (elapse (advance t s.mod)).acu.Kept := by rwa [elapse_acu, advance_acu]
    exact (inv_iff _).mpr (hr ▸ hq.kept h0)
  · exact (inv_iff _).mpr (hr ▸ AcuState.reset_kept)

/-- Settles O50: an idle step changes nothing, and any other is one command. -/
theorem invKept : Obligations.InvKept := by
  intro s s' h hs
  cases hp : s.pending with
  | nil => exact Host.Outcome.next.inj ((step_nil hp).symm.trans hs) ▸ h
  | cons c q => exact exec_keeps_inv (s := { s with pending := q }) h ((step_cons hp).symm.trans hs)

end Sys2Proof.Machine

/-! SUPPORT. Whole-block statements: the values at reset, the frame of a quiet command, and the windows a tenant's access
reaches. -/

namespace Sys2Proof.Machine

/-- Settles O48: every value stands in `Mod.reset`; what is held in tables is empty there, so each entry is its default. -/
theorem resetValues : Obligations.ResetValues := by
  refine ⟨rfl, fun b => ?_, rfl, rfl, rfl, fun p => ⟨rfl, rfl⟩, fun t q => ⟨rfl, rfl, rfl, rfl, rfl, rfl, rfl, rfl, rfl⟩,
    fun t => ⟨rfl, rfl, rfl, rfl, rfl, rfl, rfl, rfl⟩, ?_⟩
  · cases b <;> decide
  · decide

/-- Settles O51: `follow` and the passing of time find nothing to do in a quiet block. -/
theorem quietCommandsChangeNothingElse : Obligations.QuietCommandsChangeNothingElse := by
  intro i t s m m0 hl hq hs hf hd hp hr
  rw [hl, left, happens_quiet hq hs hf hd hp hr, elapse_acu]

/-! ### Windows -/

theorem pageRefuses_of_no_refusal {m : Mod} {a : Access} {sp : Space} {off n : Nat} (h : refusal m a sp off = none)
    (hn : n ∈ pagesOf a off) : pageRefuses m a sp off n = none := by
  unfold refusal at h
  dsimp only at h
  split at h
  · rename_i hnil
    simpa using List.filterMap_eq_nil_iff.mp hnil n hn
  · cases h

/-- What is granted lies in a space with registers, and no page refuses it (02 R44, R55). -/
theorem Granted.no_refusal {m : Mod} {a : Access} {sp : Space} {off : Nat} (h : Granted m a sp off) :
    refusal m a sp off = none := by
  obtain ⟨_, _, hj⟩ := h
  unfold judge at hj
  split at hj
  · cases hj
  · split at hj
    · cases hj
    · assumption

/-- The first page of a granted access grants it. -/
theorem Granted.firstPage {m : Mod} {a : Access} {sp : Space} {off : Nat} (h : Granted m a sp off) (hl : 0 < a.len) :
    pageRefuses m a sp off (off / 4096) = none :=
  pageRefuses_of_no_refusal h.no_refusal (firstPage_mem a off hl)

theorem spaceOf_vf_bound {m : Mod} {a : Access} {p : Port} {n ten : Nat} (hi : a.ini = .vf p n) (hv : a.vfTable = false)
    (ht : tenantOfVf m p n = some ten) : spaceOf m a = (.window ten, a.addr % 65536) := by
  simp [spaceOf, hi, hv, ht]

theorem spaceOf_net {m : Mod} {a : Access} {ten : Nat} (hi : a.ini = .net ten) :
    spaceOf m a = (.inner, a.addr) ∨ spaceOf m a = (.window (a.addr / 2 ^ 16 % 4096), a.addr % 2 ^ 16) := by
  simp only [spaceOf, hi]
  split
  · exact Or.inl rfl
  · exact Or.inr rfl

/-- A window page that grants a network initiator's access is that of its tenant tag (02 R52). -/
theorem windowPage_net {m : Mod} {a : Access} {t ten off n : Nat} (hi : a.ini = .net ten)
    (h : pageRefuses m a (.window t) off n = none) : t = ten := by
  by_cases heq : t = ten
  · exact heq
  · have htag : (ten != t) = true := bne_iff_ne.mpr (Ne.symm heq)
    simp [pageRefuses, hi, htag] at h
    split at h <;> cases h

/-- Settles O60: an unbound VF's window and another tenant's refuse their first page, whatever the others would do. -/
theorem tenantsReachOnlyTheirWindow : Obligations.TenantsReachOnlyTheirWindow := by
  intro m a sp off h hl hv
  have hpage := h.firstPage hl
  obtain ⟨_, hs, _⟩ := h
  constructor
  · intro p n hi
    cases ht : tenantOfVf m p n with
    | none =>
      obtain ⟨rfl, rfl⟩ := Prod.ext_iff.mp ((spaceOf_vf_unbound hi hv ht).symm.trans hs)
      cases hpage
    | some ten => exact ⟨ten, rfl, (Prod.ext_iff.mp ((spaceOf_vf_bound hi hv ht).symm.trans hs)).1.symm⟩
  · intro ten hi
    rcases spaceOf_net (m := m) hi with hn | hn
    · exact Or.inl (Prod.ext_iff.mp (hn.symm.trans hs)).1.symm
    · obtain ⟨rfl, rfl⟩ := Prod.ext_iff.mp (hn.symm.trans hs)
      exact Or.inr (by rw [windowPage_net hi hpage])

end Sys2Proof.Machine

/-! SUPPORT. The commands of keys: each program under the hypotheses of its clause. -/

namespace Sys2Proof.Machine

/-- A program that ends with its result, in a record where its quorum consumed a challenge. -/
theorem opcode_record_or_ends {i : Instr} {op t tag : Nat} {prog : Prog} {s : State} {m m1 : Mod} {c : Cmd}
    {q : List Effect} {res : Bytes} (hop : programOf op = some prog) (h : Starts op t tag s m c)
    (hi : exec i s = acts t (runOpcode op prog tag) s)
    (hp : prog m tag c = .ok (if q = [] then okWith m1 res else .journal m1 q stOk res false)) :
    if q = [] then Ends i t s tag m1 stOk res else Journals i t s tag c m1 q res false := by
  split
  · exact hi.trans (opcode_ends hop h (Or.inl (hp.trans (congrArg _ (if_pos ‹_›)))))
  · exact hi.trans (opcode_journals hop h (Or.inl (hp.trans (congrArg _ (if_neg ‹_›)))))

/-! ### Checks of bodies -/

/-- A check passed leaves what follows it. -/
theorem passes {ε α β : Type} {x : Except ε α} {a : α} {f : α → Except ε β} {r : Except ε β} (h : x = .ok a) (hr : f a = r) :
    (x >>= f) = r := by
  rw [h]
  exact hr

/-- A chain of checks that ends well has passed its first. -/
theorem bind_ok_inv {ε α β : Type} {x : Except ε α} {f : α → Except ε β} {b : β} (h : (x >>= f) = .ok b) :
    ∃ a, x = .ok a ∧ f a = .ok b := by
  cases x with
  | error e => cases h
  | ok a => exact ⟨a, rfl, h⟩

theorem bodyLen_of {c : Cmd} {n : Nat} (h : c.body.length = n) : bodyLen c n = .ok () := ensure_of _ (by simp [h])

theorem bodyLen_nil {c : Cmd} (h : c.body = []) : bodyLen c 0 = .ok () := bodyLen_of (by rw [h]; rfl)

theorem bodyMin_of {c : Cmd} {n : Nat} (h : n ≤ c.body.length) : bodyMin c n = .ok () := ensure_of _ (by simp [h])

theorem reserved_of {c : Cmd} {off len : Nat} (h : allZero (fBytes c off len) = true) : reserved c off len = .ok () :=
  ensure_of _ h

theorem needRng_of {m : Mod} (h : m.rng.halted = false) : needRng m = .ok () := ensure_of _ (by simp [h])

/-! ### Creation -/

theorem finishCreate_of {m : Mod} {c : Cmd} {q more effs : List Effect} {kind : Nat} {attr field : Bytes} {h : W64}
    (hc : createKey m (projDur m) c.tenant kind attr field = .ok (effs, h)) :
    finishCreate m c q more kind attr field =
      .ok (.journal m (q ++ effs ++ more) stOk (createRes h (kcvAny kind attr field)) false) := by
  simp [finishCreate, hc]

/-- Settles O1: each program passes its checks one after the other and ends in `finishCreate`, or for a rotation in its
record. -/
theorem keyCreationCompletes : Obligations.KeyCreationCompletes := by
  refine ⟨?_, ?_, ?_, ?_, ?_, ?_, ?_, ?_⟩
  · intro t tag s m c q effs h hs hlen a field hshape hsym huse hB1 hdec hrng hq hc
    refine opcode_journals rfl hs (Or.inl ?_)
    simp [progKeyGenerate, bodyLen_of hlen, hshape, hsym, huse, hB1, hdec, hq, needRng_of hrng, finishCreate_of hc, a, field]
  · intro t tag s m c q effs h m1 k kind a field hs hlen hlo hhi hb ha hf hres hdec hq ho hk hkc hc
    have hmin : 40 ≤ c.body.length := hlen ▸ Nat.le_add_right _ _
    have hpar : (f8 c 0x22 % 2 == 1 || allZero (fBytes c 0x18 8)) = true := by simpa using hdec
    refine opcode_journals rfl hs (Or.inl ?_)
    simp [progKeyImportBlock, bodyMin_of hmin, bodyLen_of hlen, hlo, hhi, hb, ha, hf, reserved_of hres, hpar, hq, ho, hk, hkc,
      finishCreate_of hc]
  · intro t tag s m c q effs h k hs hlen a hshape hres hasym huse hq hk hc
    have hmin : 40 ≤ c.body.length := hlen ▸ Nat.le_add_right _ _
    refine opcode_journals rfl hs (Or.inl ?_)
    simp [progKeyImportPublic, bodyMin_of hmin, bodyLen_of hlen, hshape, reserved_of hres, hasym, huse, hq, hk,
      finishCreate_of hc, a]
  · intro t tag s m m1 c q effs h ap kp hs hlen hfunc h9 h10 hr1 hr2 hpan hr3 a v ksn key field hshape hsym hq hu hap hn hmode
      halg hl huse hksn hunder hc
    have ha : fBytes c 0x30 32 = a := rfl
    have hv : (if aAlg ap = chr 'A' then 2 else 1) = v := rfl
    have hfit : (aMode a == chr 'X' && aAlg a == aAlg ap && aLen a == aLen ap && aUsage a == ascii "B1") = true := by
      simp [hmode, halg, hl, huse]
    have hk : fBytes c 0x10 12 = ksn := rfl
    have hkey : dukptIk v (symKey ap kp) ksn = key := rfl
    have hfield : keyField key (ksnId v ksn) = field := rfl
    have hksn' : (v == 2 || allZero (sliceOf ksn 10 2)) = true := by simpa using hksn
    refine opcode_journals rfl hs (Or.inl ?_)
    simp only [progKeyDerive, bodyLen_of hlen, ok_bind, hfunc, range_eq, BEq.rfl, Bool.true_or, ensure_true, reserved_of hr1,
      reserved_of hr2, reserved_of hr3, ha, hshape, hsym, if_true, h9, h10, hpan, Bool.and_self, Nat.reduceEqDiff, if_false, pure_ok,
      hq, hu, hap, ensure_of _ hfit, hn, hv, Nat.reduceBEq, Bool.false_or, hk, ensure_of _ hksn', hkey, hunder, hfield,
      finishCreate_of hc, List.append_nil]
  · intro t tag s m m1 c q effs h ap kp pan psn hs hlen hfunc h9 h9' hr1 hksn hr2 hr3 hpan hpsn a v key hshape hsym hq hu hap hn
      hmode halg hl huse hunder hc
    have ha : fBytes c 0x30 32 = a := rfl
    have hv : (if aAlg ap = chr 'A' then 2 else 1) = v := rfl
    have hkey : emvMk (v == 2) (symKey ap kp) (emvY pan psn) = key := rfl
    have hfit : (aMode a == chr 'X' && aAlg a == aAlg ap && aLen a == aLen ap && aUsage a == aUsage ap) = true := by
      simp [hmode, halg, hl, huse]
    refine opcode_journals rfl hs (Or.inl ?_)
    simp only [progKeyDerive, bodyLen_of hlen, ok_bind, hfunc, range_eq, BEq.rfl, Bool.or_true, ensure_true, reserved_of hr1,
      reserved_of hr2, reserved_of hr3, ha, hshape, hsym, if_true, h9, h9', hpan, hksn, hpsn, and_self, decide_true, Bool.and_self,
      Nat.reduceEqDiff, if_false, orStop_some, Bool.true_or, hq, hu, hap, ensure_of _ hfit, hn, hv, hkey, hunder, keyField,
      finishCreate_of hc, List.append_nil]
  · intro t tag s m c q effs bud new a key e hs hbody hfunc h at' r n a1 field hkind hq hheld hlive hsucc hstate hat hr hrng hroom
      hc hbud
    refine opcode_journals rfl hs (Or.inl ?_)
    simp [progKeyRotate, hbody, hfunc, hkind, hq, hheld, hlive, hsucc, hstate, hat, hr, needRng_of hrng, hroom, hc, hbud, h, at', r, n, a1, field]
  · intro t tag s m c q effs bud new a key e hs hbody hfunc h at' r m1 a1 field hkind hmode hq hheld hlive hsucc hstate hat hr hrng
      hroom hc hbud
    have huse : (aMode a == chr 'S' || aMode a == chr 'D' || aMode a == chr 'N' && hKind h != 3) = true := by simpa [or_assoc] using hmode
    refine opcode_journals rfl hs (Or.inl ?_)
    simp [progKeyRotate, hbody, hfunc, hkind, ensure_of _ huse, hq, hheld, hlive, hsucc, hstate, hat, hr, needRng_of hrng, hroom, hc, hbud, h, at', r, m1, a1, field]
  · intro t tag s m m1 c q effs bud new a b f key e k kind hs hbody hfunc h hks at' r a1 field hq hheld hlive hsucc hstate hat hr
      hopen hk hparam halg hl huse hroom hc hbud
    refine opcode_journals rfl hs (Or.inl ?_)
    simp [progKeyRotate, hbody, hfunc, hq, hheld, hlive, hsucc, hstate, hat, hr, hopen, hk, hparam, halg, hl, huse, hroom, hc, hbud, h, hks, at', r, a1, field]

/-! ### Management -/

/-- Settles O2: the checks pass in the order of each program; a key that leaves is a record only where a quorum consumed a
challenge. -/
theorem keyManagementCompletes : Obligations.KeyManagementCompletes := by
  refine ⟨?_, ?_, ?_, ?_, ?_⟩
  · intro t tag s m m1 c q a k ap kp hs hlen hf hres hq hks hu hup hap hn hexp key blk hblk
    have hfit : (aExport a == chr 'S' || aExport a == chr 'E' && aTrusted ap) = true := by simpa using hexp
    have hkey : (if aAlg a = chr 'R' ∨ aAlg a = chr 'E' then Config.asymOut k else symKey a k) = key := rfl
    refine opcode_record_or_ends rfl hs rfl ?_
    simp [progKeyExport, bodyLen_of hlen, hf, reserved_of hres, hq, hu, hup, hap, hn, ensure_of _ hfit, hkey, hks]
    dsimp only [blk] at hblk ⊢
    rw [hblk, ok_bind]
    split <;> rfl
  · intro t tag s m c q a k e hs hlen hb h at' hq hheld hlive hlt hret hroom
    have hret' : ¬ (retirement a (some e)).toNat < at'.toNat := by omega
    refine opcode_journals rfl hs (Or.inl ?_)
    simp [progKeyRetire, bodyLen_of hlen, hb, hq, hheld, hlive, hlt, hret, Nat.not_le.mpr hlt, hret', hroom, h, at']
  · intro t tag s m c q a k e hs hlen h hq hheld hlive hroom
    refine opcode_journals rfl hs (Or.inl ?_)
    simp [progKeyDestroy, bodyLen_of hlen, hq, hheld, hlive, hroom, h]
  · intro t tag s m c a k e hs hlen h hheld hlive
    refine opcode_ends rfl hs (Or.inl ?_)
    simp [progKeyInfo, bodyLen_of hlen, hheld, hlive, h, okWith]
  · intro t tag s m c q trk hs hbody x hq htrk hgen
    refine opcode_journals rfl hs (Or.inl ?_)
    simp [progWrapAdvance, bodyLen_nil hbody, hq, htrk, hgen, x]

end Sys2Proof.Machine

/-! SUPPORT. The payment commands: PINs, MACs, EMV codes and tokens, each program under the hypotheses of its clause. -/

namespace Sys2Proof.Machine

/-! ### PIN translation -/

/-- The block of `pinOut` is the PIN field sealed, its fill drawn where its format has any (09 R247). -/
theorem pinOut_block {tag n f : Nat} {key out : Bytes} {pan pin : List Nat} {m m1 : Mod}
    (h : pinOut tag n f key pan pin m = .ok (m1, out)) :
    out = pinSeal f key pan (pfBuild f pin (if f = 0 then zeroBytes 16 else drawn m 16)) := by
  simp only [pinOut] at h
  split at h <;>
  · obtain ⟨m2, _, h⟩ := bind_ok_inv h
    obtain ⟨m3, _, h⟩ := bind_ok_inv h
    exact (Prod.ext_iff.mp (Except.ok.inj h)).2.symm

/-- What a translation makes of a PIN block once it is open: the status of a failed check, or the PIN under the output
key (09 R248). -/
def translated (tag n f : Nat) (key : Bytes) (pan : List Nat) (res : Bytes → Bytes) (m : Mod) : Option (List Nat) → Except Act Act
  | none => .error (.finish m stPinFormat [])
  | some pin => do
    let (m1, out) ← pinOut tag n f key pan pin m
    pure (okWith m1 (res out))

theorem translation_completes {i : Instr} {op t tag n f : Nat} {prog : Prog} {s : State} {m m1 : Mod} {c : Cmd} {key : Bytes}
    {pan : List Nat} {res : Bytes → Bytes} {o : Option (List Nat)} (hop : programOf op = some prog)
    (h : Starts op t tag s m c) (hi : exec i s = acts t (runOpcode op prog tag) s)
    (hp : prog m tag c = translated tag n f key pan res m1 o) :
    (o = none → Ends i t s tag m1 stPinFormat []) ∧
      ∀ (pin : List Nat) (m2 : Mod) (out : Bytes), o = some pin → pinOut tag n f key pan pin m1 = .ok (m2, out) →
        out = pinSeal f key pan (pfBuild f pin (if f = 0 then zeroBytes 16 else drawn m1 16)) ∧
          Ends i t s tag m2 stOk (res out) := by
  constructor
  · rintro rfl
    exact hi.trans (opcode_ends hop h (Or.inr hp))
  · rintro pin m2 out rfl hout
    refine ⟨pinOut_block hout, hi.trans (opcode_ends hop h (Or.inl (hp.trans ?_)))⟩
    simp only [translated, hout, ok_bind]
    rfl

/-- Settles O3: every check of the program passes in its order, up to the block opened; `translated` says the rest. -/
theorem pinTranslationCompletes : Obligations.PinTranslationCompletes := by
  constructor
  · intro routed t tag s m m1 c pan blk ai ki ao ko ho hs hlen inF outF x hOut follow i hin hout hpan hf hres hr hblk hal hu huf
      hki hfi hko hfo hn hp
    have hprog : progPinTranslate routed m tag c =
        translated tag (lineNo m1 ho) outF (symKey ao ko) pan (fun out => pinResult out ao routed follow x) m1
          (pinOf inF (symKey ai ki) pan blk) := by
      have hdef : (fmtDefined inF && fmtDefined outF) = true := by rw [hin, hout]; rfl
      have hroute : (!routed || f64 c 8 == 0) = true := by cases routed <;> simp_all
      have hstage : ¬ (routed && c.stage == 0) = true := by cases routed <;> simp_all
      refine passes (bodyLen_of hlen) <| passes (ensure_of _ hdef) <| passes hpan <|
        passes (ensure_of _ (decide_eq_true hf)) <| passes (reserved_of hres) <| passes (ensure_of _ hroute) <| passes hblk <|
        passes hal <| (if_neg hstage).trans <| passes hu <| passes huf <| passes hki <| passes hfi <| passes hko <|
        passes hfo <| passes hn <| passes hp ?_
      cases pinOf inF (symKey ai ki) pan blk <;> rfl
    cases routed with
    | false => exact translation_completes rfl hs rfl hprog
    | true => exact translation_completes rfl hs rfl hprog
  · intro routed t tag l s m m1 m2 c pan blk ab kb ao ko ho hs hlen v inF outF ksn x hOut follow k i hin hout hpan hf hr1 hr2 hr
      hksn hblk hal hu huf hbase hko hfo hn hline hp
    have hprog : progDukptTranslate routed m tag c =
        translated tag (lineNo m2 ho) outF (symKey ao ko) pan (fun out => pinResult out ao routed follow x) m2
          (pinOf inF k pan blk) := by
      have hform : (if v = 1 then inF == 0 || inF == 1 || inF == 3 else v == 2 && inF == 4) = true := by
        rcases hin with ⟨h1, hin⟩ | ⟨h2, hin⟩
        · simpa [h1, or_assoc] using hin
        · simp [h2, hin]
      have hroute : (!routed || f64 c 8 == 0) = true := by cases routed <;> simp_all
      have hstage : ¬ (routed && c.stage == 0) = true := by cases routed <;> simp_all
      refine passes (bodyLen_of hlen) <| passes (ensure_of _ hform) <| passes (ensure_of _ hout) <| passes hpan <|
        passes (ensure_of _ (decide_eq_true hf)) <| passes (reserved_of hr1) <| passes (reserved_of hr2) <|
        passes (ensure_of _ hroute) <| passes (ensure_of _ hksn) <| passes hblk <| passes hal <| (if_neg hstage).trans <|
        passes hu <| passes huf <| passes hbase <| passes hko <| passes hfo <| passes hn <| passes hline <| passes hp ?_
      cases pinOf inF k pan blk <;> rfl
    cases routed with
    | false => exact translation_completes rfl hs rfl hprog
    | true => exact translation_completes rfl hs rfl hprog

/-! ### PIN verification -/

/-- What PIN_CHANGE does from the old PIN's check on: the comparison by the method, then the new block (09 R251). -/
def changeFrom (tag : Nat) (c : Cmd) (pan off : List Nat) (old new ref ki av kv : Bytes) (b : Budget) (m2 : Mod) : Except Act Act := do
  let meth := f8 c 0x10
  let f := f8 c 0x11
  let g := f8 c 0x14
  let kw := symKey av kv
  let p ← checkedPin m2 tag (f64 c 8) b (pinOf f ki pan old)
  let r ← if meth = 2 then checkedPin m2 tag (f64 c 8) b (pinOf g kw pan ref) else pure p
  let m3 ← if meth = 1 then pvkUnder tag kv (fBytes c 0x18 8) m2 else pure m2
  let m4 ← matchedPin m3 tag (f64 c 8) b (if meth = 1 then decMatch av kv (fBytes c 0x18 8) off p else p == r)
  let m5 ← pinIn tag (lineNo m4 (f64 c 0)) 0 f ki pan new m4
  match pinOf f ki pan new with
  | none => .error (.finish m5 stPinFormat [])
  | some pin =>
    if meth = 1 then
      pure (okWith m5 ([byteOf pin.length, 0] ++ bcdField 6 (decOffset av kv (fBytes c 0x18 8) pin)))
    else
      let (m6, out) ← pinOut tag (lineNo m5 (f64 c 8)) g kw pan pin m5
      pure (okWith m6 out)

/-- By offset the old PIN is checked first, then matched under the copy of the PVK (09 R249, R251). -/
theorem changeFrom_offset {tag : Nat} {c : Cmd} {pan off pin : List Nat} {old new ref ki av kv : Bytes} {b : Budget} {m2 m3 : Mod}
    (hm : f8 c 0x10 = 1) (hold : pinOf (f8 c 0x11) ki pan old = some pin) (hpvk : pvkUnder tag kv (fBytes c 0x18 8) m2 = .ok m3) :
    changeFrom tag c pan off old new ref ki av kv b m2 = (do
      let m4 ← matchedPin m3 tag (f64 c 8) b (decMatch av kv (fBytes c 0x18 8) off pin)
      let m5 ← pinIn tag (lineNo m4 (f64 c 0)) 0 (f8 c 0x11) ki pan new m4
      match pinOf (f8 c 0x11) ki pan new with
      | none => .error (.finish m5 stPinFormat [])
      | some pin =>
        pure (okWith m5 ([byteOf pin.length, 0] ++ bcdField 6 (decOffset av kv (fBytes c 0x18 8) pin)))) := by
  simp only [changeFrom, hold, hm, checkedPin_some, ok_bind, hpvk, Nat.reduceEqDiff, if_false, if_true, pure_ok]

/-- By reference both blocks are checked, then compared (09 R250, R251). -/
theorem changeFrom_reference {tag : Nat} {c : Cmd} {pan off pin want : List Nat} {old new ref ki av kv : Bytes} {b : Budget} {m2 : Mod}
    (hm : f8 c 0x10 = 2) (hold : pinOf (f8 c 0x11) ki pan old = some pin)
    (href : pinOf (f8 c 0x14) (symKey av kv) pan ref = some want) :
    changeFrom tag c pan off old new ref ki av kv b m2 = (do
      let m4 ← matchedPin m2 tag (f64 c 8) b (pin == want)
      let m5 ← pinIn tag (lineNo m4 (f64 c 0)) 0 (f8 c 0x11) ki pan new m4
      match pinOf (f8 c 0x11) ki pan new with
      | none => .error (.finish m5 stPinFormat [])
      | some pin => do
        let (m6, out) ← pinOut tag (lineNo m5 (f64 c 8)) (f8 c 0x14) (symKey av kv) pan pin m5
        pure (okWith m6 out)) := by
  simp only [changeFrom, hold, href, hm, checkedPin_some, ok_bind, Nat.reduceEqDiff, if_false, if_true, pure_ok]

theorem changeFrom_badReference {tag : Nat} {c : Cmd} {pan off pin : List Nat} {old new ref ki av kv : Bytes} {b : Budget} {m2 : Mod}
    (hm : f8 c 0x10 = 2) (hold : pinOf (f8 c 0x11) ki pan old = some pin)
    (href : pinOf (f8 c 0x14) (symKey av kv) pan ref = none) :
    changeFrom tag c pan off old new ref ki av kv b m2 = .error (countedStop m2 tag (f64 c 8) b stVerifyFail) := by
  simp only [changeFrom, hold, href, hm, checkedPin_some, checkedPin_none, ok_bind, error_bind, if_true]

/-- Settles O4: each program passes its checks up to the block opened and the attempt reserved; the PIN field's check and the
comparison then say whether the attempt counts. -/
theorem pinVerificationCompletes : Obligations.PinVerificationCompletes := by
  refine ⟨?_, ?_, ?_, ?_, ?_⟩
  · intro t tag s m m1 m2 c pan off blk ak kk av kv b hs hbody hlo hhi hoff hks f hu huv hk hf hv hn hb hp
    have hrun : progPinVerifyOffset m tag c = (do
        let pin ← checkedPin m1 tag (f64 c 8) b (pinOf f (symKey ak kk) pan blk)
        let m2 ← pvkUnder tag kv (fBytes c 0x18 8) m1
        let m3 ← matchedPin m2 tag (f64 c 8) b (decMatch av kv (fBytes c 0x18 8) off pin)
        pure (okWith m3 [])) :=
      passes hbody <| passes (ensure_of _ (decide_eq_true ⟨hlo, hhi⟩)) <| passes (congrArg (orStop · _) hoff) <| passes hu <|
        passes huv <| passes hk <| passes hf <| passes hv <| passes hn <| passes hb <| passes hp rfl
    cases hpin : pinOf f (symKey ak kk) pan blk with
    | none => exact opcode_counts rfl hs rfl (by rw [hrun, hpin]; rfl)
    | some pin =>
      intro hpvk
      rw [hpin] at hrun
      split
      · rename_i hm
        exact opcode_ends rfl hs (Or.inl (hrun.trans (passes rfl <| passes hpvk <| passes (matchedPin_of _ _ _ _ hm) rfl)))
      · rename_i hm
        refine opcode_counts rfl hs rfl (hrun.trans (passes rfl <| passes hpvk ?_))
        rw [matchedPin_not _ _ _ _ (Bool.eq_false_iff.mpr hm)]
        rfl
  · intro t tag s m m1 m2 c pan blk ref ak kk ar kr b hs hlen f g hks hf hg hpan hres hblk href hu hur hk hfk hr hgk hn hb hp1 hp2
    have hdef : (fmtDefined f && fmtDefined g) = true := by rw [hf, hg]; rfl
    have hrun : progPinVerifyRef m tag c = (do
        let p ← checkedPin m2 tag (f64 c 8) b (pinOf f (symKey ak kk) pan blk)
        let r ← checkedPin m2 tag (f64 c 8) b (pinOf g (symKey ar kr) pan ref)
        let m3 ← matchedPin m2 tag (f64 c 8) b (p == r)
        pure (okWith m3 [])) :=
      passes (bodyLen_of hlen) <| passes (ensure_of _ hdef) <| passes hpan <| passes (reserved_of hres) <| passes hblk <|
        passes href <| passes hu <| passes hur <| passes hk <| passes hfk <| passes hr <| passes hgk <| passes hn <|
        passes hb <| passes hp1 <| passes hp2 rfl
    cases hpin : pinOf f (symKey ak kk) pan blk with
    | none => exact opcode_counts rfl hs rfl (by rw [hrun, hpin]; rfl)
    | some pin =>
      cases hwant : pinOf g (symKey ar kr) pan ref with
      | none => exact opcode_counts rfl hs rfl (by rw [hrun, hpin, hwant]; rfl)
      | some want =>
        simp only [hpin, hwant, checkedPin_some, ok_bind] at hrun
        dsimp only
        split
        · rename_i hm
          exact opcode_ends rfl hs (Or.inl (hrun.trans (passes (matchedPin_of _ _ _ _ (beq_iff_eq.mpr hm)) rfl)))
        · rename_i hm
          refine opcode_counts rfl hs rfl ?_
          rw [hrun, matchedPin_not _ _ _ _ (beq_eq_false_iff_ne.mpr hm)]
          rfl
  · intro t tag s m m1 m2 m3 c pan off old new ref ak kk av kv b hs hlen hm f hks ki vd hf h14 hpan hres hlo hhi hz hoff hold hnew
      href hu huv hk hfk hv hn hb hp
    have hrun : progPinChange m tag c = changeFrom tag c pan off old new ref ki av kv b m1 := by
      have hdef : ((f8 c 0x10 == 1 || f8 c 0x10 == 2) && fmtDefined f && fmtDefined (f8 c 0x14)) = true := by
        rw [hm, hf, h14]; rfl
      have hmeth : (if f8 c 0x10 = 1 then decide (4 ≤ f8 c 0x13 ∧ f8 c 0x13 ≤ 12) && f8 c 0x14 == 0 && allZero (fBytes c 0x50 16)
          else f8 c 0x13 == 0 && allZero (fBytes c 0x18 8) && allZero (fBytes c 0x2A 6)) = true := by
        simp [hm, hlo, hhi, h14, hz]
      have hm2 : ¬ f8 c 0x10 = 2 := by omega
      refine passes (bodyLen_of hlen) <| passes (ensure_of _ hdef) <| passes hpan <| passes (reserved_of hres) <|
        passes (ensure_of _ hmeth) <| (if_pos hm).trans <| passes (congrArg (orStop · _) hoff) <| passes hold <| passes hnew <|
        passes (by rw [if_pos hm]; exact href) <| (if_neg hm2).trans <| passes hu <| passes huv <| passes hk <|
        passes hfk <| (if_pos hm).trans <| passes hv <| passes hn <| passes hb <| passes hp <| (if_neg hm2).trans <| passes rfl rfl
    cases hpin : pinOf f ki pan old with
    | none => exact opcode_counts rfl hs rfl (by rw [hrun, changeFrom, hpin]; rfl)
    | some pin =>
      intro hpvk m4
      rw [changeFrom_offset hm hpin hpvk] at hrun
      split
      · rename_i hmatch
        intro hp3
        replace hrun := hrun.trans (passes (matchedPin_of _ _ _ _ hmatch) (passes hp3 rfl))
        cases hpn : pinOf f ki pan new with
        | none => exact opcode_ends rfl hs (Or.inr (by rw [hrun, hpn]))
        | some pinNew => exact opcode_ends rfl hs (Or.inl (by rw [hrun, hpn]; rfl))
      · rename_i hmatch
        refine opcode_counts rfl hs rfl ?_
        rw [hrun, matchedPin_not _ _ _ _ (Bool.eq_false_iff.mpr hmatch)]
        rfl
  · intro t tag s m m1 m2 m3 c pan old new ref ak kk av kv b hs hlen hm f g hks ki kw hf hg hpan hres h13 hz1 hz2 hold hnew href hal
      hu huv hk hfk hv hgv hn hb hp1 hp2
    have hrun : progPinChange m tag c = changeFrom tag c pan [] old new ref ki av kv b m2 := by
      have hdef : ((f8 c 0x10 == 1 || f8 c 0x10 == 2) && fmtDefined f && fmtDefined g) = true := by
        rw [hm, hf, hg]; rfl
      have hmeth : (if f8 c 0x10 = 1 then decide (4 ≤ f8 c 0x13 ∧ f8 c 0x13 ≤ 12) && f8 c 0x14 == 0 && allZero (fBytes c 0x50 16)
          else f8 c 0x13 == 0 && allZero (fBytes c 0x18 8) && allZero (fBytes c 0x2A 6)) = true := by
        simp [hm, h13, hz1, hz2]
      have hm1 : ¬ f8 c 0x10 = 1 := by omega
      refine passes (bodyLen_of hlen) <| passes (ensure_of _ hdef) <| passes hpan <| passes (reserved_of hres) <|
        passes (ensure_of _ hmeth) <| (if_neg hm1).trans <| passes rfl <| passes hold <| passes hnew <|
        passes (by rw [if_neg hm1]; exact href) <| (if_pos hm).trans <| passes hal <| passes hu <| passes huv <| passes hk <|
        passes hfk <| (if_neg hm1).trans <| passes hv <| passes hgv <| passes hn <| passes hb <| passes hp1 <|
        (if_pos hm).trans <| passes hp2 rfl
    cases hpin : pinOf f ki pan old with
    | none => exact opcode_counts rfl hs rfl (by rw [hrun, changeFrom, hpin]; rfl)
    | some pin =>
      cases hwant : pinOf g kw pan ref with
      | none => exact opcode_counts rfl hs rfl (hrun.trans (changeFrom_badReference hm hpin hwant))
      | some want =>
        rw [changeFrom_reference hm hpin hwant] at hrun
        dsimp only
        split
        · rename_i hmatch
          intro hp3
          replace hrun := hrun.trans (passes (matchedPin_of _ _ _ _ (beq_iff_eq.mpr hmatch)) (passes hp3 rfl))
          cases hpn : pinOf f ki pan new with
          | none => exact opcode_ends rfl hs (Or.inr (by rw [hrun, hpn]))
          | some pinNew =>
            intro m5 out hout
            exact opcode_ends rfl hs (Or.inl (by rw [hrun, hpn]; exact passes hout rfl))
        · rename_i hmatch
          refine opcode_counts rfl hs rfl ?_
          rw [hrun, matchedPin_not _ _ _ _ (beq_eq_false_iff_ne.mpr hmatch)]
          rfl
  · intro t tag s m m1 m2 c pan blk ak kk av kv hs hbody hres hks f hu huv hk hf hv hn hp
    have hrun : progPinOffset m tag c = (match pinOf f (symKey ak kk) pan blk with
        | none => .error (.finish m1 stPinFormat [])
        | some pin => do
          let m2 ← pvkUnder tag kv (fBytes c 0x18 8) m1
          pure (okWith m2 ([byteOf pin.length, 0] ++ bcdField 6 (decOffset av kv (fBytes c 0x18 8) pin)))) :=
      passes hbody <| passes (reserved_of hres) <| passes hu <| passes huv <| passes hk <| passes hf <| passes hv <|
        passes hn <| passes hp rfl
    cases hpin : pinOf f (symKey ak kk) pan blk with
    | none => exact opcode_ends rfl hs (Or.inr (by rw [hrun, hpin]))
    | some pin =>
      intro hpvk
      exact opcode_ends rfl hs (Or.inl (by rw [hrun, hpin]; exact passes hpvk rfl))

end Sys2Proof.Machine

/-! SUPPORT. Rate budgets, MACs, EMV codes and tokens: each program under the hypotheses of its clause. -/

namespace Sys2Proof.Machine

/-! ### Rate budgets -/

/-- A budget set where one with the same window stands: only the limit changes (09 R252). -/
theorem budgetSet_kept {b : Tbl Budget} {h s : W64} {limit window : Nat} {old : Budget} (ho : tblFind b h.toNat = some old)
    (hw : old.window = window) : tblFind (budgetSet b h limit window s) h.toNat = some { old with limit := limit } := by
  simp [budgetSet, ho, hw]

/-- A budget set anew counts from 0 in the window that holds the stamp (09 R252). -/
theorem budgetSet_new {b : Tbl Budget} {h s : W64} {limit window : Nat}
    (ho : ∀ old, tblFind b h.toNat = some old → old.window ≠ window) :
    tblFind (budgetSet b h limit window s) h.toNat =
      some { limit := limit, window := window, current := s.toNat / 2 ^ 30 / max 1 window, count := 0, spent := none } := by
  unfold budgetSet
  cases hf : tblFind b h.toNat with
  | none => simp
  | some old => simp [ho old hf]

/-- Settles O5: the record of a set says what it sets, and its commit keeps a budget's count where the window stays. -/
theorem pinBudgetsComplete : Obligations.PinBudgetsComplete := by
  refine ⟨?_, ?_, ?_⟩
  · intro t tag s m c q a k hs hlen h limit window hrange hq hu huse hnew
    have hkey : (aUsage a == ascii "V1" || (aUsage a == ascii "P0" && (aMode a == chr 'D' || aMode a == chr 'B'))) = true := by
      simpa using huse
    refine opcode_journals rfl hs (Or.inl ?_)
    refine passes (bodyLen_of hlen) <| passes (ensure_of _ (decide_eq_true hrange)) <| passes hq <| passes hu <|
      passes (ensure_of _ hkey) ?_
    dsimp only
    cases hf : tblFind (projDur m).bud (f64 c 0).toNat with
    | none =>
      obtain ⟨hlimit, hroom⟩ := hnew hf
      rw [if_neg hlimit]
      exact passes (ensure_of _ (bne_iff_ne.mpr hlimit)) <| passes (ensure_of _ (decide_eq_true hroom)) rfl
    | some b => rfl
  · intro d h stamp limit window hw
    by_cases hkept : ∃ old, tblFind d.bud h.toNat = some old ∧ old.window = window
    · obtain ⟨old, ho, hold⟩ := hkept
      refine ⟨_, budgetSet_kept ho hold, fun x hx _ => ?_, fun hx => absurd hold (hx old ho)⟩
      rw [Option.some.inj (hx.symm.trans ho)]
    · have hnew : ∀ old, tblFind d.bud h.toNat = some old → old.window ≠ window := fun old ho he => hkept ⟨old, ho, he⟩
      exact ⟨_, budgetSet_new hnew, fun old ho he => absurd he (hnew old ho), fun _ => ⟨rfl, rfl, rfl, rfl, rfl⟩⟩
  · intro t tag s m c a k b hs hlen hu hf x
    refine opcode_ends rfl hs (Or.inl ?_)
    exact passes (bodyLen_of hlen) <| passes hu <| passes (congrArg (orStop · _) hf) rfl

/-! ### MACs -/

/-- What MAC_VERIFY_ROUTED does once the first MAC is computed: one more try under an active successor (09 R261). -/
def macTries (m : Mod) (tag : Nat) (c : Cmd) (h : W64) (a k x : Bytes) (m1 : Mod) : Except Act Act :=
  if macOk c a k then pure (okWith m1 (recIssuer x))
  else match successorOf m h c.stamp with
    | none => .error (.finish m1 stVerifyFail [])
    | some s => do
      let (a2, k2) ← keyHeld m tag c [h, s] s
      if (keyUse m s a2 c.stamp).isSome then .error (.finish m1 stVerifyFail [])
      else
        let m2 ← macBodyUnder tag c s a2 k2 m1
        if macOk c a2 k2 then pure (okWith m2 (recIssuer x)) else .error (.finish m2 stVerifyFail [])

/-- A second try under a successor that is held but may not be used is none. -/
theorem macTries_unusable {m m1 : Mod} {tag : Nat} {c : Cmd} {h n : W64} {a k x a2 k2 : Bytes} (hok : macOk c a k = false)
    (hsucc : successorOf m h c.stamp = some n) (hheld : keyHeld m tag c [h, n] n = .ok (a2, k2))
    (huse : (keyUse m n a2 c.stamp).isSome = true) : macTries m tag c h a k x m1 = .error (.finish m1 stVerifyFail []) := by
  simp only [macTries, hok, hsucc, hheld, ok_bind, huse, Bool.false_eq_true, if_false, if_true]

/-- The second try decides. -/
theorem macTries_successor {m m1 m2 : Mod} {tag : Nat} {c : Cmd} {h n : W64} {a k x a2 k2 : Bytes} (hok : macOk c a k = false)
    (hsucc : successorOf m h c.stamp = some n) (hheld : keyHeld m tag c [h, n] n = .ok (a2, k2))
    (huse : keyUse m n a2 c.stamp = none) (hmac : macBodyUnder tag c n a2 k2 m1 = .ok m2) :
    macTries m tag c h a k x m1 =
      if macOk c a2 k2 then .ok (okWith m2 (recIssuer x)) else .error (.finish m2 stVerifyFail []) := by
  simp only [macTries, hok, hsucc, hheld, ok_bind, huse, hmac, Option.isSome_none, Bool.false_eq_true, if_false, pure_ok]

/-- Settles O6: each program passes its checks up to the MAC, whose comparison gives the status; a key that leaves is a record
where a quorum consumed a challenge. -/
theorem macCommandsComplete : Obligations.MacCommandsComplete := by
  refine ⟨?_, ?_, ?_, ?_, ?_⟩
  · intro t tag l s m m1 m2 c ab kb hs hlen v n ksn d hv hn hn' hl hl' hr1 hr2 hksn hu hbase hcip k mac hline hmac
    refine opcode_ends rfl hs (Or.inr ?_)
    have hvar : (v == 1 || v == 2) = true := by simpa using hv
    exact passes (bodyMin_of (hlen ▸ Nat.le_add_right _ _)) <| passes (bodyLen_of hlen) <| passes (ensure_of _ hvar) <|
      passes (ensure_of _ (decide_eq_true ⟨hn, hn'⟩)) <| passes (ensure_of _ (decide_eq_true ⟨hl, hl'⟩)) <|
      passes (reserved_of hr1) <| passes (reserved_of hr2) <| passes (ensure_of _ hksn) <| passes hu <| passes hbase <|
      passes hcip <| passes hline <| passes hmac rfl
  · intro t tag s m m0 m1 c q ab kb ap kp hs hlen v ksn hks hv hexp hr1 hr2 hksn hq hu hup hbase hap htrust hcip ik hunder fill blk
      hblk
    have hvar : (v == 1 || v == 2) = true := by simpa using hv
    have hexport : (f8 c 0x11 == chr 'E' || f8 c 0x11 == chr 'N') = true := by simpa using hexp
    refine opcode_record_or_ends rfl hs rfl ?_
    refine passes (bodyLen_of hlen) <| passes (ensure_of _ hvar) <| passes (ensure_of _ hexport) <| passes (reserved_of hr1) <|
      passes (reserved_of hr2) <| passes (ensure_of _ hksn) <| passes hq <| passes hu <| passes hup <| passes hbase <|
      passes hap <| passes (ensure_of _ htrust) <| passes hcip <| passes hunder <| passes hblk ?_
    cases q <;> rfl
  · intro t tag s m m1 c a k h hs hbody hu hk hlim hcip hmac
    refine opcode_ends rfl hs (Or.inl ?_)
    exact passes hbody <| passes hu <| passes hk <| passes hlim <| passes hcip <| passes hmac rfl
  · intro t tag s m m1 c a k hs hbody hu hk hlim hcip hmac
    refine opcode_ends rfl hs (Or.inr ?_)
    exact passes hbody <| passes hu <| passes hk <| passes hlim <| passes hcip <| passes hmac rfl
  · intro t tag s m m1 c pan a k hs hbody hpan hstage x h hu hk hlim hcip hmac
    have hstage' : ¬ (c.stage == 0) = true := by simpa using hstage
    have hrun : progMacVerifyRouted m tag c = macTries m tag c h a k x m1 :=
      passes hbody <| passes hpan <| (if_neg hstage').trans <| passes hu <| passes hk <| passes hlim <| passes hcip <|
        passes hmac rfl
    refine ⟨fun hok => ?_, fun hok hsucc => ?_, fun n a2 k2 hok hsucc hheld => ⟨fun huse => ?_, fun m2 huse hmac2 => ?_⟩⟩
    · exact opcode_ends rfl hs (Or.inl (hrun.trans (if_pos hok)))
    · refine opcode_ends rfl hs (Or.inr ?_)
      rw [hrun, macTries, hok, hsucc]
      rfl
    · exact opcode_ends rfl hs (Or.inr (hrun.trans (macTries_unusable hok hsucc hheld huse)))
    · have htry := hrun.trans (macTries_successor hok hsucc hheld huse hmac2)
      cases hok2 : macOk c a2 k2 with
      | true => exact opcode_ends rfl hs (Or.inl (by rw [htry, hok2]; rfl))
      | false => exact opcode_ends rfl hs (Or.inr (by rw [htry, hok2]; rfl))

/-! ### EMV, card security codes and tokens -/

/-- What EMV_ARQC_VERIFY does once the cryptogram is computed: the answer of its method (09 R262). -/
def arqcAnswers (tag n : Nat) (c : Cmd) (aes : Bool) (sk d : Bytes) (m2 : Mod) : Except Act Act := do
  let arqc := fBytes c 0x1C 8
  if (emvMac aes sk (f8 c 0x0C) d).take 8 ≠ arqc then .error (.finish m2 stVerifyFail [])
  else if f8 c 0x0D = 1 then
    let arpc := tdesEnc sk (xorBytes arqc (fBytes c 0x24 2 ++ zeroBytes 6))
    let m3 ← under tag n .ecbEnc .tdes 1 .data arpc m2
    pure (okWith m3 arpc)
  else if f8 c 0x0D = 2 then
    let d2 := arqc ++ fBytes c 0x24 4 ++ fBytes c 0x28 (f8 c 0x0E)
    let m3 ← emvMacUnder tag n aes sk 2 d2 m2
    pure (okWith m3 ((emvMac aes sk 2 d2).take 4))
  else pure (okWith m2 [])

/-- Settles O7: what the commands of a family share is passed once (`emvCommon`, the body and the key); the code, the
cryptogram or the digits computed then give the answer. -/
theorem emvCodesAndTokensComplete : Obligations.EmvCodesAndTokensComplete := by
  refine ⟨⟨?_, ?_, ?_⟩, ?_, ?_, ?_⟩
  · intro t tag n s m m1 m2 c aes sk d hs hcommon arqc d2 arpc hmac ok
    have hrun : progEmvArqc m tag c = arqcAnswers tag n c aes sk d m2 := passes hcommon <| passes hmac rfl
    refine ⟨fun hno => ?_, fun hok h13 => ?_, fun m3 hok h13 hunder => ?_, fun m3 hok h13 hmac2 => ?_⟩
    · exact opcode_ends rfl hs (Or.inr (hrun.trans (if_pos hno)))
    · have h1 : ¬ f8 c 0x0D = 1 := by omega
      have h2 : ¬ f8 c 0x0D = 2 := by omega
      exact opcode_ends rfl hs (Or.inl (hrun.trans <| (if_neg (not_not_intro hok)).trans <| (if_neg h1).trans <| if_neg h2))
    · exact opcode_ends rfl hs (Or.inl (hrun.trans <| (if_neg (not_not_intro hok)).trans <| (if_pos h13).trans <| passes hunder rfl))
    · have h1 : ¬ f8 c 0x0D = 1 := by omega
      exact opcode_ends rfl hs (Or.inl (hrun.trans <| (if_neg (not_not_intro hok)).trans <| (if_neg h1).trans <|
        (if_pos h13).trans <| passes hmac2 rfl))
  · intro t tag n s m m1 m2 c aes sk d hs hcommon hmac
    exact opcode_ends rfl hs (Or.inl (passes hcommon <| passes hmac rfl))
  · intro t tag n s m m1 m2 c aes sk d hs hcommon k out hunder
    exact opcode_ends rfl hs (Or.inl (passes hcommon <| passes hunder rfl))
  · intro t tag s m m2 c pan exp svc a k hs hlen hpan hn hn' hexp hsvc hr1 hr2 hr3 hu hk hcip line hunder
    refine opcode_ends rfl hs (Or.inl ?_)
    exact passes (bodyLen_of hlen) <| passes hpan <| passes (ensure_of _ (decide_eq_true ⟨hn, hn'⟩)) <|
      passes (congrArg (orStop · _) hexp) <| passes (congrArg (orStop · _) hsvc) <| passes (reserved_of hr1) <|
      passes (reserved_of hr2) <| passes (reserved_of hr3) <| passes rfl <| passes hu <| passes hk <| passes hcip <|
      passes hunder rfl
  · intro t tag s m m2 c pan exp svc want a k hs hlen hpan hn hn' hexp hsvc hr1 hr2 hwant hu hk hcip line hunder
    refine opcode_ends rfl hs (Or.inr ?_)
    exact passes (bodyLen_of hlen) <| passes hpan <| passes (ensure_of _ (decide_eq_true ⟨hn, hn'⟩)) <|
      passes (congrArg (orStop · _) hexp) <| passes (congrArg (orStop · _) hsvc) <| passes (reserved_of hr1) <|
      passes (reserved_of hr2) <| passes (congrArg (orStop · _) hwant) <| passes hu <| passes hk <| passes hcip <|
      passes hunder rfl
  · intro detok t tag s m m1 c d a k hs hlen hpan h9 h10 h11 hr1 hr2 hroom hseal hu hk hcip mid tweak out i hunder
    have hsealed : (!detok || c.sealKey.isSome) = true := by
      cases detok with
      | false => rfl
      | true => exact hseal rfl
    have hrun : progToken detok m tag c =
        .ok (okWith m1 (bcdField 10 (d.take (f8 c 9) ++ out ++ d.drop (d.length - f8 c 0x0A)))) :=
      passes (bodyLen_of hlen) <| passes hpan <| passes (ensure_of _ (decide_eq_true ⟨h9, h10, h11⟩)) <|
        passes (reserved_of hr1) <| passes (reserved_of hr2) <| passes (ensure_of _ (decide_eq_true hroom)) <|
        passes (ensure_of _ hsealed) <| passes hu <| passes hk <| passes hcip <| passes hunder rfl
    cases detok with
    | false => exact opcode_ends rfl hs (Or.inl hrun)
    | true => exact opcode_ends rfl hs (Or.inl hrun)

end Sys2Proof.Machine

/-! SUPPORT. Bulk jobs and streams: each program up to its job, and its finishing dispatch. -/

namespace Sys2Proof.Machine

/-! ### Asking for a job -/

/-- A command that may read host memory, or need not, places its job or waits for a slot (02 R36, 08 R223). -/
theorem takeSlot_eq {m : Mod} {tag : Nat} {c : Cmd} {hold : Mod → Mod} (h : jobReads c = true → blkServes m .hif = true) :
    takeSlot m tag c hold = .hold (placed m tag c hold) := by
  have hno : ¬ (jobReads c && !blkServes m .hif) = true := by
    intro hx
    obtain ⟨hr, hs⟩ := Bool.and_eq_true_iff.mp hx
    simp [h hr] at hs
  unfold takeSlot placed
  rw [if_neg hno]
  cases pipeFor m c <;> rfl

theorem opcode_asksJob {op t tag : Nat} {prog : Prog} {s : State} {m : Mod} {c : Cmd} {i : Instr} {hold : Mod → Mod}
    (hop : programOf op = some prog) (hs : Starts op t tag s m c) (hi : exec i s = acts t (runOpcode op prog tag) s)
    (hr : jobReads c = true → blkServes m .hif = true) (hp : prog m tag c = .ok (takeSlot m tag c hold)) :
    AsksJob i t s tag c m hold :=
  hi.trans (opcode_holds hop hs (Or.inl (hp.trans (congrArg _ (takeSlot_eq hr)))))

/-! ### Bulk jobs -/

/-- The finishing dispatch of a bulk job gives what its job left. -/
theorem job_finishes {m : Mod} {tag : Nat} {c : Cmd} {st : W16} {res : Bytes} (h : c.outcome = some (st, res)) :
    (∀ dec, progJob dec m tag c = .ok (.finish m st res)) ∧ progDigest m tag c = .ok (.finish m st res) ∧
      ∀ ver, progHmac ver m tag c = .ok (.finish m st res) := by
  simp [progJob, progDigest, progHmac, h]

theorem progJob_asks {m : Mod} {tag : Nat} {c : Cmd} {dec : Bool} {a k : Bytes} (ho : c.outcome = none)
    (hbody : jobBody c = .ok ()) (hu : useKey m tag c [f64 c 0] (f64 c 0) = .ok (a, k))
    (hk : keyIs a ["D0"] (if dec then ['B', 'D'] else ['B', 'E']) = .ok ()) (ha : aAlg a = chr 'A')
    (hn : needCipher m = .ok ()) : progJob dec m tag c = .ok (takeSlot m tag c id) := by
  unfold progJob
  rw [ho]
  exact passes hbody <| passes hu <| passes (passes hk (ensure_of _ (beq_iff_eq.mpr ha))) <| passes hn rfl

theorem progHmac_asks {m : Mod} {tag : Nat} {c : Cmd} {ver : Bool} {a k : Bytes} (ho : c.outcome = none)
    (hbody : digestBody c = .ok ()) (hu : useKey m tag c [f64 c 0] (f64 c 0) = .ok (a, k))
    (hk : keyIs a ["M7"] (if ver then ['V', 'C'] else ['G', 'C']) = .ok ()) (hl : f8 c 8 ≤ (hmacAlg a).outLen)
    (hn : needBlk m .dge = .ok ()) : progHmac ver m tag c = .ok (takeSlot m tag c id) := by
  unfold progHmac
  rw [ho]
  exact passes hbody <| passes hu <| passes hk <| passes (ensure_of _ (decide_eq_true hl)) <| passes hn rfl

/-- Settles O8: before its job a command passes the checks of its body and key; after it the outcome stands in the command. -/
theorem bulkJobsComplete : Obligations.BulkJobsComplete := by
  refine ⟨fun t tag s m c => ⟨?_, ?_, ?_, ?_⟩, ?_⟩
  · intro a k op i dec hcase hs ho hbody hu hk ha hn hr
    rcases hcase with h | h | h | h <;> cases h <;>
      exact opcode_asksJob rfl hs rfl hr (progJob_asks ho hbody hu hk ha hn)
  · intro a k op i ver hcase hs ho hbody hu hk hl hn hr
    rcases hcase with h | h <;> cases h <;> exact opcode_asksJob rfl hs rfl hr (progHmac_asks ho hbody hu hk hl hn)
  · intro hs ho hbody hn hr
    refine opcode_asksJob rfl hs rfl hr ?_
    unfold progDigest
    rw [ho]
    exact passes hbody <| passes hn rfl
  · intro op i st res hcase hs ho
    obtain ⟨hjob, hdigest, hhmac⟩ := job_finishes (m := m) (tag := tag) ho
    rcases hcase with h | h | h | h | h | h | h <;> cases h
    · exact opcode_ends rfl hs (Or.inl (hjob _))
    · exact opcode_ends rfl hs (Or.inl (hjob _))
    · exact opcode_ends rfl hs (Or.inl (hjob _))
    · exact opcode_ends rfl hs (Or.inl (hjob _))
    · exact opcode_ends rfl hs (Or.inl hdigest)
    · exact opcode_ends rfl hs (Or.inl (hhmac _))
    · exact opcode_ends rfl hs (Or.inl (hhmac _))
  · intro t tag s m c hs hlen hn hn' hr hrng
    exact opcode_ends rfl hs (Or.inl (passes (bodyLen_of hlen) <| passes (ensure_of _ (decide_eq_true ⟨hn, hn'⟩)) <|
      passes (reserved_of hr) <| passes (needRng_of hrng) rfl))

/-! ### Streams -/

/-- STREAM_UPDATE and STREAM_FINAL on an OPEN context, in order, ask for their job (08 R230, R233). -/
theorem streamData_asks {m : Mod} {tag n : Nat} {c : Cmd} {a k : Bytes} (hst : (strOf m c.tenant (f8 c 0)).state = 1)
    (hord : f64 c 8 = BitVec.ofNat 64 (strOf m c.tenant (f8 c 0)).bytes)
    (hlen : (strOf m c.tenant (f8 c 0)).mode = 3 → (strOf m c.tenant (f8 c 0)).bytes + n ≤ 2 ^ 36 - 32)
    (hu : useKey m tag c [(strOf m c.tenant (f8 c 0)).key] (strOf m c.tenant (f8 c 0)).key = .ok (a, k))
    (hk : bulkKey a ((strOf m c.tenant (f8 c 0)).dir == 1) = .ok ()) (hn : needCipher m = .ok ()) :
    streamData m tag c n = .ok (takeSlot m tag c (fun m => updStr m c.tenant (f8 c 0)
      (fun y => { y with state := 2, prior := y.lastStamp, lastStamp := c.stamp }))) := by
  have hroom : ((strOf m c.tenant (f8 c 0)).mode != 3 || decide ((strOf m c.tenant (f8 c 0)).bytes + n ≤ 2 ^ 36 - 32)) = true := by
    by_cases h3 : (strOf m c.tenant (f8 c 0)).mode = 3
    · rw [decide_eq_true (hlen h3), Bool.or_true]
    · rw [bne_iff_ne.mpr h3, Bool.true_or]
  exact passes (ensure_of _ (beq_iff_eq.mpr hst)) <| passes (ensure_of _ (beq_iff_eq.mpr hord)) <| passes (ensure_of _ hroom) <|
    passes hu <| passes hk <| passes hn rfl

/-- The finishing dispatch of a stream's command. -/
theorem stream_finishes {m : Mod} {tag : Nat} {c : Cmd} {st : W16} {res : Bytes} (h : c.outcome = some (st, res)) :
    progStreamOpen m tag c = .ok (finishStream m c st res) ∧ progStreamUpdate m tag c = .ok (finishStream m c st res) ∧
      progStreamFinal m tag c = .ok (finishStream m c st res) := by
  simp [progStreamOpen, progStreamUpdate, progStreamFinal, h]

/-- Settles O9: before its job a command passes the checks of its body, context and key; after it `streamDone` says what the
context becomes. -/
theorem streamCommandsComplete : Obligations.StreamCommandsComplete := by
  intro t tag s m c x y
  refine ⟨?_, ?_, ?_, ?_⟩
  · intro a k hs ho hlen hx h1 h1' h2 h5 h3 hr1 hr2 hmode haad haad' haddr hiv hst hu hk hn hr
    have hgcm : (!(f8 c 1 == 3 && f8 c 2 == 1)) = true := by
      by_cases h : f8 c 1 = 3
      · simp [h, h3 h]
      · simp [h]
    have hopt : (f8 c 1 == 3 || (f32 c 0x20 == 0 && f8 c 4 == 0)) = true := by simpa using haad
    have hlist : (f32 c 0x20 != 0 || f64 c 0x28 == 0) = true := by
      by_cases h : f32 c 0x20 = 0
      · rw [beq_iff_eq.mpr (haddr.mp h), Bool.or_true]
      · rw [bne_iff_ne.mpr h, Bool.true_or]
    have hpad : (f8 c 5 == 1 || allZero (sliceOf c.body (0x10 + f8 c 3) (16 - f8 c 3))) = true := by simpa using hiv
    refine opcode_asksJob rfl hs rfl hr ?_
    unfold progStreamOpen
    rw [ho]
    exact passes (bodyLen_of hlen) <| passes (ensure_of _ (decide_eq_true ⟨hx, h1, h1', h2⟩)) <|
      passes (ensure_of _ (decide_eq_true h5)) <| passes (ensure_of _ hgcm) <| passes (reserved_of hr1) <|
      passes (reserved_of hr2) <| passes hmode <| passes (ensure_of _ hopt) <| passes (ensure_of _ (decide_eq_true haad')) <|
      passes (ensure_of _ hlist) <| passes (ensure_of _ hpad) <| passes (ensure_of _ (beq_iff_eq.mpr hst)) <| passes hu <|
      passes hk <| passes hn rfl
  · intro a k op n i hcase hs ho hx hst hord hroom hu hk hn hr
    rcases hcase with ⟨hop, hlen, hr1, hn1, hn2, hn3, hr2⟩ | ⟨hop, hlen, hn1, hr1, hcbc⟩ <;> cases hop
    · refine opcode_asksJob rfl hs rfl hr ?_
      unfold progStreamUpdate
      rw [ho]
      exact passes (bodyLen_of hlen) <| passes (ensure_of _ (decide_eq_true hx)) <| passes (reserved_of hr1) <|
        passes (ensure_of _ (decide_eq_true ⟨hn1, hn2, hn3⟩)) <| passes (reserved_of hr2) <|
        streamData_asks hst hord hroom hu hk hn
    · have hlast : ((strOf m c.tenant (f8 c 0)).mode != 1 || f8 c 1 == 0) = true := by
        by_cases h : (strOf m c.tenant (f8 c 0)).mode = 1
        · rw [beq_iff_eq.mpr (hcbc h), Bool.or_true]
        · rw [bne_iff_ne.mpr h, Bool.true_or]
      refine opcode_asksJob rfl hs rfl hr ?_
      unfold progStreamFinal
      rw [ho]
      exact passes (bodyLen_of hlen) <| passes (ensure_of _ (decide_eq_true ⟨hx, hn1⟩)) <| passes (reserved_of hr1) <|
        passes (ensure_of _ hlast) <| streamData_asks hst hord hroom hu hk hn
  · intro op i st res hcase hs ho
    obtain ⟨hopen, hupd, hfin⟩ := stream_finishes (m := m) (tag := tag) ho
    rcases hcase with h | h | h <;> cases h
    · exact opcode_ends rfl hs (Or.inl hopen)
    · exact opcode_ends rfl hs (Or.inl hupd)
    · exact opcode_ends rfl hs (Or.inl hfin)
  · intro hs hlen hx hr hst
    exact opcode_ends rfl hs (Or.inl (passes (bodyLen_of hlen) <| passes (ensure_of _ (decide_eq_true hx)) <|
      passes (reserved_of hr) <| passes (ensure_of _ (bne_iff_ne.mpr hst)) rfl))

end Sys2Proof.Machine

/-! SUPPORT. The public-key engine: the commands on the core, and the events of queue and engines. -/

namespace Sys2Proof.Machine

/-! ### Commands -/

/-- A check asked for in one case alone leaves what follows it. -/
theorem passes_if {ε β : Type} {p : Prop} [Decidable p] {x : Except ε Unit} {f : Unit → Except ε β} {r : Except ε β}
    (h : p → x = .ok ()) (hr : f () = r) : (if p then x >>= f else f ()) = r := by
  split
  · exact passes (h ‹_›) hr
  · exact hr

/-- A public-key command whose body, quorum and handle hold is handed to PKE (10 R289). -/
theorem progPk_hands {m : Mod} {tag : Nat} {c : Cmd} {q : List Effect} (ho : c.outcome = none) (hbody : pkBody c = .ok ())
    (hq : quorums m tag c (cmdDigest c) (pkClasses c) (projDur m) = .ok q) (hn : needBlk m .pke = .ok ())
    (hr : pkRandom c = true → m.rng.halted = false) (hroot : c.opcode = 0x0905 → (tenantOf m c.tenant).trk.isSome = true)
    (hh : (pkHandle c).bind (handleStatus m c.tenant) = none) :
    progPk m tag c = .ok (.hold (pkStart (updCmd m tag (fun c => { c with phase := .pke })) tag)) := by
  unfold progPk
  rw [ho]
  refine passes hbody <| passes hq <| passes hn <| passes_if (fun h => needRng_of (hr h)) <|
    passes_if (fun h => ensure_of _ (hroot h)) ?_
  rw [hh]
  rfl

/-- The finishing dispatch gives the engine's outcome where no key is created. -/
theorem progPk_finishes {m : Mod} {tag : Nat} {c : Cmd} {st : W16} {res : Bytes} (ho : c.outcome = some (st, res))
    (hop : c.opcode ≠ 0x0905 ∧ c.opcode ≠ 0x0906) : progPk m tag c = .ok (.finish m st res) := by
  simp [progPk, ho, hop]

/-- The finishing dispatch of a command that creates keys. -/
theorem progPk_creates {m : Mod} {tag : Nat} {c : Cmd} {res : Bytes} {q : List Effect} (ho : c.outcome = some (stOk, res))
    (hq : quorums m tag c (cmdDigest c) (pkClasses c) (projDur m) = .ok q) :
    (c.opcode = 0x0905 → progPk m tag c = finishKeygen m c q) ∧ (c.opcode = 0x0906 → progPk m tag c = finishAgree m c q) := by
  constructor <;> intro hop <;> simp [progPk, ho, hop, hq]

/-- Settles O11: up to the hand-over every opcode runs the same checks; what its finishing dispatch does turns on the
opcode alone. -/
theorem publicKeyCommandsComplete : Obligations.PublicKeyCommandsComplete := by
  intro t tag s m c
  refine ⟨?_, ?_, ?_, ?_, ?_⟩
  · intro op i q hcase hs ho hbody hq hn hr hroot hh
    have hp := progPk_hands ho hbody hq hn hr hroot hh
    rcases hcase with h | h | h | h | h | h | h <;> cases h <;> exact opcode_holds rfl hs (Or.inl hp)
  · intro op i st res hcase hs hop ho
    rcases hcase with h | h | h | h | h <;> cases h <;>
      exact opcode_ends rfl hs (Or.inl (progPk_finishes ho (by rw [hop]; decide)))
  · intro res q e1 e2 h1 h2 hs hop ho hq hw a hc1 hc2 pub
    exact opcode_journals rfl hs (Or.inl (((progPk_creates ho hq).1 hop).trans <|
      passes (ensure_of _ (decide_eq_true hw)) <| passes hc1 <| passes hc2 rfl))
  · intro res q effs h hs hop ho hq a field hc
    refine opcode_journals rfl hs (Or.inl (((progPk_creates ho hq).2 hop).trans ((finishCreate_of hc).trans ?_)))
    rw [List.append_nil]
  · intro hs hlen hreq l
    exact opcode_ends rfl hs (Or.inl (passes (bodyLen_of hlen) <| passes (ensure_of _ (bne_iff_ne.mpr hreq)) rfl))

/-! ### Events -/

theorem opEngineGrant_takes {m : Mod} {e load : Nat} {w : PkWait} {rest : List PkWait} {c : Cmd}
    (hq : m.pke.queue = w :: rest) (hfree : engFree m e = true) (hlow : ∀ i, i < e → engFree m i = false)
    (hc : cmdOf m w.tag = some c) :
    opEngineGrant e load m =
      let loaded := loadDraws { m with pke := { m.pke with queue := rest } } w.slot w.draws w.mem
      resumePk (releaseKeys (updEng loaded.1 e (fun x =>
        { x with
          state := .loading, tag := w.tag, tenant := c.tenant, slot := w.slot, nominal := w.nominal, since := m.clk,
          loadNs := min load (loadLimit c), mem := loaded.2 })) w.tag) := by
  have hall : (List.range e).all (fun i => !engFree m i) = true := by
    simpa only [List.all_eq_true, List.mem_range, Bool.not_eq_true'] using hlow
  simp only [opEngineGrant, hq, hfree, hall, Bool.and_self, if_true, hc]

theorem undispatched_of {m : Mod} {c : Cmd} {l p : Nat} (hph : c.phase = .ready l p) (hop : c.opcode / 256 = 9)
    (hnot : c.opcode ≠ 0x0910) (hr : c.runs = 0) (ho : c.outcome = none) (ht : c.since + 4000000 ≤ m.clk) :
    undispatched m 0 c = true := by
  simp [undispatched, hph, hop, hnot, hr, ho, ht]

theorem startedLate_of {m : Mod} {tag : Nat} {c : Cmd} (hph : c.phase = .pke) (ht : lateFor m tag c ≤ m.clk)
    (he : ∀ e, engWith m tag = some e → lateFor m tag c < (engOf m e).first) : startedLate m 0 tag c = true := by
  have hall : (engWith m tag).all (fun e => decide (lateFor m tag c < (engOf m e).first)) = true := by
    simpa only [Option.all_eq_true, decide_eq_true_iff] using he
  simp only [startedLate, hph, BEq.rfl, Nat.add_zero, ht, decide_true, hall, Bool.and_self]

/-- When an engine may signal: a program under a key pair's secret half at its nominal time, the others within their limits (10 R273). -/
theorem signals_of {m : Mod} {x : Eng} {st : W16}
    (h : if slotPrivate x.slot ∧ x.slot ≠ 3 then m.clk = x.first + x.nominal
      else x.first ≤ m.clk ∧ m.clk ≤ x.first +
        (if (st = stPkInputRange ∨ st = stPkPointInvalid) ∧ x.slot ≠ 3 then min x.nominal 5000 else x.nominal)) :
    signals m x st = true := by
  unfold signals
  dsimp only
  split at h
  · next hp => simp [hp, h]
  · next hp =>
    rw [if_neg (by simpa using hp)]
    simpa using h

theorem opOperationComplete_signals {m : Mod} {e : Nat} {fault : Bool} {c : Cmd} (hl : (engOf m e).state = .loading)
    (hc : cmdOf m (engOf m e).tag = some c) (hs : signals m (engOf m e) (engOutcome m (engOf m e) c fault).1 = true) :
    opOperationComplete e fault m =
      let x := engOf m e
      let r := engOutcome m x c fault
      let m1 := zeroEng (pkCount m e r.1 (r.1 == stInternalFault)) e
      let m2 := updEng m1 e (fun y => { y with recent := (x.tag, c.stamp) :: y.recent })
      makeReady (updCmd m2 x.tag (fun c => { c with outcome := some (r.1, r.2.1), mem := c.mem ++ r.2.2, stage := c.stage + 1 }))
        x.tag 7 := by
  simp only [opOperationComplete, hl, hc, hs, if_true]

/-- A test of an engine in service (10 R284): counted, the engine due for nothing where it passed, and withdrawn where not. -/
theorem opEngineTest_runs {m : Mod} {e : Nat} {pass : Bool} (he : e < 64) (ha : engAvail m e = true)
    (hs : inService m = true) (ht : testable m e = true) :
    opEngineTest e pass m =
      let m1 := updBlk (testEngine m e) .pke (testHdr (unitsOf m .pke) e pass)
      let m2 := { m1 with hlt := { m1.hlt with runs := m1.hlt.runs + 1 } }
      noteOverdue (if pass then
        engineTested { m2 with hlt := { m2.hlt with passed := tblSet m2.hlt.passed (katKey .pke e) m2.clk } } e
      else katFail m2 .pke e) := by
  have hlive : katLive m .pke e = true := ha
  have hlisted : katListed .pke = true := rfl
  simp only [opEngineTest, opKatRun, hs, if_true, runKat, katPlace, if_pos he, hlive, hlisted, ht, clearUsed, Bool.not_true,
    Bool.false_and, Bool.false_eq_true, Bool.true_eq_false, and_false, or_self, if_false]

theorem testable_of {m : Mod} {e : Nat}
    (h : (engOf m e).state = .idle ∨ (engOf m e).state = .loading ∧ (engOf m e).slot = 3 ∧ (engOf m e).first ≤ m.clk ∧
      engPassed m e + 50000000 ≤ m.clk) : testable m e = true := by
  rcases h with h | ⟨hl, hs, hf, hp⟩
  · simp [testable, h]
  · simp [testable, hl, hs, hf, hp]

theorem engOf_updEng (m : Mod) (e : Nat) (f : Eng → Eng) : engOf (updEng m e f) e = f (engOf m e) := tblGet_tblUpd_same ..

/-- Settles O12: each event under its hypotheses, then what an operation comes to. -/
theorem publicKeyEventsComplete : Obligations.PublicKeyEventsComplete := by
  refine ⟨fun t s => ⟨?_, ?_, ?_, ?_, ?_, ?_⟩, ?_⟩
  · intro e load w rest c hq hfree hlow hc loaded m1
    exact acts_eq (opEngineGrant_takes hq hfree hlow hc)
  · intro tag l p c hc hph hop hnot hr ho ht
    refine acts_eq ?_
    simp only [opDispatchDeadline, hc, undispatched_of hph hop hnot hr ho ht, if_true]
  · intro tag c hc hph ht he
    refine acts_eq ?_
    simp only [opLatestStart, hc, startedLate_of hph ht he, if_true]
  · intro e fault c hl hc x r ht m1 m2
    exact acts_eq (opOperationComplete_signals hl hc (signals_of ht))
  · intro e hst ht
    exact acts_eq (if_pos ⟨hst, ht⟩)
  · intro e he ha hs hst tried ok
    exact ⟨acts_eq (opEngineTest_runs he ha hs (testable_of hst)), acts_eq (opEngineTest_runs he ha hs (testable_of hst))⟩
  · intro m x c e
    refine ⟨?_, ?_, ?_, ?_, ?_⟩
    · intro h; simp [engOutcome, h]
    · intro h3 ht; simp [engOutcome, h3, ht]
    · intro h3; simp [engOutcome, h3]
    · rw [engineTested, engOf_updEng]
    · rw [engineTested, engOf_updEng]

end Sys2Proof.Machine

/-! SUPPORT. The route commands and the two events of the route table. -/

namespace Sys2Proof.Machine

theorem recHandles_of {m : Mod} {t : Nat} {h k : W64} (hh : recHandleOk m t h = none) (hk : recHandleOk m t k = none) :
    (recHandleOk m t h).or (recHandleOk m t k) = none := by rw [hh, hk]; rfl

/-- Entries that all parse are those parsed. -/
theorem parsed_entries {α : Type} {l : List (Option α)} {entries : List α} (h : l = entries.map some) :
    l.all (fun e => e.isSome) = true ∧ l.filterMap id = entries ∧ l.length = entries.length := by
  subst h
  simp

@[simp] theorem raiseInt_rtb (m : Mod) (b : Blk) (bits : W32) : (raiseInt m b bits).rtb = m.rtb := by
  rw [raiseInt_eq]

/-- Settles O13: each program passes its checks; what the pool holds after a compaction follows from its flag. -/
theorem routesComplete : Obligations.RoutesComplete := by
  constructor
  · intro t tag s m c r ra
    refine ⟨?_, ?_, ?_, ?_, ?_, ?_, ?_⟩
    · intro hs hlen hr hrec x hflags hrest hopen hpin hmac s0 touched s1 r1
      have hx : (getLe16 x 20 / 2 == 0 && allZero (x.drop 22)) = true := by rw [hflags, hrest]; rfl
      have hrun : progRecordSet m tag c = (if tblFind s0.set.recs (f16 c 0) = some x then .ok (.journal m [] stOk [] false)
          else (do routeRoom m (projDur m) c.tenant r1; pure (.journal m [.routes c.tenant r1 false] stOk [] false))) := by
        refine passes (bodyLen_of hlen) <| passes (reserved_of hr) <| passes (ensure_of _ (decide_eq_true hrec)) <|
          passes (ensure_of _ hx) <| passes hopen ?_
        rw [show (recHandleOk m c.tenant (recPinKey (fBytes c 8 32))).or (recHandleOk m c.tenant (recMacKey (fBytes c 8 32)))
          = none from recHandles_of hpin hmac]
        rfl
      split
      · next h => exact opcode_journals rfl hs (Or.inl (hrun.trans (if_pos h)))
      · next h =>
        intro hroom
        exact opcode_journals rfl hs (Or.inl (hrun.trans ((if_neg h).trans (passes hroom rfl))))
    · intro entries hs h1 h2 hlen hr hparse hopen s0 y count hcap res r1
      have hmin : 8 ≤ c.body.length := hlen ▸ Nat.le_add_right _ _
      obtain ⟨hall, hids, hnum⟩ := parsed_entries hparse
      have hrun : progRouteUpdate m tag c = (if y.2 = 0 then .ok (.journal m [] stOk res false)
          else (do routeRoom m (projDur m) c.tenant r1; pure (.journal m [.routes c.tenant r1 false] stOk res false))) := by
        refine passes (bodyMin_of hmin) <| passes (bodyLen_of hlen) <| passes (ensure_of _ (decide_eq_true ⟨h1, h2⟩)) <|
          passes (reserved_of hr) <| passes (ensure_of _ hall) <| passes hopen ?_
        rw [hids, hnum]
        exact passes (ensure_of _ (decide_eq_true hcap)) rfl
      split
      · next h => exact opcode_journals rfl hs (Or.inl (hrun.trans (if_pos h)))
      · next h =>
        intro hroom
        exact opcode_journals rfl hs (Or.inl (hrun.trans ((if_neg h).trans (passes hroom rfl))))
    · intro hs hb hopen drop
      split
      · next h => exact opcode_journals rfl hs (Or.inl (passes (bodyLen_nil hb) <| passes hopen <| if_pos h))
      · next h => exact opcode_journals rfl hs (Or.inl (passes (bodyLen_nil hb) <| passes hopen <| if_neg h))
    · intro hs hb hopen
      exact opcode_journals rfl hs (Or.inl (passes (bodyLen_nil hb) <| passes hopen rfl))
    · intro pan hs hlen hpan h1 hr hn
      have hrun : progRtLookup m tag c = (match lookupIn (if f8 c 1 = 0 then ra.active else viewOf ra) pan with
          | none => .error (.finish (countLookup m false) stNoRoute [])
          | some (x, b) =>
            .ok (okWith (countLookup m true) ([byteOf x.digits.length, 0] ++ natLe 2 x.recno ++ le32 ra.epoch ++ b))) :=
        passes (bodyLen_of hlen) <| passes hpan <| passes (ensure_of _ (decide_eq_true h1)) <| passes (reserved_of hr) <|
          passes hn rfl
      cases hl : lookupIn (if f8 c 1 = 0 then ra.active else viewOf ra) pan with
      | none => exact opcode_ends rfl hs (Or.inr (by rw [hrun, hl]))
      | some xb => exact opcode_ends rfl hs (Or.inl (by rw [hrun, hl]; rfl))
    · intro hs hb hn
      exact opcode_ends rfl hs (Or.inl (passes (bodyLen_nil hb) <| passes hn rfl))
    · intro hs hb hopen
      exact opcode_holds rfl hs (Or.inl (passes (bodyLen_nil hb) <| passes hopen rfl))
  · intro t s m
    constructor
    · intro tag hc m1 m2
      have hfree : poolLargest m2 m2.dur = poolFree m2 m2.dur := by
        have hrun : m2.rtb.compacted = true := by simp [m2, m1, compacted]
        simp only [poolLargest, hrun, true_or, if_true]
      refine ⟨hfree, acts_eq ?_⟩
      have hrun : opCompactionDone m =
          endCmd m2 tag stOk (natLe 4 (poolFree m2 m2.dur) ++ natLe 4 (poolLargest m2 m2.dur)) := by
        simp only [opCompactionDone, hc, m1, m2]
      rw [hfree] at hrun
      exact hrun
    · intro ten
      exact acts_eq rfl

end Sys2Proof.Machine

/-! SUPPORT. Dual control: challenges and their approvals, custodians and policies, ceremonies and maintenance windows. -/

namespace Sys2Proof.Machine

/-! ### Challenges -/

theorem namedChal_of {m : Mod} {c : Cmd} {d : Durable} {ch : Challenge} (hs : serving m = true ∨ ch.localOnly = true)
    (hf : tblFind (domainIn d (pathDom c)).chal (f64 c 0).toNat = some ch) :
    namedChal m c d = .ok ((f64 c 0).toNat, ch) := by
  have hok : (serving m || ch.localOnly) = true := by simpa using hs
  simp [namedChal, hf, hok]

theorem opApprovalVerifyDone_agrees {m : Mod} {id : Nat} {v : Verifying} (h : tblFind m.dcu.verify id = some v) :
    opApprovalVerifyDone id true m =
      approvalAnswer { m with dcu := { m.dcu with verify := tblErase m.dcu.verify id } } v := by
  simp [opApprovalVerifyDone, h]

/-- An approval's outcome for the command that brought it. -/
theorem approvalAnswer_command {m : Mod} {v : Verifying} {tag : Nat} {c : Cmd} (ht : v.tag = some tag) (hp : v.port = none)
    (hc : cmdOf m tag = some c) :
    approvalAnswer m v = match approvalOutcome m v with
      | .error st => endCmd (if st = stVerifyFail then countSigFail m else m) tag st []
      | .ok (effs, res, own) => issueFor (releaseKeys m tag) tag effs stOk res own (takesEntry c) := by
  cases ho : approvalOutcome m v with
  | error st => simp [approvalAnswer, ho, ht, hp]
  | ok x => simp [approvalAnswer, ho, ht, hc]

/-- An approval's outcome for the port that brought it. -/
theorem approvalAnswer_port {m : Mod} {v : Verifying} {p : Nat} (ht : v.tag = none) (hp : v.port = some p) :
    approvalAnswer m v = match approvalOutcome m v with
      | .error st => sendResult (if st = stVerifyFail then countSigFail m else m) p st v.chal
      | .ok (effs, _, own) => issueRecord m none (effs ++ [.portResult p v.chal]) none own := by
  cases ho : approvalOutcome m v with
  | error st => simp [approvalAnswer, ho, ht, hp]
  | ok x => simp [approvalAnswer, ho, ht, hp]

/-- Settles O14: the programs pass their checks; an approval's end goes by where its record came from. -/
theorem challengesComplete : Obligations.ChallengesComplete := by
  constructor
  · intro t tag s m c dom d
    refine ⟨?_, ?_, ?_, ?_⟩
    · intro hs hlen hdef hdev hr h1 h2 hn hserve htrust hopen hall hrng ends ch id
      have hcls : (classDefined (f8 c 0) && classDevice (f8 c 0) == c.admin) = true := by simp [hdef, hdev]
      have hsv : (serving m || f8 c 0 == clsTwinPair) = true := by simpa using hserve
      exact opcode_journals rfl hs (Or.inl (passes (bodyLen_of hlen) <| passes (ensure_of _ hcls) <| passes (reserved_of hr) <|
        passes (ensure_of _ (decide_eq_true ⟨h1, h2⟩)) <| passes hn <| passes (ensure_of _ hsv) <|
        passes (ensure_of _ htrust) <| passes (ensure_of _ (decide_eq_true ⟨hopen, hall⟩)) <| passes (needRng_of hrng) rfl))
    · intro ch hs hst hlen hn hck
      have hrun : progQuorumApprove m tag c = .ok (.hold
          (updCmd (startVerify m c.body dom c.stamp (some tag) none) tag (fun c => { c with phase := .verify, stage := 1 }))) := by
        refine passes (bodyLen_of hlen) <| passes hn <| (if_neg (not_not_intro hst)).trans ?_
        rw [show approvalCheck m c.body c.stamp (pathDom c) false = .ok ch from hck]
        rfl
      exact opcode_holds rfl hs (Or.inl hrun)
    · intro ch hs hlen hn x hserve hf bits
      exact opcode_ends rfl hs (Or.inl (passes (bodyLen_of hlen) <| passes hn <| passes (namedChal_of hserve hf) rfl))
    · intro ch hs hlen hn hserve hf hst
      exact opcode_journals rfl hs (Or.inl (passes (bodyLen_of hlen) <| passes hn <| passes (namedChal_of hserve hf) <|
        passes (ensure_of _ (beq_iff_eq.mpr hst)) rfl))
  · intro t s m
    refine ⟨?_, ?_, ?_, ?_, ?_⟩
    · intro id tag v c hf ht hp m1 hc
      have hrun : opApprovalVerifyDone id true m = _ := (opApprovalVerifyDone_agrees hf).trans (approvalAnswer_command ht hp hc)
      cases ho : approvalOutcome m1 v with
      | error st => exact acts_eq (hrun.trans (by rw [show approvalOutcome _ v = .error st from ho]))
      | ok x => exact acts_eq (hrun.trans (by rw [show approvalOutcome _ v = .ok x from ho]))
    · intro id p v hf ht hp m1
      have hrun : opApprovalVerifyDone id true m = _ := (opApprovalVerifyDone_agrees hf).trans (approvalAnswer_port ht hp)
      cases ho : approvalOutcome m1 v with
      | error st => exact acts_eq (hrun.trans (by rw [show approvalOutcome _ v = .error st from ho]))
      | ok x => exact acts_eq (hrun.trans (by rw [show approvalOutcome _ v = .ok x from ho]))
    · intro dom id ch hf hst hend
      refine acts_eq ?_
      have hend' : ch.state = 0 ∧ ch.ends.toNat ≤ (nowT m).toNat := ⟨hst, hend⟩
      simp only [opChallengeWindowEnd, show tblFind (domainIn (s.now t).dur dom).chal id = some ch from hf]
      exact if_pos hend'
    · intro id x hf hend
      refine acts_eq ?_
      simp only [opCeremonyWindowEnd, show tblFind (s.now t).dcu.cer id = some x from hf]
      exact if_pos hend
    · intro w hw hend
      refine acts_eq ?_
      simp only [opMaintWindowEnd, show (s.now t).dcu.maint = some w from hw]
      exact if_pos hend

/-! ### Custodians and policies -/

/-- The approvals that an enrolment needs are there: its challenge is consumed (R299). -/
theorem enrolQuorum_of {m : Mod} {d : Durable} {tag : Nat} {c : Cmd} {dom id : Nat} {ch : Challenge}
    (hw : inWindow ch.opened ch.ends c.stamp = true) (hv : verifyingFor m dom id c.stamp = false)
    (hq : min (policyM d dom (custClass c)) (domainIn d dom).cust.length ≤ counted (domainIn d dom) ch c.stamp) :
    enrolQuorum m d tag c dom id ch = .ok (consumeIn d dom id) := by
  simp [enrolQuorum, hw, hv, hq]

/-- The stamp of a proof of possession: of the frame that brought it for the first device custodian, else the command's. -/
theorem proofStamp_of {m : Mod} {c : Cmd} {dom : Nat} {x : Domain} {proof : Bytes} {sp : W64} {β : Type}
    {f : W64 → Except Act β} {r : Except Act β}
    (h : if dom = deviceDomain ∧ x.cust = [] then (m.dcu.proofs.find? (fun p => p.1 == proof)).map Prod.snd = some sp
      else sp = c.stamp) (hr : f sp = r) :
    (if dom = deviceDomain ∧ x.cust = [] then
      orStop ((m.dcu.proofs.find? (fun p => p.1 == proof)).map Prod.snd) stNotAuthorised >>= f
    else pure c.stamp >>= f) = r := by
  split at h
  · next hc => rw [if_pos hc, h]; exact hr
  · next hc => rw [if_neg hc, ← h]; exact hr

/-- An enrolment once its proof's record has passed the checks before the signature: the digest its challenge names, the
signature, the approvals, and its record (R299). -/
def enrolChecked (m : Mod) (tag : Nat) (c : Cmd) (key : Bytes) (ch : Challenge) : Except Act Act := do
  let proof := c.body.drop 0x70
  let digest := opDigest c.opcode (if c.admin then 0 else c.tenant) (c.body.take 0x70 ++ zeroBytes 192)
  ensure (getNat8 proof 1 == 1 && apCust proof == f8 c 0 && ch.cls == custClass c && ch.opDigest == digest) stNotAuthorised
  if !approvalSigned key proof then .error (.finish (countSigFail m) stVerifyFail []) else pure ()
  let e ← enrolQuorum m (projDur m) tag c (pathDom c) (apChal proof) ch
  let x := domainIn (effDur (projDur m) e) (pathDom c)
  pure (.journal { m with dcu := { m.dcu with proofs := [] } }
    [e, .consumed (pathDom c) (apChal proof),
      .domain (pathDom c) { x with cust := tblSet x.cust (f8 c 0) { key := key, stamp := c.stamp } }] stOk [] false)

/-- A check that fails ends the program. -/
theorem stopsAt {ε α β : Type} {x : Except ε α} {e : ε} {f : α → Except ε β} (h : x = .error e) : (x >>= f) = .error e := by
  rw [h]
  rfl

/-- Settles O15: an enrolment turns on the digest its challenge names and on the proof's signature, in that order. -/
theorem custodianCommandsComplete : Obligations.CustodianCommandsComplete := by
  intro t tag s m c dom d
  refine ⟨?_, ?_, ?_, ?_⟩
  · intro key sp ch hs hlen hslot hr1 hr2 hn x proof hfree hkey hnew hsp hck hkind hcust hcls hwin hver hq e x1
    have hdup : (!x.cust.any (fun p => p.2.key == key)) = true := by simpa using hnew
    have hrun : progCustEnrol m tag c = enrolChecked m tag c key ch := by
      refine passes (bodyLen_of hlen) <| passes (ensure_of _ (decide_eq_true hslot)) <| passes (reserved_of hr1) <|
        passes (reserved_of hr2) <| passes hn <| passes (ensure_of _ (by simpa using hfree)) <|
        passes (congrArg (orStop · _) hkey) <| passes (ensure_of _ hdup) <| proofStamp_of hsp ?_
      dsimp only
      rw [show approvalCheck m (c.body.drop 0x70) sp (pathDom c) true = .ok ch from hck]
      rfl
    refine iteInduction (motive := id) (fun hdig => ?_) (fun hdig => ?_)
    · have hok : (getNat8 proof 1 == 1 && apCust proof == f8 c 0 && ch.cls == custClass c && ch.opDigest ==
          opDigest c.opcode (if c.admin then 0 else c.tenant) (c.body.take 0x70 ++ zeroBytes 192)) = true := by
        simp only [hkind, hcust, hcls, hdig, beq_self_eq_true, Bool.and_self]
      refine iteInduction (motive := id) (fun hsig => ?_) (fun hsig => ?_)
      · exact opcode_journals rfl hs (Or.inl (hrun.trans <| passes (ensure_of _ hok) <|
          (if_neg (by simpa using hsig)).trans <| passes (enrolQuorum_of hwin hver hq) rfl))
      · exact opcode_ends rfl hs (Or.inr (hrun.trans <| passes (ensure_of _ hok) <| if_pos (by simpa using hsig)))
    · have hno : (getNat8 proof 1 == 1 && apCust proof == f8 c 0 && ch.cls == custClass c && ch.opDigest ==
          opDigest c.opcode (if c.admin then 0 else c.tenant) (c.body.take 0x70 ++ zeroBytes 192)) = false := by
        rw [beq_eq_false_iff_ne.mpr hdig, Bool.and_false]
      exact opcode_stops rfl hs (Or.inr (hrun.trans (stopsAt (ensure_not _ hno))))
  · intro q hs hlen hr hn hf hq d1 x hm
    have hall : (domClasses dom).all (fun k => decide (policyM d1 dom k < x.cust.length)) = true := by
      simpa only [List.all_eq_true, decide_eq_true_iff] using hm
    exact opcode_journals rfl hs (Or.inl (passes (bodyLen_of hlen) <| passes (reserved_of hr) <| passes hn <|
      passes (ensure_of _ hf) <| passes hq <| passes (ensure_of _ hall) rfl))
  · intro q hs hlen ks vs hmax hrest hn hq x hm
    have hvs : (vs.all (fun v => decide (v ≤ 16)) && (vs.drop ks.length).all (· == 0)) = true := by
      rw [Bool.and_eq_true_iff]
      simpa only [List.all_eq_true, decide_eq_true_iff, beq_iff_eq] using And.intro hmax hrest
    have hall : (vs.take ks.length).all (fun v => decide (v ≤ x.cust.length ∧ (dom = deviceDomain → 2 ≤ v))) = true := by
      simpa only [List.all_eq_true, decide_eq_true_iff] using hm
    exact opcode_journals rfl hs (Or.inl (passes (bodyLen_of hlen) <| passes (ensure_of _ hvs) <| passes hn <| passes hq <|
      passes (ensure_of _ hall) rfl))
  · intro hs hb hn x one
    exact opcode_ends rfl hs (Or.inl (passes (bodyLen_nil hb) <| passes hn rfl))

/-! ### Ceremonies and maintenance windows -/

/-- Settles O16: the programs pass their checks; a component goes by what `takeComponent` says of it. -/
theorem ceremonyCommandsComplete : Obligations.CeremonyCommandsComplete := by
  intro t tag s m c
  refine ⟨?_, ?_, ?_, ?_, ?_⟩
  · intro q hs hlen hkind h2 h16 hr1 hw hw' hr2 hn htarget trk a hq hroom ends id n x m1
    have hk : (f8 c 0 == 1 || f8 c 0 == 2) = true := by simpa using hkind
    refine opcode_record_or_ends rfl hs rfl (passes (bodyLen_of hlen) <| passes (ensure_of _ hk) <|
      passes (ensure_of _ (decide_eq_true ⟨h2, h16⟩)) <| passes (reserved_of hr1) <|
      passes (ensure_of _ (decide_eq_true ⟨hw, hw'⟩)) <| passes (reserved_of hr2) <| passes hn <| passes htarget <|
      passes hq <| passes (ensure_of _ (decide_eq_true hroom)) ?_)
    cases h : f8 c 0 == 2 <;> simp only [m1, x, n, trk, id, ends, a, cerLen, h, if_true, if_false, Bool.false_eq_true] <;> rfl
  · intro hs hmin hlen hr hn
    have hrun : progCeremonyComponent m tag c = match takeComponent m (c.body.drop 16) c.stamp (some (f64 c 0).toNat) c.tenant with
        | .error (m1, st, _) => .ok (.finish m1 st [])
        | .ok t =>
          let head := [byteOf t.got, byteOf t.parts] ++ zeroBytes 6
          match t.made with
          | none => .ok (.finish t.mod stOk head)
          | some (e, h, kcv) => .ok (.journal t.mod e stOk (head ++ le64 h ++ kcv) false) :=
      passes (bodyMin_of hmin) <| passes (bodyLen_of hlen) <| passes (reserved_of hr) <| passes hn rfl
    cases ht : takeComponent m (c.body.drop 16) c.stamp (some (f64 c 0).toNat) c.tenant with
    | error x => exact opcode_ends rfl hs (Or.inl (by rw [hrun, ht]))
    | ok y =>
      dsimp only
      cases hy : y.made with
      | none => exact opcode_ends rfl hs (Or.inl (by rw [hrun, ht]; simp only [hy]))
      | some x => exact opcode_journals rfl hs (Or.inl (by rw [hrun, ht]; simp only [hy]))
  · intro x hs hlen hn hf hten
    exact opcode_ends rfl hs (Or.inl (passes (bodyLen_of hlen) <| passes hn <| passes (congrArg (orStop · _) hf) <|
      passes (ensure_of _ (beq_iff_eq.mpr hten)) rfl))
  · intro q hs hlen hlo hhi hr hn hmaint hq e
    exact opcode_journals rfl hs (Or.inl (passes (bodyLen_of hlen) <| passes (ensure_of _ (decide_eq_true ⟨hlo, hhi⟩)) <|
      passes (reserved_of hr) <| passes hn <| passes (ensure_of _ (by rw [hmaint]; rfl)) <| passes hq rfl))
  · intro hs hb hn
    exact opcode_journals rfl hs (Or.inl (passes (bodyLen_nil hb) <| passes hn rfl))

end Sys2Proof.Machine

/-! SUPPORT. The frames of the custodian ports: what every accepted frame does first, then what each kind does. -/

namespace Sys2Proof.Machine

/-- A good frame of an enabled port is acknowledged and acted on for the port's domain (11 R316). -/
theorem frameIn_acts {m : Mod} {f : CustFrame} {dom : Nat} {act : Nat → Mod → Mod} (hd : portDom m f.port = some dom)
    (hc : f.crcOk = true) (hl : f.payload.length ≤ 1024) (ha : admits m = true) (hr : m.devReady = true) :
    frameIn f act m = act dom (sendCust m f.port 1 [byteOf f.seq]) := by
  have hno : ¬ 1024 < f.payload.length := Nat.not_lt.mpr hl
  simp [frameIn, hd, hc, ha, hr, hno]

/-- Settles O17: an accepted frame runs its kind's operation; the other events of a port are their own. -/
theorem custodianFramesComplete : Obligations.CustodianFramesComplete := by
  intro t s m
  refine ⟨?_, ?_, ?_, ?_⟩
  · intro f dom hd hc hl ha hr m1 hstop
    refine ⟨?_, ?_, ?_, ?_⟩
    · intro ch hnot hck
      refine acts_eq ((frameIn_acts hd hc hl ha hr).trans ?_)
      dsimp only
      rw [show portStop (sendCust (s.now t) f.port 1 [byteOf f.seq]) dom = none from hstop]
      refine (if_neg hnot).trans ?_
      rw [show approvalCheck (sendCust (s.now t) f.port 1 [byteOf f.seq]) f.payload _ dom false = .ok ch from hck]
    · intro hserve
      have hrun : opCustComponent f m = (match takeComponent m1 f.payload (nowT m1) none dom with
          | .error (m2, st, id) => sendResult m2 f.port st id
          | .ok y => match y.made with
            | none => sendResult y.mod f.port stOk y.cer
            | some (e, _, _) => issueRecord y.mod none (e ++ [.portResult f.port y.cer]) none false) := by
        refine (frameIn_acts hd hc hl ha hr).trans ?_
        rw [show portStop (sendCust (s.now t) f.port 1 [byteOf f.seq]) dom = none from hstop]
        exact if_neg (by simpa using hserve)
      cases ht : takeComponent m1 f.payload (nowT m1) none dom with
      | error x => exact acts_eq (by rw [hrun, ht])
      | ok y =>
        dsimp only
        cases hy : y.made with
        | none => exact acts_eq (by rw [hrun, ht]; simp only [hy])
        | some x => exact acts_eq (by rw [hrun, ht]; simp only [hy])
    · intro sid _ hlen hshape hslot now m2 k hstop2 hserve hsid expiry
      have hform : ¬ (f.payload.length ≠ 240 ∨ !helloShape f.payload ∨ 15 < getNat8 f.payload 0) := by
        simp [hlen, hshape, hslot]
      have hrun : opCustHandshake f m = (match helloAnswer m2 (natLe 2 (domWord dom)) (k.map (fun k => k.key)) f.payload sid expiry with
          | (m3, .error st) => sendResult m3 f.port st 0
          | (m3, .ok (res, keys)) =>
            let x : CustSession :=
              { dom := dom, slot := getNat8 f.payload 0, enrolled := k.elim 0 (fun k => k.stamp), key := keys.kc,
                expiry := expiry, h := 0, bitmap := 0 }
            sendCust (updCust { m3 with dcu := { m3.dcu with sess := tblSet m3.dcu.sess sid x } } f.port
              (fun x => { x with session := some sid })) f.port 2 res) := by
        refine (frameIn_acts hd hc hl ha hr).trans ?_
        dsimp only
        rw [show portStop _ dom = none from hstop2]
        refine (if_neg (by simpa using hserve)).trans ((if_neg hform).trans ?_)
        rw [show freeCustSess _ = some sid from hsid] <;> rfl
      rcases hans : helloAnswer m2 (natLe 2 (domWord dom)) (k.map (fun k => k.key)) f.payload sid expiry with ⟨m3, r⟩
      rw [hans]
      cases r with
      | error st => exact acts_eq (by rw [hrun, hans])
      | ok x => exact acts_eq (by rw [hrun, hans])
    · refine acts_eq ((frameIn_acts hd hc hl ha hr).trans ?_)
      dsimp only
      rw [show portStop (sendCust (s.now t) f.port 1 [byteOf f.seq]) dom = none from hstop]
  · intro f dom hd hc hl
    refine acts_eq (if_neg ?_)
    rw [show portDom (s.now t) f.port = some dom from hd]
    simp [hc, hl]
  · intro p q a type tries data hf rest
    refine acts_eq (show opCustRetransmit p q m = _ from ?_)
    unfold opCustRetransmit
    rw [hf]
  · intro p up hp hl
    exact acts_eq (if_neg (not_or.mpr ⟨hl, Nat.not_le.mpr hp⟩))

end Sys2Proof.Machine

/-! SUPPORT. Sessions, credentials, tenants and migration: the stages of each program, and the tenants' events. -/

namespace Sys2Proof.Machine

/-! ### Sessions -/

theorem helloRoom_of {m : Mod} {d : Durable} {t : Nat}
    (h : (sessOfTenant d t).length < (tenOf m t).sessCap ∧ d.sess.length < 65536) : helloRoom m d t = .ok () :=
  passes (ensure_of _ (decide_eq_true h.1)) (if_neg (Nat.not_le.mpr h.2))

theorem handSign_of {m : Mod} {tag key : Nat} {c : Cmd} {dig : Bytes} {kept : List Bytes} (h : m.khs.idKey = some key) :
    handSign m tag c dig kept = handInner m tag c 0x16 [(1, natBe 48 key), (2, dig)] kept := by
  simp only [handSign, h]

/-- An exchange whose operation on an engine failed ends with its status. -/
theorem progSessionHello_refused {m : Mod} {tag : Nat} {c : Cmd} {st : W16} {r : Bytes} (ho : c.outcome = some (st, r))
    (hst : st ≠ stOk) : progSessionHello m tag c = .error (.stop st) := by
  unfold progSessionHello
  rw [ho]
  rcases c.mem with _ | ⟨z, _ | ⟨p, _ | ⟨y, l⟩⟩⟩ <;> exact if_pos hst

theorem namedSess_of {d : Durable} {c : Cmd} {x : Session} (hlen : c.body.length = 8) (hr : allZero (fBytes c 2 6) = true)
    (hf : tblFind d.sess (sessKey c.tenant (f16 c 0)) = some x) :
    namedSess d c = .ok (sessKey c.tenant (f16 c 0), x) :=
  passes (bodyLen_of hlen) <| passes (reserved_of hr) <| passes (congrArg (orStop · _) hf) rfl

/-- Settles O18: the hello goes by its stage, each of which hands the next operation to an engine. -/
theorem sessionsAndCredentialsComplete : Obligations.SessionsAndCredentialsComplete := by
  constructor
  · intro t tag s m c d x room
    refine ⟨?_, ?_, ?_, ?_, ?_, ?_, ?_⟩
    · intro k hs ho hsealed hsess hseq hreq hlen hslot hshape hn hrng hroom hk
      have hopen : (!c.wasSealed && c.session == 0 && c.seq == 0 && c.reqId == 0) = true := by
        simp [hsealed, hsess, hseq, hreq]
      have hform : (decide (f8 c 0 ≤ 31) && helloShape c.body) = true := by simp [hslot, hshape]
      refine opcode_holds rfl hs (Or.inl ?_)
      unfold progSessionHello
      rw [ho]
      exact passes (ensure_of _ hopen) <| passes (bodyLen_of hlen) <| passes (ensure_of _ hform) <| passes hn <|
        passes (needRng_of hrng) <| passes (helloRoom_of hroom) <| passes (congrArg (orStop · _) hk) rfl
    · intro st r hs ho hst
      exact opcode_stops rfl hs (Or.inr (progSessionHello_refused ho hst))
    · intro r q hs ho hmem hq hrng
      refine opcode_holds rfl hs (Or.inl ?_)
      unfold progSessionHello
      rw [ho, hmem]
      exact (if_neg (not_not_intro rfl)).trans <| passes (congrArg (orStop · _) hq) <| passes (needRng_of hrng) rfl
    · intro r z p key hs ho hmem hrng hroom hkey sid head dig k
      refine opcode_holds rfl hs (Or.inl ?_)
      unfold progSessionHello
      rw [ho, hmem]
      refine (if_neg (not_not_intro rfl)).trans <| passes (needRng_of hrng) <| passes (helloRoom_of hroom) ?_
      exact congrArg Except.ok (handSign_of ((congrArg KhsState.idKey (afterDraw_khs m 32)).trans hkey))
    · intro r head kc km sig k hs ho hmem hroom hk sid y
      refine opcode_journals rfl hs (Or.inl ?_)
      unfold progSessionHello
      rw [ho, hmem]
      exact (if_neg (not_not_intro rfl)).trans <| passes (helloRoom_of hroom) <| passes (congrArg (orStop · _) hk) rfl
    · intro x hs hlen hr hf
      exact opcode_journals rfl hs (Or.inl (passes (namedSess_of hlen hr hf) rfl))
    · intro x hs hlen hr hf
      exact opcode_ends rfl hs (Or.inl (passes (namedSess_of hlen hr hf) rfl))
  · intro t tag s m c x
    refine ⟨?_, ?_, ?_, ?_⟩
    · intro key q hs hlen hslot hr1 hr2 hfree hkey hnew hq
      have hdup : (!x.creds.any (fun p => p.2 == key)) = true := by simpa using hnew
      exact opcode_journals rfl hs (Or.inl (passes (bodyLen_of hlen) <| passes (ensure_of _ (decide_eq_true hslot)) <|
        passes (reserved_of hr1) <| passes (reserved_of hr2) <| passes (ensure_of _ (by simpa using hfree)) <|
        passes (congrArg (orStop · _) hkey) <| passes (ensure_of _ hdup) <| passes hq rfl))
    · intro q hs hlen hslot hr hf hq gone
      exact opcode_journals rfl hs (Or.inl (passes (bodyLen_of hlen) <| passes (ensure_of _ (decide_eq_true hslot)) <|
        passes (reserved_of hr) <| passes (ensure_of _ hf) <| passes hq rfl))
    · intro q hs hlen hp hr hq
      exact opcode_journals rfl hs (Or.inl (passes (bodyLen_of hlen) <| passes (ensure_of _ (decide_eq_true hp)) <|
        passes (reserved_of hr) <| passes hq rfl))
    · intro hs hb y
      exact opcode_ends rfl hs (Or.inl (passes (bodyLen_nil hb) rfl))

/-! ### Tenants -/

theorem namedTen_of {c : Cmd} (h : f16 c 0 ≤ 0xFFF) : namedTen c = .ok (f16 c 0) := passes (ensure_of _ (decide_eq_true h)) rfl

/-- Settles O19: closing and freezing turn on what the tenant still has at work once its drain has begun. -/
theorem tenantCommandsComplete : Obligations.TenantCommandsComplete := by
  intro t tag s m c d n x
  refine ⟨?_, ?_, ?_, ?_, ?_⟩
  · intro key q id hs hlen hn h2 h3 hr1 hr2 hkey hid hq hrng k y
    exact opcode_journals rfl hs (Or.inl (passes (bodyLen_of hlen) <| passes (ensure_of _ (decide_eq_true hn)) <|
      passes (ensure_of _ (decide_eq_true ⟨h2, h3⟩)) <| passes (reserved_of hr1) <| passes (reserved_of hr2) <|
      passes (congrArg (orStop · _) hkey) <| passes hid <| passes hq <| passes hid <|
      passes_if (fun h => needRng_of (hrng h)) rfl))
  · intro q hs hlen hn hr hfirst hq m1 k
    have hrun : progTenantClose m tag c = if tagsOf m1 n = 0 then
        .ok (.journal m1 (q ++ [.tenant n { Tenant.none with epoch := k, offer := x.offer }, .epoch n k, .closeTenant n]) stOk [] false)
        else .ok (waitDrain m1 tag) := by
      refine passes (bodyLen_of hlen) <| passes (namedTen_of hn) <| passes (reserved_of hr) <|
        passes_if (fun h => ensure_of _ (by simpa using hfirst h)) ?_
      rw [hq]
      rfl
    split
    · next h => exact opcode_journals rfl hs (Or.inl (hrun.trans (if_pos h)))
    · next h => exact opcode_holds rfl hs (Or.inl (hrun.trans (if_neg h)))
  · intro q hs hlen hn h2 hr hst htrk hep hq d1
    have hact : (x.state == .active || x.state == .frozen) = true := by simpa using hst
    have hrun : ∀ {r : Except Act Act}, (if f8 c 2 = 0 then do
          needRng m
          pure (.journal (afterFreshDraw m 32) (q ++ rerootEffs d1 n (drawn m 32)) stOk
            ([byteOf (epochBits d1 n + 1), 0] ++ zeroBytes 6) false)
        else pure (.journal m (q ++ [.tenant n { tenantIn d1 n with rerootArmed := some c.stamp }]) stOk
          ([byteOf x.epoch, 1] ++ zeroBytes 6) false)) = r → progTenantReroot m tag c = r := fun h =>
      passes (bodyLen_of hlen) <| passes (namedTen_of hn) <| passes (ensure_of _ (decide_eq_true h2)) <|
        passes (reserved_of hr) <| passes (ensure_of _ hact) <| passes (ensure_of _ htrk) <|
        passes (ensure_of _ (decide_eq_true hep)) <| passes hq h
    constructor
    · intro h0 hrng
      exact opcode_journals rfl hs (Or.inl (hrun ((if_pos h0).trans (passes (needRng_of hrng) rfl))))
    · intro h1
      exact opcode_journals rfl hs (Or.inl (hrun (if_neg (by rw [h1]; decide))))
  · intro hs hlen hn hr hfirst m1
    have hrun : progTenantFreeze m tag c = if tagsOf m1 n = 0 then
        .ok (.journal m1 [.tenant n { x with state := .frozen }] stOk [] false) else .ok (waitDrain m1 tag) :=
      passes (bodyLen_of hlen) <| passes (namedTen_of hn) <| passes (reserved_of hr) <|
        passes_if (fun h => ensure_of _ (by simpa using hfirst h)) rfl
    split
    · next h => exact opcode_journals rfl hs (Or.inl (hrun.trans (if_pos h)))
    · next h => exact opcode_holds rfl hs (Or.inl (hrun.trans (if_neg h)))
  · intro hs hlen hn hr hst hout
    have hok : ((x.state == .frozen || x.state == .restoring) && !x.migratedOut) = true := by simpa [hout] using hst
    exact opcode_journals rfl hs (Or.inl (passes (bodyLen_of hlen) <| passes (namedTen_of hn) <| passes (reserved_of hr) <|
      passes (ensure_of _ hok) rfl))

/-! ### Migration -/

/-- A save for another unit hands its agreement, then its header's signature, to an engine, and then asks for its list. -/
theorem progMigrateSave_stages {m : Mod} {tag : Nat} {c : Cmd} {x : Nat × List Effect} (hx : saveChecks m tag c = .ok x)
    (h2 : f8 c 2 ≠ 0) :
    (∀ q, c.outcome = none → needBlk m .pke = .ok () → p384Of (sliceOf (saveOffer c) 0x40 97) = some q →
      progMigrateSave m tag c = .ok (handInner m tag c 0x17 [(2, q)] [])) ∧
    (∀ st r, c.outcome = some (st, r) → st ≠ stOk → progMigrateSave m tag c = .error (.stop st)) ∧
    (∀ r z p, c.outcome = some (stOk, r) → c.mem = [z, p] →
      progMigrateSave m tag c = .ok (handSign (afterDraw m 32) tag c (sha384 (awayHead m c x.1 p (drawn m 32)))
        [z, drawn m 32, awayHead m c x.1 p (drawn m 32)])) ∧
    (∀ r, c.outcome = some (stOk, r) → c.mem.length = 4 → progMigrateSave m tag c = .ok (waitLists m tag c 0 (f64 c 8))) := by
  unfold progMigrateSave
  refine ⟨?_, ?_, ?_, ?_⟩
  · intro q ho hn hq
    rw [ho]
    exact passes hx <| (if_neg h2).trans <| passes hn <| passes (congrArg (orStop · _) hq) rfl
  · intro st r ho hst
    rw [ho]
    rcases c.mem with _ | ⟨z, _ | ⟨p, _ | ⟨y, l⟩⟩⟩ <;> exact passes hx ((if_neg h2).trans (if_pos hst))
  · intro r z p ho hmem
    rw [ho, hmem]
    exact passes hx <| (if_neg h2).trans <| (if_neg (not_not_intro rfl)).trans rfl
  · intro r ho hmem
    rw [ho]
    rcases hc : c.mem with _ | ⟨z, _ | ⟨p, _ | ⟨y, l⟩⟩⟩ 
    all_goals rw [hc] at hmem
    · cases hmem
    · cases hmem
    · cases hmem
    · exact passes hx ((if_neg h2).trans (if_neg (not_not_intro rfl)))

theorem progMigratePrepare_stages {m : Mod} {tag : Nat} {c : Cmd} {q : List Effect} (hlen : c.body.length = 16)
    (hn : f16 c 0 ≤ 0xFFF) (hr : allZero (fBytes c 2 6) = true) (hst : (tenantIn (projDur m) (f16 c 0)).state = .closed)
    (hep : epochBits (projDur m) (f16 c 0) < 128) (hq : quorum m tag c clsTenantAdmin = .ok q) :
    (∀ head eph, c.outcome = none → needBlk m .pke = .ok () → m.rng.halted = false →
      offerHead c (f16 c 0) (drawn m 96) = some (head, eph) →
      progMigratePrepare m tag c = .ok (handSign (afterDraw m 96) tag c (sha384 head) [head, eph])) ∧
    (∀ st r, c.outcome = some (st, r) → st ≠ stOk → progMigratePrepare m tag c = .error (.stop st)) ∧
    (∀ r head eph sig, c.outcome = some (stOk, r) → c.mem = [head, eph, sig] →
      let o : Offer :=
        { prepId := getLe64 head 0, expiry := getLe64 head 0x18, nonce := sliceOf head 0x20 32, ephPriv := beNat eph,
          sourceUid := f64 c 8, bytes := head ++ sig }
      progMigratePrepare m tag c = .ok (.journal m (q ++ [.tenant (f16 c 0)
        { tenantIn (q.foldl effDur (projDur m)) (f16 c 0) with offer := some o }]) stOk (head ++ sig) false)) := by
  unfold progMigratePrepare
  refine ⟨?_, ?_, ?_⟩
  · intro head eph ho hn' hrng hoff
    rw [ho]
    exact passes (bodyLen_of hlen) <| passes (namedTen_of hn) <| passes (reserved_of hr) <|
      passes (ensure_of _ (beq_iff_eq.mpr hst)) <| passes (ensure_of _ (decide_eq_true hep)) <| passes hq <| passes hn' <|
      passes (needRng_of hrng) <| passes (congrArg (orStop · _) hoff) rfl
  · intro st r ho hne
    rw [ho]
    exact passes (bodyLen_of hlen) <| passes (namedTen_of hn) <| passes (reserved_of hr) <|
      passes (ensure_of _ (beq_iff_eq.mpr hst)) <| passes (ensure_of _ (decide_eq_true hep)) <| passes hq <| if_pos hne
  · intro r head eph sig ho hmem o
    rw [ho, hmem]
    exact passes (bodyLen_of hlen) <| passes (namedTen_of hn) <| passes (reserved_of hr) <|
      passes (ensure_of _ (beq_iff_eq.mpr hst)) <| passes (ensure_of _ (decide_eq_true hep)) <| passes hq <|
      if_neg (not_not_intro rfl)

/-- A snapshot that has come, of the form of Table 12.5, goes by its kind. -/
theorem progMigrateRestore_opens {m : Mod} {tag x : Nat} {c : Cmd} (hx : restoreChecks c = .ok x) (hst : c.stage ≠ 0)
    (hmagic : (c.mem.getD 0 []).take 4 = ascii "NKSN") (hver : getNat8 (c.mem.getD 0 []) 4 = 1)
    (hlen : 328 ≤ (c.mem.getD 0 []).length) (htime : t64Ok (getLe64 (c.mem.getD 0 []) 0x20) = true)
    (hten : (getLe16 (c.mem.getD 0 []) 6).toNat = x)
    (hbody : (getLe64 (c.mem.getD 0 []) 0x30).toNat = (c.mem.getD 0 []).length - 328) :
    (∀ e, getNat8 (c.mem.getD 0 []) 5 = 0 → restoreOwn m x (c.mem.getD 0 []) = .ok e →
      progMigrateRestore m tag c = .ok (.journal m e stOk [] false)) ∧
    (getNat8 (c.mem.getD 0 []) 5 = 1 → progMigrateRestore m tag c = restoreOther m tag c x (c.mem.getD 0 [])) := by
  have hform : getNat8 (c.mem.getD 0 []) 5 ≤ 1 → ((c.mem.getD 0 []).take 4 == ascii "NKSN" && getNat8 (c.mem.getD 0 []) 4 == 1 &&
      decide (getNat8 (c.mem.getD 0 []) 5 ≤ 1) && decide (328 ≤ (c.mem.getD 0 []).length) &&
      t64Ok (getLe64 (c.mem.getD 0 []) 0x20)) = true := fun h => by simp only [hmagic, hver, h, hlen, htime]; decide
  have hplace : ((getLe16 (c.mem.getD 0 []) 6).toNat == x && (getLe64 (c.mem.getD 0 []) 0x30).toNat ==
      (c.mem.getD 0 []).length - 328) = true := by simp only [hten, hbody, beq_self_eq_true, Bool.and_self]
  constructor
  · intro e hk he
    exact passes hx <| (if_neg hst).trans <| passes (ensure_of _ (hform (Nat.le_trans (Nat.le_of_eq hk) (Nat.zero_le 1)))) <|
      passes (ensure_of _ hplace) <| (if_pos hk).trans <| passes he rfl
  · intro hk
    exact passes hx <| (if_neg hst).trans <| passes (ensure_of _ (hform (Nat.le_of_eq hk))) <|
      passes (ensure_of _ hplace) <| if_neg (by rw [hk]; decide)

/-- The key of a snapshot of another unit: Z and the offer's nonce with the snapshot's (12 R340). -/
def awayKey (o : Offer) (s z : Bytes) (t : Nat) : Bytes :=
  migKey (hmac .sha256 (o.nonce ++ sliceOf s 0xA8 32) z) t (getNat8 s 8) (sliceOf s 0x28 8)

section
variable {m : Mod} {tag t : Nat} {c : Cmd} {s pt : Bytes} {o : Offer} {q : List Effect}

/-- A snapshot of another unit whose source, offer, epoch and quorum hold is opened with the offer's ephemeral: an engine
agrees Z, and the snapshot opened under it is restored in one record. -/
theorem restoreOther_stages (hst : (tenantIn (projDur m) t).state = .closed)
    (hkey : (Config.certKey (sliceOf c.body 32 (f16 c 24))).length = 96)
    (huid : Config.certUid (sliceOf c.body 32 (f16 c 24)) = getLe64 s 0x10)
    (hsig : p384Verify (Config.certKey (sliceOf c.body 32 (f16 c 24))) (sha384 (s.take 0xC8)) (sliceOf s 0xC8 96) = true)
    (ho : (tenantIn (projDur m) t).offer = some o) (hprep : o.prepId = getLe64 s 0x28) (hsrc : o.sourceUid = getLe64 s 0x10)
    (hlive : c.stamp.toNat < o.expiry.toNat) (hlo : epochBits (projDur m) t < getNat8 s 8) (hhi : getNat8 s 8 ≤ 128)
    (hq : quorum m tag c clsTenantAdmin = .ok q) (hpt : p384Of (sliceOf s 0x40 97) = some pt) :
    (c.outcome = none → needBlk m .pke = .ok () → m.rng.halted = false →
      restoreOther m tag c t s = .ok (handInner m tag c 0x17 [(1, natBe 48 o.ephPriv), (2, pt)] [s])) ∧
    (∀ r body img, c.outcome = some (stOk, r) →
      gcmDec (awayKey o s (c.mem.getD 1 []) t) (sliceOf s 0x128 12) (s.take 312) (sliceOf s 312 (s.length - 328))
        (s.drop (s.length - 16)) = some body →
      Config.snapDecode body = some img → routeFits m (projDur m) t img.routes (allNodes img.routes) = .ok () →
      let y := { img.rec_.getD Tenant.none with
        state := .restoring, epoch := getNat8 s 8, offer := none, migratedOut := false, snapRef := none }
      restoreOther m tag c t s = .ok (.journal m (q ++ [.restored { img with tenant := t, rec_ := some y }, .epoch t (getNat8 s 8)])
        stOk [] false)) := by
  have hcert : ((Config.certKey (sliceOf c.body 32 (f16 c 24))).length == 96 &&
      Config.certUid (sliceOf c.body 32 (f16 c 24)) == getLe64 s 0x10 &&
      p384Verify (Config.certKey (sliceOf c.body 32 (f16 c 24))) (sha384 (s.take 0xC8)) (sliceOf s 0xC8 96)) = true := by
    simp only [hkey, huid, hsig, beq_self_eq_true, Bool.and_self]
  have hoffer : (o.prepId == getLe64 s 0x28 && o.sourceUid == getLe64 s 0x10 &&
      decide (c.stamp.toNat < o.expiry.toNat)) = true := by
    simp only [hprep, hsrc, hlive, beq_self_eq_true, decide_true, Bool.and_self]
  unfold restoreOther
  constructor
  · intro hout hn hrng
    rw [hout]
    exact passes (ensure_of _ (beq_iff_eq.mpr hst)) <| passes (ensure_of _ hcert) <| passes (congrArg (orStop · _) ho) <|
      passes (ensure_of _ hoffer) <| passes (ensure_of _ (decide_eq_true ⟨hlo, hhi⟩)) <| passes hq <|
      passes (congrArg (orStop · _) hpt) <| passes hn <| passes (needRng_of hrng) rfl
  · intro r body img hout hdec himg hfit y
    rw [hout]
    exact passes (ensure_of _ (beq_iff_eq.mpr hst)) <| passes (ensure_of _ hcert) <| passes (congrArg (orStop · _) ho) <|
      passes (ensure_of _ hoffer) <| passes (ensure_of _ (decide_eq_true ⟨hlo, hhi⟩)) <| passes hq <|
      passes (congrArg (orStop · _) hpt) <| (if_neg (not_not_intro rfl)).trans <| passes (congrArg (orStop · _) hdec) <|
      passes (congrArg (orStop · _) himg) <| passes hfit rfl

end

/-- Settles O20: each migration program goes by its stage, each tenant event by its instant. -/
theorem migrationAndTenantEventsComplete : Obligations.MigrationAndTenantEventsComplete := by
  constructor
  · intro t tag s m c d n lists
    refine ⟨?_, ?_, ?_⟩
    · intro q hs hlen hn hr hst hep hq
      obtain ⟨hsign, hfail, hdone⟩ := progMigratePrepare_stages hlen hn hr hst hep hq
      refine ⟨?_, ?_, ?_⟩
      · intro head eph key ho hn' hrng hoff hkey
        exact opcode_holds rfl hs (Or.inl ((hsign head eph ho hn' hrng hoff).trans
          (congrArg Except.ok (handSign_of ((congrArg KhsState.idKey (afterDraw_khs m 96)).trans hkey)))))
      · intro st r ho hne
        exact opcode_stops rfl hs (Or.inr (hfail st r ho hne))
      · intro r head eph sig ho hmem o
        exact opcode_journals rfl hs (Or.inl (hdone r head eph sig ho hmem))
    · intro x hs hx
      refine ⟨?_, ?_, ?_, ?_, ?_⟩
      · intro h0
        exact opcode_holds rfl hs (Or.inl (passes hx (if_pos h0)))
      · intro q h2 ho hn hq
        exact opcode_holds rfl hs (Or.inl ((progMigrateSave_stages hx h2).1 q ho hn hq))
      · intro st r h2 ho hne
        exact opcode_stops rfl hs (Or.inr ((progMigrateSave_stages hx h2).2.1 st r ho hne))
      · intro r z p key h2 ho hmem hkey head
        exact opcode_holds rfl hs (Or.inl (((progMigrateSave_stages hx h2).2.2.1 r z p ho hmem).trans
          (congrArg Except.ok (handSign_of ((congrArg KhsState.idKey (afterDraw_khs m 32)).trans hkey)))))
      · intro r h2 ho hmem
        exact opcode_holds rfl hs (Or.inl ((progMigrateSave_stages hx h2).2.2.2 r ho hmem))
    · intro x hs hx
      constructor
      · intro h0
        exact opcode_holds rfl hs (Or.inl (passes hx (if_pos h0)))
      · intro hst b hmagic hver hlen htime hten hbody
        obtain ⟨hown, hother⟩ := progMigrateRestore_opens (m := m) (tag := tag) hx hst hmagic hver hlen htime hten hbody
        constructor
        · intro e hk he
          exact opcode_journals rfl hs (Or.inl (hown e hk he))
        · intro o q pt cert k hk htst hkey huid hsig ho hprep hsrc hlive hlo hhi hq hpt
          obtain ⟨hagree, hdone⟩ := restoreOther_stages (tag := tag) htst hkey huid hsig ho hprep hsrc hlive hlo hhi hq hpt
          constructor
          · intro hout hn hrng
            exact opcode_holds rfl hs (Or.inl ((hother hk).trans (hagree hout hn hrng)))
          · intro r z body img hout hz hdec himg hfit y
            subst hz
            exact opcode_journals rfl hs (Or.inl ((hother hk).trans (hdone r body img hout hdec himg hfit)))
  · intro t s m
    refine ⟨?_, ?_, ?_, ?_⟩
    · intro ten sid x hf hserve
      refine ⟨?_, ?_, ?_⟩
      · intro hhalf hend
        refine acts_eq (show opHalfOpenTimeout ten sid m = _ from ?_)
        simp only [opHalfOpenTimeout, hf]
        exact if_pos ⟨hserve, hhalf, hend⟩
      · refine acts_eq (show opMarkSend ten sid m = _ from ?_)
        simp only [opMarkSend, hf, hserve, if_true, Option.elim_some]
      · intro mark hm
        refine acts_eq (show opMarkAck ten sid mark m = _ from ?_)
        simp only [opMarkAck, hf]
        exact if_pos ⟨hserve, hm⟩
    · intro ten a ha hserve hend
      refine acts_eq (show opArmingLapse ten m = _ from ?_)
      simp only [opArmingLapse, ha]
      exact if_pos ⟨hserve, hend⟩
    · intro ten htags
      exact acts_eq (if_neg (not_not_intro htags))
    · intro ten o ho hend
      refine acts_eq (show opOfferExpiry ten m = _ from ?_)
      simp only [opOfferExpiry, ho]
      exact if_pos hend

end Sys2Proof.Machine

/-! SUPPORT. The supervisor, the life cycle, the recorder, health, supplies and resets (chapters 15 to 19). -/

namespace Sys2Proof.Machine

/-! ### Commands -/

/-- The form and the quorum of an image's acceptance (04 R125). -/
theorem imgChecks_of {m : Mod} {tag : Nat} {c : Cmd} {q : List Effect} (hlen : c.body.length = 24)
    (hlo : 4096 ≤ (f64 c 8).toNat) (hhi : (f64 c 8).toNat ≤ 4194304) (hmul : (f64 c 8).toNat % 4096 = 0) (h16 : f8 c 16 ≤ 1)
    (hr : allZero (fBytes c 17 7) = true) (hq : quorum m tag c clsMicrocode = .ok q) : imgChecks m tag c = .ok q :=
  passes (bodyLen_of hlen) <| (if_pos ⟨hlo, hhi, hmul⟩).trans <| passes (ensure_of _ (decide_eq_true h16)) <|
    passes (reserved_of hr) hq

/-- Settles O21: the programs pass their checks; the reset and the scan instruction are operations of their own. -/
theorem supervisorAndLifeCycleCommandsComplete : Obligations.SupervisorAndLifeCycleCommandsComplete := by
  refine ⟨fun t tag s m c => ⟨?_, ?_, ?_, ?_, ?_⟩, ?_, ?_⟩
  · intro hs hb hst hcopied hrng
    have hok : (m.ssv.tamper == .hold && m.ssv.recs.all (fun p => p.2.copied) && !m.rng.halted) = true := by
      rw [hst, hrng, List.all_eq_true.mpr hcopied]
      rfl
    exact opcode_journals rfl hs (Or.inl (passes (bodyLen_nil hb) <| passes (ensure_of _ hok) rfl))
  · intro hs hb hst
    exact opcode_holds rfl hs (Or.inl (passes (bodyLen_nil hb) <| passes (ensure_of _ (bne_iff_ne.mpr hst)) rfl))
  · intro q hs hb hst hq
    exact opcode_journals rfl hs (Or.inl (passes (bodyLen_nil hb) <| passes (ensure_of _ (beq_iff_eq.mpr hst)) <|
      passes hq rfl))
  · intro q hs hlen hw hq
    refine iteInduction (motive := id) (fun hcal => ?_) (fun hcal => ?_)
    · refine opcode_journals rfl hs (Or.inl ?_)
      unfold progCalWrite
      generalize calClamp c.body = r
      exact passes (bodyLen_of hlen) <| passes (ensure_of _ hcal) <| passes (ensure_of _ (decide_eq_true hw)) <|
        passes hq rfl
    · exact opcode_stops rfl hs (Or.inr (passes (bodyLen_of hlen) <| stopsAt (ensure_not _ (eq_false_of_ne_true hcal))))
  · intro hs hb
    exact opcode_ends rfl hs (Or.inl (passes (bodyLen_nil hb) rfl))
  · intro t s m
    constructor
    · intro a ha hend
      refine acts_eq (show opTransitionReset m = _ from ?_)
      simp only [opTransitionReset, ha]
      exact if_pos (by simpa using hend)
    · intro ir hp x m1
      refine acts_eq (show opTapInstruction ir m = _ from ?_)
      have hrun : opTapInstruction ir m = match x with
          | .extest | .clamp | .highz => stopAdmission m1
          | _ => m1 := if_neg (by simp [hp])
      rw [hrun]
      cases x <;> rfl
  · intro t tag s m c q hs hlen hlo hhi hmul h16 hr hq
    have hck := imgChecks_of hlen hlo hhi hmul h16 hr hq
    split
    · next h0 => exact opcode_holds rfl hs (Or.inl ((if_pos h0).trans (passes hck rfl)))
    · next h0 => exact opcode_journals rfl hs (Or.inl ((if_neg h0).trans (passes hck rfl)))

/-! ### The supervisor's events -/

/-- A source that triggers responds where the SSV has a supply and watches it (15 R388). -/
theorem trigger_responds {m : Mod} {src r detail : Nat} {v : W32} (hr : respOf m src = some r) (hs : ssvSupplied m = true)
    (hw : srcWatched m src = true) (hx : railExcused m src v = false) :
    trigger m src detail v = respond m src r detail v (limitOf m src v) false := by
  simp only [trigger, hr, hs, hw, hx, Bool.and_self, Bool.not_false, if_true]

/-- Settles O22: each event under its hypotheses. -/
theorem supervisorEventsComplete : Obligations.SupervisorEventsComplete := by
  intro t s m
  refine ⟨?_, ?_, ?_, ?_, ?_, ?_⟩
  · intro src r detail v hout hne hne' m1 hr hsup hw hx
    exact acts_eq ((if_neg (by simp [show detectorOut (s.now t) src = false from hout, hne, hne'])).trans
      (trigger_responds hr hsup hw hx))
  · intro n hn c
    have hn' : ¬ 2 ≤ n := Nat.not_le.mpr hn
    refine ⟨?_, ?_, ?_, ?_, ?_⟩
    · intro hpres
      exact acts_eq ((if_neg hn').trans (if_neg (by simpa using hpres)))
    · intro hgood
      exact acts_eq ((if_neg hn').trans (if_neg (by simpa using hgood)))
    · intro hpres hdep hlow
      have hno : ¬ (!c.present || c.depleted || c.low) = true := by simp [hpres, hdep, hlow]
      exact acts_eq ((if_neg hn').trans (if_neg hno))
    · intro hpres hdep
      have hno : ¬ (!c.present || c.depleted) = true := by simp [hpres, hdep]
      exact acts_eq ((if_neg hn').trans (if_neg hno))
    · intro hpres hlow
      have hyes : (c.present && c.low) = true := by simp [hpres, hlow]
      exact acts_eq ((if_neg hn').trans (if_pos hyes))
  · intro p hp
    refine acts_eq (show opSsvPower p m = _ from ?_)
    unfold opSsvPower
    rw [if_neg hp]
  · intro hp m1
    exact acts_eq (if_neg (ne_true_of_eq_false hp))
  · intro src hsup hdet
    have hno : ¬ (!(ssvSupplied m && isDetector m src)) = true := by simp [hsup, hdet]
    constructor
    · refine acts_eq (show opDetectorSelftest src true m = _ from ?_)
      unfold opDetectorSelftest
      rw [if_neg hno]
      exact if_pos rfl
    · intro m1 m2
      refine acts_eq (show opDetectorSelftest src false m = _ from ?_)
      unfold opDetectorSelftest
      rw [if_neg hno]
      exact if_neg (by decide)
  · intro n r hp hmain hnext
    refine acts_eq (show opRecordCopy m = _ from ?_)
    refine (if_neg (by simp [hp, hmain])).trans ?_
    rw [hnext]

/-! ### Known-answer tests -/

/-- A test of a unit in service that the test may run on (17 R440): the block's header notes it; a listed block's unit is
counted, and cleared or withdrawn. -/
theorem runKat_runs {m : Mod} {u : KatUnit} {b : Blk} {n : Nat} {pass : Bool} (hu : katPlace u = some (b, n))
    (hl : katLive m b n = true) (hb : b ≠ .pke) (hreq : katListed b = true ∨ (blkOf m b).testReq = true) :
    runKat m u pass =
      let m1 := updBlk m b (testHdr (unitsOf m b) n pass)
      if katListed b then
        let m2 := { m1 with hlt := { m1.hlt with runs := m1.hlt.runs + 1 } }
        if pass then clearUsed { m2 with hlt := { m2.hlt with passed := tblSet m2.hlt.passed (katKey b n) m2.clk } } b n
        else katFail m2 b n
      else if pass then m1 else raiseInt m1 b 0x40000000 := by
  have hgo : ¬ (!katLive m b n ∨ (!katListed b && !(blkOf m b).testReq) ∨ (b = .pke ∧ testable m n = false)) := by
    rcases hreq with h | h <;> simp [hl, hb, h]
  unfold runKat
  rw [hu]
  refine (if_neg hgo).trans ?_
  cases hk : katListed b <;> simp [hb]

/-- A report on its cadence is published once its timer has fired (17 R442). -/
theorem onCadence_fires {kind gap : Nat} {f : Mod → Mod} {m : Mod} {x : Timer}
    (h : firing m (.system kind) = some x) :
    onCadence kind gap f m = f (insTimer (takeTimer m x) (.system kind) (t64Add x.due gap)) := by
  simp [onCadence, h]

/-- Settles O23: the recorder's and health's events under their hypotheses. -/
theorem recorderAndHealthComplete : Obligations.RecorderAndHealthComplete := by
  refine ⟨⟨fun t tag s m c => ⟨?_, ?_⟩, ?_⟩, ?_⟩
  · intro hs hlen hn hlo hhi hr
    have hrun : ∀ {r : Except Act Act}, (if m.evr.log.length ≤ (f64 c 0).toNat then pure (okWith m (evrResult c 0))
        else pure (waitLists m tag c 0 (f64 c 16))) = r → progEvrRead m tag c = r := fun h =>
      passes (bodyLen_of hlen) <| passes hn <| passes (ensure_of _ (decide_eq_true ⟨hlo, hhi⟩)) <| passes (reserved_of hr) h
    split
    · next h => exact opcode_ends rfl hs (Or.inl (hrun (if_pos h)))
    · next h => exact opcode_holds rfl hs (Or.inl (hrun (if_neg h)))
  · intro q hs hb hn hq
    exact opcode_journals rfl hs (Or.inl (passes (bodyLen_nil hb) <| passes hn <| passes hq rfl))
  · intro t s m
    constructor
    · intro ch e hch he hfire cfg m1 next
      have hgo : ¬ (64 ≤ ch ∨ (firing m (.evr ch)).isNone) := by
        rw [← Option.not_isSome, hfire]
        simpa using hch
      refine acts_eq (show opEpochEnd ch m = _ from ?_)
      simp only [opEpochEnd, he, if_neg hgo]
      rfl
    · intro n hw m1
      refine acts_eq (show opLogWriteDone n m = _ from ?_)
      simp only [opLogWriteDone, hw, Bool.not_true, Bool.false_eq_true, if_false, m1]
  · intro t s m
    refine ⟨?_, ?_, ?_, ?_⟩
    · intro u b n hs hu hl hb run count ok
      have hkat : ∀ pass, opKatRun u pass m = noteOverdue (runKat m u pass) := fun pass => if_pos hs
      refine ⟨?_, ?_, ?_⟩
      · intro hk
        refine acts_eq ((hkat true).trans ?_)
        simp only [runKat_runs hu hl hb (Or.inl hk), hk, if_true]
        rfl
      · intro hk
        refine acts_eq ((hkat false).trans ?_)
        simp only [runKat_runs hu hl hb (Or.inl hk), hk, if_true, Bool.false_eq_true, if_false]
        rfl
      · intro hk hreq
        constructor
        · refine acts_eq ((hkat true).trans ?_)
          simp only [runKat_runs hu hl hb (Or.inr hreq), hk, if_true, Bool.false_eq_true, if_false]
          rfl
        · refine acts_eq ((hkat false).trans ?_)
          simp only [runKat_runs hu hl hb (Or.inr hreq), hk, Bool.false_eq_true, if_false]
          rfl
    · intro b a hp hn
      refine acts_eq (show opSramScrub b a .none m = _ from ?_)
      simp only [opSramScrub, hp, Bool.not_true, Bool.false_eq_true, if_false, if_pos hn]
    · intro he clean m1
      refine acts_eq (show opHltEpochEnd m = _ from ?_)
      unfold opHltEpochEnd
      rw [if_neg (Nat.not_le.mpr he)]
    · intro x hx m1 hs m2 m3
      refine acts_eq (show opHealthCadence m = _ from (onCadence_fires hx).trans (show opHealthPublish m1 = _ from ?_))
      unfold opHealthPublish
      simp only [hs, Bool.not_true, Bool.false_eq_true, if_false, m2, m3]

/-! ### Supplies and resets -/

/-- Settles O24: each event under its hypotheses. -/
theorem resetEventsComplete : Obligations.ResetEventsComplete := by
  intro t s m
  refine ⟨?_, ?_, ?_, ?_, ?_, ?_, ?_, ?_, ?_, ?_, ?_⟩
  · intro hp hr
    refine acts_eq (show opSuppliesValid m = _ from if_neg ?_)
    simp [hp, hr]
  · intro o hp hst hfl m1
    have hgo : ¬ (!m.powered ∨ m.jnl.started ∨ m.jnl.flushing) := by simp [hp, hst, hfl]
    exact acts_eq (show opModuleStart o m = _ from if_neg hgo)
  · intro mJ hp hlow
    have hno : ¬ (inService m ∧ mJ < 150) := fun h => Nat.not_le.mpr h.2 (hlow h.1)
    exact acts_eq (show opHoldupCharged mJ m = _ from (if_neg hno).trans (if_neg (by simp [hp])))
  · intro hp hfl
    refine acts_eq (show opModResetAssert m = _ from if_pos ?_)
    simp [hp, hfl]
  · intro hr hmain hp
    refine acts_eq (show opModResetRelease m = _ from (if_neg (by simp [hr])).trans (if_pos ?_))
    simp [hmain, hp]
  · intro src hp hfl hlo hhi bit st m1 m2
    have hgo : ¬ (!m.powered ∨ m.jnl.flushing ∨ src = 0 ∨ 3 < src) := by
      simp only [hp, hfl, Bool.not_true, Bool.false_eq_true, false_or]
      omega
    refine acts_eq (show opPowerFail src m = _ from ?_)
    unfold opPowerFail
    rw [if_neg hgo]
  · intro us supplies hfl m1 m2 m3
    refine acts_eq (show opFlushComplete us supplies false m = _ from ?_)
    simp only [opFlushComplete, hfl, Bool.not_true, Bool.not_false, Bool.false_eq_true, if_false, m1, m2, m3]
  · intro mJ hp hlow hs
    have hgo : ¬ (!m.powered ∨ 150 ≤ mJ) := by simp [hp, hlow]
    exact acts_eq (show opHoldupLow mJ m = _ from (if_neg hgo).trans (if_pos hs))
  · intro hp
    exact acts_eq (show opThermalTrip m = _ from if_neg (by simp [hp]))
  · intro n hs rest other
    exact ⟨acts_eq (show opStoreReclaim n m = _ from if_pos hs), acts_eq (show opTableCheckpoint m = _ from if_pos hs)⟩
  · intro a hp ha
    exact acts_eq (show opI3cAssign a m = _ from if_neg (not_or.mpr ⟨hp, Nat.not_le.mpr ha⟩))

end Sys2Proof.Machine

/-! SUPPORT. The events of the blob store, the key cache, random generation, jobs and the scheduler (chapters 4 to 6, 8). -/

namespace Sys2Proof.Machine

/-! ### Blobs and lines -/

/-- A blob read that comes in time to a slot that waits for it. -/
theorem opBlobRead_inTime {m : Mod} {n : Nat} {f : Fetch} {r : ReadResult} (hf : tblFind m.bsx.slots n = some f)
    (hb : f.blob = none) (hr : f.retryAt = none) (ht : m.clk < f.first + 200000) :
    opBlobRead n r m = match r with
      | .failed _ => fetchFailed m n
      | .data b =>
        let m1 := noteFetch m f
        match f.line with
        | none => holdBlob m1 n f b
        | some l =>
          if (blkOf m1 .khs).fault then refuseBlob m1 n f stRetryLater
          else match checkBlob m1 f.handle b with
            | .error st => refuseBlob m1 n f st
            | .ok (attr, key) => dropSlot (fillLine m1 l attr key) n := by
  have hwait : ¬ (f.blob.isSome || f.retryAt.isSome) = true := by rw [hb, hr]; decide
  unfold opBlobRead
  rw [hf]
  exact (if_neg hwait).trans (if_neg (Nat.not_le.mpr ht))

/-- Settles O25: each event under its hypotheses. -/
theorem blobAndCacheEventsComplete : Obligations.BlobAndCacheEventsComplete := by
  constructor
  · intro t s m n f hf hb
    refine ⟨?_, ?_, ?_, ?_⟩
    · intro b hr ht m1
      have hrun := opBlobRead_inTime (r := .data b) hf hb hr ht
      cases hl : f.line with
      | none => exact acts_eq (hrun.trans (by simp only [hl, m1]))
      | some l =>
        intro hok
        have hok' : ¬ (blkOf (noteFetch m f) .khs).fault = true := ne_true_of_eq_false hok
        cases hc : checkBlob m1 f.handle b with
        | error st =>
          exact acts_eq (hrun.trans (by simp only [hl, if_neg hok', show checkBlob (noteFetch m f) f.handle b = _ from hc, m1]))
        | ok x =>
          exact acts_eq (hrun.trans (by simp only [hl, if_neg hok', show checkBlob (noteFetch m f) f.handle b = _ from hc, m1]))
    · intro e hr ht
      exact acts_eq (opBlobRead_inTime (r := .failed e) hf hb hr ht)
    · intro x hx hr ht m1
      have hgo : ¬ (f.retryAt.isNone ∨ f.first + fetchLimit ≤ m.clk) := by
        rw [← Option.not_isSome, hr]
        simpa [fetchLimit] using ht
      refine acts_eq (show opBlobRetry n m = _ from ?_)
      simp only [opBlobRetry, hf, hx, if_neg hgo, m1]
    · intro ht
      have hgo : ¬ (f.blob.isSome || decide (m.clk < f.first + fetchLimit)) = true := by
        rw [hb, decide_eq_false (p := m.clk < f.first + fetchLimit) (Nat.not_lt.mpr ht)]
        decide
      refine acts_eq (show opBlobDeadline n m = _ from ?_)
      simp only [opBlobDeadline, hf, if_neg hgo]
  · intro t s m
    refine ⟨?_, ?_, ?_, ?_⟩
    · intro n l hl hdue hready x r l1 k
      refine acts_eq (show opLineRemask n m = _ from ?_)
      simp only [opLineRemask, hl, hdue, hready, Bool.not_true, Bool.false_eq_true, if_false, if_true, remaskLine, k, l1, r, x]
    · intro ten hage old
      have hlim : ¬ (tenOf m ten).tage * 1000 = 0 := by omega
      refine acts_eq (show opAgeEvict ten m = _ from ?_)
      unfold opAgeEvict
      exact if_neg hlim
    · intro n l hl hst hpins
      refine acts_eq (show opLineEcc n m = _ from ?_)
      simp only [opLineEcc, hl, hst, hpins, List.isEmpty_nil, true_or, if_true, reduceCtorEq, if_false]
    · intro hbusy hmoved m1 k
      have hgo : ¬ (!m.kch.busy ∨ m.kch.moved < bucketTotal) := by
        simpa [hbusy] using hmoved
      refine acts_eq (show opRehashDone m = _ from ?_)
      unfold opRehashDone
      rw [if_neg hgo]

/-! ### Random generation -/

/-- One run of a source's tests is all there is where its record holds one. -/
theorem opHealthTestFail_once {m : Mod} {n : Nat} {l : List Bool} (hn : n < 2) (hp : m.powered = true) :
    opHealthTestFail n [l] m = testSource n m l := by
  have hgo : ¬ (2 ≤ n ∨ !m.powered) := by simp [hp, hn]
  rw [opHealthTestFail, if_neg hgo]
  exact ite_self _

theorem testSource_fails {m : Mod} {n : Nat} {l : List Bool} (hf : (srcEs m n).failed = false)
    (hl : samplesPass n l = false) :
    testSource n m l =
      let fails := ((srcEs m n).fails.filter (fun t => decide (m.clk < t + nsPerS))) ++ [m.clk]
      let dead := decide (3 ≤ fails.length)
      let m1 := setEs m n { srcEs m n with fails := fails, failed := dead, ok := false }
      judgeSources (raiseInt { m1 with rng := { m1.rng with htFail := m1.rng.htFail + 1 } } .rng (if dead then 3 else 1)) := by
  simp only [testSource, hf, hl, Bool.false_eq_true, if_false]

theorem reseedDue_of {m : Mod} {d : Drbg} (hs : m.rng.es1.ok = true ∨ m.rng.es2.ok = true)
    (hd : 2 ^ 20 ≤ d.requests ∨ d.since + nsPerS ≤ m.clk) : reseedDue m d = true := by
  simp only [reseedDue, Bool.and_eq_true_iff, Bool.or_eq_true_iff, decide_eq_true_iff]
  exact ⟨hs, hd⟩

/-- Settles O26: a failed run of tests, a reseed that is due, a seed that arrives and takes over. -/
theorem randomEventsComplete : Obligations.RandomEventsComplete := by
  intro t s m
  refine ⟨?_, ?_, ?_⟩
  · intro n l hn hp hf hl fails dead m1 m2 m3
    have hone : opHealthTestFail n [l] m = m2 := (opHealthTestFail_once hn hp).trans (testSource_fails hf hl)
    refine acts_eq (show opRngHealthTest n [l] m = _ from ?_)
    unfold opRngHealthTest
    rw [hone]
  · intro n hn d hh hr hs hd d1
    have hgo : ¬ (2 ≤ n ∨ !d.ready ∨ m.rng.halted ∨ !reseedDue m d) := by
      simp only [hr, hh, reseedDue_of hs hd, Bool.not_true, Bool.false_eq_true, or_false]
      omega
    refine acts_eq (show opDrbgReseed n m = _ from ?_)
    unfold opDrbgReseed
    refine (if_neg hgo).trans ?_
    by_cases h0 : n = 0
    · simp only [h0, if_true, reseedD0, Drbg.fresh, d1, d]
    · simp only [h0, if_false, reseedD1, Drbg.fresh, d1, d]
  · intro p hp hh g set
    have hgo : ¬ (m.rng.halted ∨ 10 ≤ p) := by
      simp only [hh, Bool.false_eq_true, false_or]
      omega
    have hrun : opMaskSeedRenew p m = set (maskRenew m g).1 (maskRenew m g).2 := by
      unfold opMaskSeedRenew
      rw [if_neg hgo]
    constructor
    · intro hnext hask
      refine acts_eq (hrun.trans ?_)
      simp only [maskRenew, hnext, if_neg (Nat.not_lt.mpr hask)]
    · intro b hnext hfull
      refine acts_eq (hrun.trans ?_)
      simp only [maskRenew, hnext, if_pos hfull, MaskGen.seeded]

/-! ### Jobs -/

/-- The end of a job of a command that is neither an image's, a migration's nor the recorder's. -/
theorem opJobEnd_data {m : Mod} {tag : Nat} {c : Cmd} {io : JobIo} (hc : cmdOf m tag = some c) (hp : c.phase = .job)
    (hop : c.opcode ≠ 0x0F50 ∧ c.opcode ≠ 0x0D16 ∧ c.opcode ≠ 0x0D17 ∧ c.opcode ≠ 0x0F40) :
    opJobEnd tag io m = jobEndData m tag c io := by
  obtain ⟨himg, hsave, hrestore, hread⟩ := hop
  simp only [opJobEnd, hc, hp, himg, hsave, hrestore, hread, ne_eq, not_true_eq_false, or_self, if_false]

/-- Data in time for a job whose line holds its key, by lists that add up. -/
theorem jobEndData_runs {m : Mod} {tag : Nat} {c : Cmd} {j : Job} {ins outs aads b again : Bytes} {agree : Bool}
    (hj : jobOf m tag = some j) (ht : m.clk < j.start + 8000000) (hk : jobKeyed m c = true)
    (hl : (sglOk (sglOf c).1 (sglEntries ins) (jobLens c).1 && sglOk (sglOf c).2.1 (sglEntries outs) (jobLens c).2.1 &&
      sglOk (sglOf c).2.2 (sglEntries aads) (jobLens c).2.2) = true) (hop : c.opcode ≠ 0x0802) :
    jobEndData m tag c (.data ins outs aads b again agree) =
      let r := jobRun m j c b again
      jobDone (if r.2.2.1 = [] then r.2.2.2 else jobOutput r.2.2.2 (portFor m c) (sglEntries ins) (sglEntries outs) r.2.2.1)
        tag r.1 r.2.1 := by
  have hgo : ¬ (j.start + 8000000 ≤ m.clk ∨ !jobKeyed m c) := by simp [hk, ht]
  simp only [jobEndData, hj, if_neg hgo, hl, hop, false_and, if_false, Bool.not_true, Bool.false_eq_true]

/-- CIPHER_ENCRYPT's job: the cipher text under the line's key, counted on its pipeline (08 R222). -/
theorem jobRun_cipherEncrypt {m : Mod} {j : Job} {c : Cmd} {b again : Bytes} (hop : c.opcode = 0x0803) :
    jobRun m j c b again =
      let m0 := deliverKey m j.tag j.pipe c
      let d := (fitRight (f32 c 0x10 + f32 c 0x0C) b).drop (f32 c 0x10)
      let key := (heldKey m0 (f64 c 0)).2
      let iv := fBytes c 0x18 (f8 c 0x0A)
      (stOk, [], if f8 c 8 = 1 then cbcEnc .aes key iv d else ctrCrypt .aes key iv d,
        countJob m0 c j.pipe stOk (f32 c 0x10) d.length) := by
  have hdge : onDge c = false := by rw [onDge, hop]; rfl
  have hstr : onStream c = false := by rw [onStream, hop]; rfl
  have hgen : (c.opcode == 0x0801 && f8 c 0x0B == 1) = false := by rw [hop]; rfl
  simp only [jobRun, jobLens, jobCompute, hop, hdge, hstr, Bool.false_eq_true, if_false, Nat.reduceBEq, Bool.false_and]

/-- A job of DGE that ends without running to its end holds no stream. -/
theorem jobFailed_dge {m : Mod} {tag : Nat} {c : Cmd} {st : W16} (hop : c.opcode / 256 = 0x0A) :
    jobFailed m tag c st = jobDone m tag st [] := by
  have hdata : ¬ (c.opcode = 0x0811 ∨ c.opcode = 0x0812) := by omega
  have hopen : ¬ c.opcode = 0x0810 := by omega
  simp only [jobFailed, hdata, hopen, if_false]

/-- Settles O27: the slot's events by the command's phase; a job's end by its data, its failed read or its limit. -/
theorem jobEventsComplete : Obligations.JobEventsComplete := by
  intro t tag s m
  refine ⟨?_, ?_, ?_, ?_, ?_⟩
  · intro c a p hc hp hpipe ht
    refine acts_eq (show opJobSlotGrant tag m = _ from ?_)
    simp only [opJobSlotGrant, hc, hp, hpipe, ht, if_true]
  · intro c a hc hp ht hop
    have hdge : onDge c = true := beq_iff_eq.mpr hop
    have hstr : ¬ (0x0810 ≤ c.opcode ∧ c.opcode ≤ 0x0812) := by omega
    refine acts_eq (show opJobSlotTimeout tag m = _ from ?_)
    simp only [opJobSlotTimeout, hc, hp, if_neg (Nat.not_lt.mpr ht), hdge, if_true, jobBack, if_neg hstr]
  · intro c j ins outs aads b again agree hc hp hop hj ht hk hi ho ha m0 d m1 key iv out _
    have hlists : (sglOk (sglOf c).1 (sglEntries ins) (jobLens c).1 && sglOk (sglOf c).2.1 (sglEntries outs) (jobLens c).2.1 &&
        sglOk (sglOf c).2.2 (sglEntries aads) (jobLens c).2.2) = true := by
      simp only [sglOf, jobLens, hop, hi, ho, ha, Bool.and_self]
    refine acts_eq (show opJobEnd tag _ m = _ from (opJobEnd_data hc hp (by rw [hop]; decide)).trans
      ((jobEndData_runs hj ht hk hlists (by rw [hop]; decide)).trans ?_))
    simp only [jobRun_cipherEncrypt hop, m1, out, key, iv, d, m0]
  · intro c j x hc hp hop hj
    have hdge : onDge c = true := beq_iff_eq.mpr hop
    constructor
    · intro ht
      refine acts_eq (show opJobEnd tag (.readFailed x) m = _ from (opJobEnd_data hc hp (by omega)).trans ?_)
      simp only [jobEndData, hj, ht, if_true, jobReadFailed, hdge, jobFailed_dge hop]
    · intro ht
      refine acts_eq (show opJobTimeout tag (.readFailed x) 0 m = _ from ?_)
      simp only [opJobTimeout, hc, hj, if_neg (Nat.not_lt.mpr ht), hdge, if_true, jobFailed_dge hop]
  · intro ten x y hst hend
    exact acts_eq (show opStreamIdleExpiry ten x m = _ from if_pos ⟨hst, hend⟩)

/-! ### The scheduler -/

/-- Settles O28: grants, promotion, yields and budgets by the command at the tag; timers by the one that is due. -/
theorem schedulerEventsComplete : Obligations.SchedulerEventsComplete := by
  intro t s m
  refine ⟨?_, ?_, ?_, ?_, ?_, ?_, ?_⟩
  · intro core ctx hfree m1
    have hrun : opGetwork core ctx m = match nextGrant m1 with
        | none => m1
        | some (tag, m2) => runGrant m2 tag := by
      simp only [opGetwork, hfree, if_true, m1] <;> rfl
    cases hg : nextGrant m1 with
    | none => exact acts_eq (hrun.trans (by rw [hg]))
    | some x => exact acts_eq (hrun.trans (by rw [hg]))
  · intro core ctx tag m1 hw hc
    simp only [grantOfTag, nextGrant, hw, hc, Option.bind_some, Option.map_some, if_true]
  · intro tag l a c hc hp hl ht m1 m2
    have hgo : ¬ (7 ≤ l ∨ m.clk < a + m.sch.age * 1000) := by omega
    refine acts_eq (show opAgePromote tag m = _ from ?_)
    simp only [opAgePromote, hc, Option.map_some, hp, if_neg hgo, m1, m2]
  · intro tag c hc hw
    constructor
    · intro hr hy
      refine acts_eq (show opYield tag m = _ from ?_)
      simp only [opYield, hc, hy, hr, Bool.not_true, Bool.false_eq_true, if_false, if_true]
    · refine acts_eq (show opBudgetExhausted tag m = _ from ?_)
      simp only [opBudgetExhausted, hc, hw, if_true, budgetOut]
  · intro x h hx hk m1
    refine acts_eq (show opKeyTimer m = _ from ?_)
    simp only [opKeyTimer, hx, hk, m1]
  · intro x h b hx hk m1 hb y
    refine acts_eq (show opBudgetRollover m = _ from ?_)
    simp only [opBudgetRollover, hx, hk, show tblFind (takeTimer m x).dur.bud h = some b from hb, m1, y]
  · intro x hx m1
    refine acts_eq (show opBudgetSnapshot m = _ from ?_)
    unfold opBudgetSnapshot
    rw [onCadence_fires hx]

end Sys2Proof.Machine

/-! SUPPORT. External time: its messages, edges, losses, and its two commands (chapter 13). -/

namespace Sys2Proof.Machine

/-- A peer's request on the port and VLAN of an enabled entry that uses peer delay is answered (13 R347). -/
theorem opPdelayReq_answers {m : Mod} {x : PtpMsg} (he : srcEnabled m.dur.tcfg .ptp0 = true)
    (hp : ptpP2p (ptpEntry m.dur.tcfg 0) = true) (hat : ptpPlace (ptpEntry m.dur.tcfg 0) x = true)
    (hs : netPortSends m x.port = true) : opPdelayReq x m = emit m (.pdelayResp x.port) := by
  have hsrc : srcIdx .ptp0 = 0 := rfl
  simp only [opPdelayReq, List.any_cons, he, hsrc, hp, hat, hs, Bool.and_self, Bool.true_or, if_true]

/-- An interval after the last request the entry asks again for its path delay (13 R347). -/
theorem opDelayReq_asks {m : Mod} (he : srcEnabled m.dur.tcfg .ptp0 = true)
    (hs : netPortSends m (getNat8 (ptpEntry m.dur.tcfg 0) 1) = true)
    (hd : ∀ a, tblFind m.tim.reqAt 0 = some a → a + ptpInterval (ptpEntry m.dur.tcfg 0) ≤ m.clk) :
    opDelayReq 0 m =
      let b := ptpEntry m.dur.tcfg 0
      let x := { m.tim with reqSent := tblSet m.tim.reqSent 0 m.clk, reqAt := tblSet m.tim.reqAt 0 m.clk }
      emit { m with tim := x } (.ptpDelayReq (getNat8 b 1) (ptpP2p b)) := by
  have hdue : (tblFind m.tim.reqAt 0).elim true (fun a => decide (a + ptpInterval (ptpEntry m.dur.tcfg 0) ≤ m.clk)) = true := by
    cases hf : tblFind m.tim.reqAt 0 with
    | none => rfl
    | some a => exact decide_eq_true (hd a hf)
  simp only [opDelayReq, if_true, he, hs, hdue, Nat.zero_le, and_self]

/-- Settles O29: a message by the entry it belongs to, an edge by the message that names it, a loss by its instant. -/
theorem timeComplete : Obligations.TimeComplete := by
  constructor
  · intro t s m
    refine ⟨?_, ?_, ?_, ?_, ?_, ?_, ?_⟩
    · intro x src hx b
      refine ⟨?_, ?_, ?_⟩
      · intro hsec hns ext
        have hgo : ¬ (2 ^ 34 ≤ x.secs ∨ 999999999 < x.nanos) := by omega
        refine acts_eq (show opPtpSync x m = _ from ?_)
        simp only [opPtpSync, hx, if_neg hgo, ext]
      · intro hscale hcls
        refine acts_eq (show opPtpAnnounce x m = _ from ?_)
        simp only [opPtpAnnounce, hx]
        exact if_pos ⟨hscale, hcls⟩
      · intro a ha hp
        refine acts_eq (show opDelayResp x m = _ from ?_)
        simp only [opDelayResp, hx, ha]
        exact if_pos hp
    · intro x b he
      constructor
      · intro hp hat hs
        exact acts_eq (opPdelayReq_answers he hp hat hs)
      · intro hs hd y
        exact acts_eq (opDelayReq_asks he hs hd)
    · intro a secs ha ht m1 m2
      refine acts_eq (show opPpsEdge true m = _ from ?_)
      have htod : (updSrc m .pps (fun x => { x with refOk := true })).tim.tod = some (a, secs) := ha
      simp only [opPpsEdge, htod, ht, if_true, Bool.not_true, Bool.false_eq_true, if_false, m1, m2]
    · intro b hok hvalid secs
      have hgo : ¬ (!todOk b || !(getNat8 b 3).testBit 0) = true := by rw [hok, hvalid]; decide
      refine acts_eq (show opTodMessage b m = _ from ?_)
      unfold opTodMessage
      rw [if_neg hgo]
    · intro src a ha ht
      refine acts_eq (show opSourceLost src m = _ from ?_)
      simp only [opSourceLost, ha]
      exact if_pos ht
    · intro a hm ha ht
      refine acts_eq (show opHoldoverExpired m = _ from ?_)
      simp only [opHoldoverExpired, hm, ha]
      exact if_pos ht
    · intro src h hr hh
      refine acts_eq (show opRejectEnd src m = _ from ?_)
      simp only [opRejectEnd, hr]
      exact if_pos hh
  · intro t tag s m c q
    constructor
    · intro hs hlen hn h0 h4 h8 h8' h12 hr hp0 hp1 hq cfg
      exact opcode_journals rfl hs (Or.inl (passes (bodyLen_of hlen) <| passes hn <|
        passes (ensure_of _ (decide_eq_true ⟨h0, h4, h8, h8', h12⟩)) <| passes (reserved_of hr) <|
        passes (ensure_of _ (by rw [hp0, hp1]; rfl)) <| passes hq rfl))
    · intro src e hs hb hn hsrc he hq off
      exact opcode_journals rfl hs (Or.inl (passes (bodyLen_nil hb) <| passes hn <| passes (congrArg (orStop · _) hsrc) <|
        passes (congrArg (orStop · _) he) <| passes hq rfl))

end Sys2Proof.Machine

/-! SUPPORT. The pair's commands (chapter 14). -/

namespace Sys2Proof.Machine

/-- Settles O30: each program passes its checks; a pairing and an unpairing split as their programs do. -/
theorem twinCommandsComplete : Obligations.TwinCommandsComplete := by
  intro t tag s m c q
  refine ⟨?_, ?_, ?_, ?_, ?_, ?_, ?_⟩
  · intro hs hmin hlen hn h8 hr hcan hpair hq cert
    have hrun : ∀ {r : Except Act Act}, (do
        ensure ((Config.certKey cert).length == 96 && Config.certUid cert == f64 c 0) stPairRefused
        let _ ← quorum m tag c clsTwinPair
        pure (.hold (emitAll (updCmd { m with tlk := { m.tlk with pairing := some (tag, f64 c 0, f8 c 8 == 1) } } tag
          (fun c => { c with phase := .twin })) [.twinHandshake 0 Config.devUid, .twinHandshake 1 Config.devUid]))) = r →
        progTwinPair m tag c = r := fun h =>
      passes (bodyMin_of hmin) <| passes (bodyLen_of hlen) <| passes hn <| passes (ensure_of _ (decide_eq_true h8)) <|
        passes (reserved_of hr) <| passes (ensure_of _ (by rw [hcan, hpair]; rfl)) h
    refine iteInduction (motive := id) (fun hc => ?_) (fun hc => ?_)
    · exact opcode_holds rfl hs (Or.inl (hrun (passes (ensure_of _ (by simpa using hc)) <| passes hq rfl)))
    · exact opcode_stops rfl hs (Or.inr (hrun (stopsAt (ensure_not _ (eq_false_of_ne_true (by simpa using hc))))))
  · intro hs hlen hn h0 hr hp hq
    have hrun : ∀ {r : Except Act Act}, (if f8 c 0 = 1 && silentFor m (60 * nsPerS) then
          pure (.journal m (q ++ (if m.tlk.role = .windward then [] else closeAll (q.foldl effDur (projDur m))) ++ [.unpaired])
            stOk [] false)
        else do
          ensure ((linkPasses m 0 && !pathSilent m 0) || (linkPasses m 1 && !pathSilent m 1)) stPairRefused
          if m.tlk.role = .windward then do
            ensure m.tlk.sync stPairRefused
            pure (.journal m (q ++ [.unpaired]) stOk [] false)
          else pure (.hold (sendTwin (updCmd m tag (fun c => { c with phase := .twin })) .unpairAsk))) = r →
        progTwinUnpair m tag c = r := fun h =>
      passes (bodyLen_of hlen) <| passes hn <| passes (ensure_of _ (decide_eq_true h0)) <| passes (reserved_of hr) <|
        passes (ensure_of _ hp) <| passes hq h
    refine iteInduction (motive := id) (fun hf => ?_) (fun hf => ?_)
    · exact opcode_journals rfl hs (Or.inl (hrun (if_pos (by simpa using hf))))
    · intro hlink
      have hno : ¬ (decide (f8 c 0 = 1) && silentFor m (60 * nsPerS)) = true := by simpa using hf
      have hword : ((linkPasses m 0 && !pathSilent m 0) || (linkPasses m 1 && !pathSilent m 1)) = true := by
        simpa using hlink
      refine iteInduction (motive := id) (fun hw => ?_) (fun hw => ?_)
      · intro hsync
        exact opcode_journals rfl hs (Or.inl (hrun ((if_neg hno).trans <| passes (ensure_of _ hword) <| (if_pos hw).trans <|
          passes (ensure_of _ hsync) rfl)))
      · exact opcode_holds rfl hs (Or.inl (hrun ((if_neg hno).trans <| passes (ensure_of _ hword) (if_neg hw))))
  · intro hs hb hn
    exact opcode_ends rfl hs (Or.inl (passes (bodyLen_nil hb) <| passes hn rfl))
  · intro hs hb hn hrole hp ho he hpr hsil hq
    have hok : ((m.tlk.role == .leeward || m.tlk.role == .held) && m.tlk.paired && !m.tlk.orphaned && !isErased m &&
        m.tlk.promoting.isNone && allSilent m) = true := by
      rw [hp, ho, he, hpr, hsil]
      rcases hrole with h | h <;> rw [h] <;> rfl
    exact opcode_journals rfl hs (Or.inl (passes (bodyLen_nil hb) <| passes hn <| passes (ensure_of _ hok) <| passes hq rfl))
  · intro hs hb hn hp hrole hsync hfmt hho a
    exact opcode_ends rfl hs (Or.inl (passes (bodyLen_nil hb) <| passes hn <|
      passes (ensure_of _ (by rw [hp, hrole, hsync, hfmt, hho]; rfl)) rfl))
  · intro hs hlen hn h0 h4 h4' hr
    exact opcode_journals rfl hs (Or.inl (passes (bodyLen_of hlen) <| passes hn <|
      passes (ensure_of _ (decide_eq_true ⟨h0, h4, h4'⟩)) <| passes (reserved_of hr) rfl))
  · intro hs hb hrole
    exact opcode_holds rfl hs (Or.inl (passes (bodyLen_nil hb) <| passes (ensure_of _ (beq_iff_eq.mpr hrole)) rfl))

end Sys2Proof.Machine

/-! SUPPORT. The twin's events: what a Leeward takes, what a Windward hears, and the changes of role (chapter 14). -/

namespace Sys2Proof.Machine

/-! ### A Leeward's frames -/

/-- The next record is held and acknowledged (14 R365). -/
theorem opRecordRx_next {l : Nat} {r : JRecord} {m : Mod} (ht : takesRecords m l = true) (h0 : r.jsn ≠ 0)
    (hlt : m.jnl.jsnLast.toNat < r.jsn.toNat) (hnext : r.jsn = m.jnl.jsnLast + 1) (hstale : m.tlk.stale = false)
    (himg : imageMatches m r = true) :
    opRecordRx l r m =
      let m2 := { m with jnl := { m.jnl with
        received := m.jnl.received ++ [(r, nowT m)], jsnLast := r.jsn, bufUsed := bufLevel m + recSize r.jsn, bufAt := m.clk } }
      sendOn l { m2 with tlk := { m2.tlk with jsnAcked := r.jsn } } (.ack r.jsn) := by
  unfold opRecordRx
  rw [if_neg (by simp [ht]), if_neg h0, if_neg (Nat.not_le.mpr hlt), if_neg (not_not_intro hnext), if_neg (by simp [hstale]),
    if_neg (by simp [himg])]
  exact if_neg (ne_true_of_eq_false hstale)

/-- A staged image that both evaluations agree on is judged, and its outcome reported (04 R125). -/
theorem opImageStage_agreed {l : Nat} {img : Bytes} {m : Mod} (ht : takesRecords m l = true) (hre : m.tlk.resync = false) :
    opImageStage l img true m =
      let m2 := { setOtherSlot m ImgSlot.none with txp := { m.txp with pending := false, otherValid := false } }
      let x : ImgSlot :=
        { usable := false, version := Config.imageVersion img, svn := Config.imageSvn img, digest := sha384 img, image := img }
      if Config.imageVerdict img = false ∨ (Config.imageSvn img).toNat < m2.txp.svnFloor.toNat ∨
          Config.imageReads img m2.tlk.peerWrites = false
      then sendOn l m2 (.imageReport false)
      else sendOn l (setOtherSlot m2 x) (.imageReport true) := by
  have hre' : (setOtherSlot m ImgSlot.none).tlk.resync = false := hre
  unfold opImageStage
  rw [if_neg (by simp [ht])]
  simp only [Bool.not_true, Bool.false_eq_true, if_false, Bool.not_eq_true', hre']

/-- Settles O31: a frame accepted is its operation's, under the checks of each. -/
theorem leewardEventsComplete : Obligations.LeewardEventsComplete := by
  intro t f s m hp hf m1
  have hon : ∀ (g : Nat → Mod → Mod), onLink f g m = g f.link m1 := fun g => onLink_taken g hp hf
  constructor
  · intro hpair rep
    have hlp : linkPasses m1 f.link = true := (linkPasses_noteFrame m f f.link).trans hp
    exact acts_eq ((hon _).trans (if_pos (by rw [hlp, hpair]; rfl)))
  · intro ht
    have hgo : ¬ (!takesRecords m1 f.link) = true := by simp [ht]
    refine ⟨?_, ?_, ?_, ?_, ?_⟩
    · intro r h0 hlt hnext hstale himg m2
      exact acts_eq ((hon _).trans (opRecordRx_next ht h0 hlt hnext hstale himg))
    · intro stamps hstale
      exact acts_eq ((hon _).trans (if_pos (by rw [ht, hstale]; rfl)))
    · intro hre
      exact acts_eq ((hon _).trans (if_pos (by rw [ht, hre]; rfl)))
    · intro img hre m2 x
      exact acts_eq ((hon _).trans (opImageStage_agreed ht hre))
    · intro jsn hs hsync hstale hj m2 put m3 m4
      have hgo' : ¬ (!(takesRecords m1 f.link && m1.tlk.sync && !m1.tlk.stale)) = true := by simp [ht, hsync, hstale]
      refine acts_eq ((hon _).trans ?_)
      simp only [opHandoverRx, if_neg hgo', if_neg (not_not_intro hj), m4, m3, m2, put] <;> rfl

/-! ### A Windward's records and heartbeats -/

/-- Settles O32: each event under its hypotheses. -/
theorem windwardAndHeartbeatsComplete : Obligations.WindwardAndHeartbeatsComplete := by
  constructor
  · intro t s m
    refine ⟨?_, ?_, ?_⟩
    · intro f jsn hp hf m1 hpair hrole hsync h0 hlt hle w m2
      have hlp : linkPasses m1 f.link = true := (linkPasses_noteFrame m f f.link).trans hp
      refine acts_eq ((onLink_taken _ hp hf).trans (show opAckRx f.link jsn m1 = _ from ?_))
      unfold opAckRx
      rw [if_neg (by simp [hlp, hpair, hrole, hsync]), if_neg h0, if_neg (by omega)]
    · intro jsn w hpair hrole hsync h0 hw hlt hle
      refine acts_eq (show opAckTimeout jsn m = _ from ?_)
      unfold opAckTimeout
      rw [if_neg (by simp [hpair, hrole, hsync]), if_neg h0, hw]
      exact if_pos ⟨hlt, hle⟩
    · exact acts_eq rfl
  · intro t s m
    refine ⟨?_, ?_, ?_, ?_⟩
    · intro hserve h m1
      exact acts_eq (show opHeartbeatSend m = _ from if_neg (by simp [hserve]))
    · intro f h hl hp
      have hrow : ∀ {x : Mod}, onLink f (fun l => opHeartbeatRx l h) m = x →
          (if f.link < 2 then onLink f (fun l => opHeartbeatRx l h) else opHeartbeatRx f.link h) m = x := fun hx => by
        rw [if_pos hl]
        exact hx
      constructor
      · intro hf m1 hpair m2
        have hlp : linkPasses m1 f.link = true := (linkPasses_noteFrame m f f.link).trans hp
        have hpow : m1.powered = true := by
          unfold linkPasses at hlp
          simp_all
        have hgo : ¬ (2 < f.link ∨ (!m1.powered) = true ∨ f.link < 2 ∧ (!(linkPasses m1 f.link && m1.tlk.paired)) = true) := by
          simp only [hpow, hlp, hpair, Bool.and_self, Bool.not_true, Bool.false_eq_true, and_false, or_false]
          omega
        refine acts_eq (hrow ((onLink_taken _ hp hf).trans (show opHeartbeatRx f.link h m1 = _ from ?_)))
        unfold opHeartbeatRx
        rw [if_neg hgo]
        exact if_neg (Nat.ne_of_lt hl)
      · intro hf
        exact acts_eq (hrow (onLink_dropped _ hp hf))
    · intro hsil hlate
      refine acts_eq (show opPathSilent 2 m = _ from ?_)
      unfold opPathSilent
      rw [if_neg (by simp [hsil]; omega)]
      exact congrArg (fallSilent 2) (if_neg (Nat.lt_irrefl 2))
    · intro l hp hdue
      refine acts_eq (show opLinkRekey l m = _ from if_pos ?_)
      simp [hp]
      omega

/-! ### Changes of role -/

/-- Settles O33: each event under its hypotheses. -/
theorem roleEventsComplete : Obligations.RoleEventsComplete := by
  intro t s m
  refine ⟨?_, ?_, ?_, ?_, ?_, ?_, ?_, ?_⟩
  · intro l h hl hpow hrng hst hfit hfl htam hid
    have hgo : ¬ (2 ≤ l ∨ (!m.powered) = true ∨ m.rng.halted = true ∨ (!m.jnl.started) = true ∨ (!m.jnl.fit) = true ∨
        m.jnl.flushing = true ∨ m.ssv.tamper = .erased ∨ m.ssv.tamper = .hold ∨ m.khs.idKey = none) := by
      simp [hpow, hrng, hst, hfit, hfl, htam, hid]
      omega
    refine ⟨?_, ?_, ?_⟩
    · intro m1 own keys hlanes hok hx m2
      refine acts_eq (show opLinkHandshake l h m = _ from ?_)
      unfold opLinkHandshake
      rw [if_neg hgo, if_neg (Nat.not_lt.mpr hlanes), if_neg (by simp [hok]), hx]
    · intro hlanes hok
      exact acts_eq (show opLinkHandshake l h m = _ from
        (if_neg hgo).trans ((if_neg (Nat.not_lt.mpr hlanes)).trans (if_pos (by simp [hok]))))
    · intro hlanes
      exact acts_eq (show opLinkHandshake l h m = _ from (if_neg hgo).trans (if_pos hlanes))
  · intro a ha hdue hserve m1
    refine acts_eq (show opPromotionAdmission m = _ from ?_)
    simp only [opPromotionAdmission, ha]
    rw [if_neg (Nat.not_lt.mpr hdue), if_neg (by simp [hserve])]
  · intro d hpair hre hlink
    have hgo : ¬ (!(m.tlk.paired && m.tlk.resync && (linkPasses m 0 || linkPasses m 1))) = true := by
      rcases hlink with h | h <;> simp [hpair, hre, h]
    constructor
    · intro hrole
      exact acts_eq (show opResyncComplete (some d) m = _ from (if_neg hgo).trans (if_pos hrole))
    · intro hrole
      exact acts_eq (show opResyncComplete none m = _ from
        (if_neg hgo).trans ((if_neg (by rw [hrole]; decide)).trans (if_pos hrole)))
  · intro a ha hrole hsync hserve
    constructor
    · intro x hx m1
      refine acts_eq (show opHandoverStart m = _ from ?_)
      simp only [opHandoverStart, hx, ha, hrole, hsync, hserve, Option.isSome_some, beq_self_eq_true, Bool.and_self, if_true, m1]
    · intro hh hdue m1 m2 m3 m4
      refine acts_eq (show opHandoverCutoff m = _ from ?_)
      have hrun : ¬ (!(m.tlk.handing && m.tlk.role == .windward && decide ((t64Add a 900000).toNat ≤ (nowT m).toNat))) = true := by
        rw [hh, hrole, decide_eq_true hdue]
        decide
      have hserved : ¬ (!(m.tlk.sync && serveOk m)) = true := by
        rw [hsync, hserve]
        decide
      simp only [opHandoverCutoff, ha, if_neg hrun, if_neg hserved, m1, m2, m3, m4]
  · intro a ha hho hdue
    refine acts_eq (show opRevertHoldMet m = _ from ?_)
    simp only [opRevertHoldMet, ha]
    exact if_pos ⟨by rw [hho]; rfl, hdue⟩
  · intro tag uid home c hp hc hdue
    refine acts_eq (show opPairTimeout tag m = _ from ?_)
    simp only [opPairTimeout, hp, hc]
    exact if_pos ⟨trivial, hdue⟩
  · intro a ha hdue hsil
    refine acts_eq (show opStartTimeout m = _ from ?_)
    simp only [opStartTimeout, ha]
    rw [if_neg (by simp [hsil]; omega)]
    cases m.tlk.shutRole <;> rfl
  · intro hp hw
    exact acts_eq (show opProgressTimeout m = _ from if_pos (by rw [hp, hw]; rfl))

end Sys2Proof.Machine

/-! SUPPORT. The host's queues and FIFOs, the capsule transport, the module's addresses and the PCIe ports (chapters 3 and
18). -/

namespace Sys2Proof.Machine

/-! ### Queues and FIFOs -/

/-- An entry that comes within its time is taken, and goes on by its form (03 R70, R71). -/
theorem opSqEntry_taken {m : Mod} {q : QId} {at' : Nat} {entry : Bytes} (hr : readingOf m q = some at')
    (hl : readLate m at' = false) :
    opSqEntry q entry m =
      let e := fitRight 128 entry
      let x := takeEntry (setReading m q none) q
      let r : PtrRead := { q := q, sqHead := x.2.1, entry := e, stamp := x.2.2, issued := m.clk, got := none }
      if entryOk e = false then
        rejectEntry x.1 (entryArrival q e x.2.1 x.2.2 m.clk []) stBadFormat (if entryPtr e then getLe64 e 0x20 else 0)
      else if entryPtr e then emit (setPtr x.1 r) (.hostRead (queuePort m q) (getLe64 e 0x18) (entryLen e))
      else acceptFrom (setPtr x.1 { r with got := some (m.clk, sliceOf e 0x20 (entryLen e)) }) q := by
  unfold opSqEntry
  rw [hr]
  refine (if_neg (ne_true_of_eq_false hl)).trans ?_
  simp only [Bool.not_eq_true']

/-- A capsule still read that fails ends its command with ST_BAD_POINTER (03 R71). -/
theorem opPointerRead_fails {m : Mod} {id : Nat} {x : PtrRead} (k : ReadFail) (hx : tblFind m.cmq.ptr id = some x)
    (hg : x.got = none) : opPointerRead id (.failed k) m = capsuleFailed m id x := by
  unfold opPointerRead
  rw [hx]
  exact if_neg (by rw [hg]; decide)

/-- A capsule that comes within its time enters acceptance in its turn (03 R75). -/
theorem opPointerRead_comes {m : Mod} {id : Nat} {x : PtrRead} (b : Bytes) (hx : tblFind m.cmq.ptr id = some x)
    (hg : x.got = none) (hl : readLate m x.issued = false) :
    opPointerRead id (.data b) m =
      let y := { x with got := some (m.clk, fitRight (entryLen x.entry) b) }
      acceptFrom { m with cmq := { m.cmq with ptr := tblSet m.cmq.ptr id y } } x.q := by
  unfold opPointerRead
  rw [hx]
  exact (if_neg (by rw [hg]; decide)).trans (if_neg (ne_true_of_eq_false hl))

/-- Settles O34: an entry by its form, a failed read by its source, a FIFO's command where its tag is kept. -/
theorem queuesAndFifosComplete : Obligations.QueuesAndFifosComplete := by
  constructor
  · intro t s m
    refine ⟨?_, ?_, ?_, ?_, ?_⟩
    · intro q at' entry hr hl e m1 h x r
      refine ⟨?_, ?_, ?_⟩
      · intro hok
        exact acts_eq ((opSqEntry_taken hr hl).trans (if_pos hok))
      · intro hok hptr
        exact acts_eq ((opSqEntry_taken hr hl).trans
          ((if_neg (ne_false_of_eq_true hok)).trans (if_neg (ne_true_of_eq_false hptr))))
      · intro hok hptr
        exact acts_eq ((opSqEntry_taken hr hl).trans ((if_neg (ne_false_of_eq_true hok)).trans (if_pos hptr)))
    · intro ten n k hr m0 m1 m2
      exact acts_eq (show opEntryFail (.qp ten n) m = _ from if_pos hr)
    · intro p k at' hr m0 m1 m2
      constructor
      · exact acts_eq (show opEntryFail (.admin p) m = _ from if_pos (by rw [hr]; rfl))
      · intro hlate
        exact acts_eq (show opReadTimeout (.entry (.admin p)) m = _ from if_pos (by rw [hr]; exact decide_eq_true hlate))
    · intro id x hx hg m1 m2
      refine ⟨?_, ?_, ?_⟩
      · intro b hin y
        exact acts_eq (opPointerRead_comes b hx hg (decide_eq_false (Nat.not_le.mpr hin)))
      · intro k
        exact acts_eq (opPointerRead_fails k hx hg)
      · intro hlate
        have hl : readLate m x.issued = true := decide_eq_true hlate
        refine acts_eq (show opReadTimeout (.capsule id) m = _ from ?_)
        refine (if_neg ?_).trans (opPointerRead_fails .completerAbort hx hg)
        rw [hx]
        simp [hl]
    · intro tag c a hc hlate
      refine acts_eq (show opReadTimeout (.job tag a) m = _ from if_neg ?_)
      rw [hc]
      exact ne_true_of_eq_false (decide_eq_false (Nat.not_lt.mpr hlate))
  · intro t s m
    constructor
    · intro ten d d1 rest h hpush hgr hw n last a m1
      have hgo : ¬ (!(fifoWaits m ten && (tenOf m ten).fifo.granted)) = true := by
        rw [hw, show (tenOf m ten).fifo.granted = true from hgr]
        decide
      refine acts_eq (show opFifoTake ten m = _ from ?_)
      unfold opFifoTake
      dsimp only
      rw [show (tenOf m ten).fifo.push = d :: d1 :: rest from hpush]
      refine (if_neg hgo).trans ?_
      simp only [m1, a, last, n, h, hpush]
      rfl
    · intro key id kept
      exact acts_eq rfl

/-! ### The capsule transport -/

/-- A DATA datagram whose header and capsules hold goes to its session, or to none (03 R88, R89). -/
theorem opNctDataRx_good {m : Mod} {f : NetFrame} {caps : List Bytes} (hh : frameHeard m f = true)
    (hd : isDatagram m f = true) (hok : headerOk (pmcEvent m 0x1007 none) f.payload 1 = true)
    (ha : admits (pmcEvent m 0x1007 none) = true)
    (hs : splitCapsules (ncCount f.payload) (f.payload.drop 24) = some caps)
    (hc : capsulesOk (pmcEvent m 0x1007 none) f.payload caps = true) :
    opNctDataRx f m =
      let m1 := pmcEvent m 0x1007 none
      if ncSession f.payload = 0 then nctCapsules m1 f (ncTenant f.payload) 0 caps
      else if (sessOf m1 (ncTenant f.payload) (ncSession f.payload)).isNone then
        resetSession m1 f (ncTenant f.payload) (ncSession f.payload)
      else sessionData m1 f (ncTenant f.payload) (ncSession f.payload) caps := by
  unfold opNctDataRx
  rw [if_neg (by simp [hh]), if_neg (by simp [hd]), if_neg (by simp [hok, ha]), hs]
  refine (if_neg (by simp [hc])).trans ?_
  by_cases h0 : ncSession f.payload = 0 <;> simp only [h0, if_true, if_false]

/-- Settles O35: a datagram by its session and its sequence number, a timer by what it finds due. -/
theorem capsuleTransportCompletes : Obligations.CapsuleTransportCompletes := by
  intro t s m
  refine ⟨?_, ?_, ?_⟩
  · intro f caps b m1 hh hd hok ha hs hc
    have hgood := opNctDataRx_good hh hd hok ha hs hc
    constructor
    · intro h0
      exact acts_eq (hgood.trans (if_pos h0))
    · intro h0 hsess n0 n1 n2
      have hdata : opNctDataRx f m = sessionData m1 f (ncTenant b) (ncSession b) caps :=
        hgood.trans ((if_neg h0).trans (if_neg (by rw [← Option.not_isSome, hsess]; decide)))
      constructor
      · intro hold
        exact acts_eq (hdata.trans (if_pos hold))
      · intro hnew hroom n3
        exact acts_eq (hdata.trans ((if_neg (ne_true_of_eq_false hnew)).trans (if_neg (Nat.not_lt.mpr hroom))))
  · intro f b m1 hh hd hok hlen hcount hsess n
    have hgo : ¬ ((!headerOk m1 b 2) = true ∨ b.length ≠ 24 ∨ ncCount b ≠ 0) := by simp [hok, hlen, hcount]
    refine acts_eq (show opNctAckRx f m = _ from ?_)
    unfold opNctAckRx
    rw [if_neg (by simp [hh]), if_neg (by simp [hd])]
    exact (if_neg hgo).trans (if_neg (by rw [← Option.not_isSome, hsess]; decide))
  · intro ten sid n hn hp w
    refine ⟨?_, ?_, ?_⟩
    · intro d hd hdue
      refine acts_eq (show opAckDelay ten sid m = _ from ?_)
      simp only [opAckDelay, hn]
      refine if_pos ?_
      rw [hp, hd]
      exact decide_eq_true hdue
    · intro dsn x hx
      constructor
      · intro hlt y n1
        refine acts_eq (show opNctRetransmit ten sid dsn m = _ from ?_)
        simp only [opNctRetransmit, hn, hx]
        exact (if_neg (by simp [hp])).trans (if_pos hlt)
      · intro hge m1
        refine acts_eq (show opNctRetransmit ten sid dsn m = _ from ?_)
        simp only [opNctRetransmit, hn, hx]
        exact (if_neg (by simp [hp])).trans (if_neg (Nat.not_lt.mpr hge))
    · intro hdue
      refine acts_eq (show opNctCoalesce ten sid m = _ from ?_)
      simp only [opNctCoalesce, hn]
      exact if_pos (by rw [hp, decide_eq_true hdue]; rfl)

/-! ### Own addresses and ports -/

/-- An answer leaves where its next hop is known and its port sends (03 R94). -/
theorem answer_leaves {m : Mod} {f : NetFrame} {e : NetEntry} (o : NetHdr → Output)
    (hn : nextHop m f.port f.vlan f.v6 f.src = some e) (hs : netPortSends m f.port = true) :
    answer m f o = emit m (o (netHdr m f.port f.vlan f.v6 e.mac)) := by
  unfold answer sendFrame
  rw [hn]
  exact if_pos hs

/-- Settles O36: an answer by its next hop, a port's event under its hypotheses. -/
theorem netAnswersAndPortsComplete : Obligations.NetAnswersAndPortsComplete := by
  constructor
  · intro t s m
    constructor
    · intro f e hh hfit hn hs h
      have hheard : ¬ (!frameHeard m f) = true := by simp [hh]
      refine ⟨?_, ?_, ?_⟩
      · intro hv ha
        exact acts_eq (show opArpRequest f m = _ from
          (if_neg hheard).trans ((if_pos (by rw [hfit, hv, ha]; rfl)).trans (answer_leaves _ hn hs)))
      · intro hv ha
        exact acts_eq (show opNeighborSol f m = _ from
          (if_neg hheard).trans ((if_pos (by rw [hfit, hv, ha]; rfl)).trans (answer_leaves _ hn hs)))
      · intro ha
        exact acts_eq (show opEchoRequest f m = _ from
          (if_neg hheard).trans ((if_pos (by rw [hfit, ha]; rfl)).trans (answer_leaves _ hn hs)))
    · intro n link fec hp hn
      refine acts_eq (show opNetLink n link fec m = _ from if_neg ?_)
      simp [hp, hn]
  · intro t s p m
    refine ⟨?_, ?_, ?_, ?_, ?_, ?_⟩
    · intro addr hp hperst
      exact acts_eq (show opAtomicIo p m = _ from if_pos (by simp [hp, hperst]))
    · intro fn reg v hp hperst
      have hgo : ¬ ((!m.powered) = true ∨ (portOf m p).perst = true) := by simp [hp, hperst]
      constructor
      · intro w hready
        exact acts_eq (show opConfigRequest p fn w reg v m = _ from (if_neg hgo).trans (if_pos (by simp [hready])))
      · intro hready
        have hcfg : ¬ (!(portOf m p).cfgReady) = true := by simp [hready]
        constructor
        · exact acts_eq (show opConfigRequest p fn true reg v m = _ from
            (if_neg hgo).trans ((if_neg hcfg).trans (if_pos rfl)))
        · exact acts_eq (show opConfigRequest p fn false reg v m = _ from
            (if_neg hgo).trans ((if_neg hcfg).trans (if_neg (by decide))))
    · exact acts_eq rfl
    · exact acts_eq rfl
    · intro width gen hp hperst hg hg' hw hw'
      have hgo : ¬ ((!m.powered) = true ∨ (portOf m p).perst = true ∨ gen = 0 ∨ 5 < gen ∨ width = 0 ∨ 16 < width) := by
        simp only [hp, hperst, Bool.not_true, Bool.false_eq_true, false_or]
        omega
      exact acts_eq (show opLinkUp p width gen m = _ from if_neg hgo)
    · intro hup
      exact acts_eq (show opLinkLoss p m = _ from if_pos hup)

end Sys2Proof.Machine

/-! SUPPORT. Whole writes of a register, the headers of blocks, and REGISTER_WRITE (chapters 0 and 2). -/

namespace Sys2Proof.Machine

/-! ### A whole write -/

theorem and_ones (v : W32) : v &&& 0xFFFFFFFF#32 = v := BitVec.and_allOnes

/-- The low word of a whole write of a 32-bit register is what was written. -/
theorem merged_low (x : W64) (v : W32) : (merged x 0xFFFFFFFF (v.setWidth 64)).setWidth 32 = v := by
  simp [merged, BitVec.setWidth_or, BitVec.setWidth_and, and_ones]

theorem merged_mod {x : W64} {v : W32} : (merged x 0xFFFFFFFF (v.setWidth 64)).toNat % 2 ^ 32 = v.toNat := by
  rw [← BitVec.toNat_setWidth, merged_low]

theorem ofNat_merged {x : W64} {v : W32} : BitVec.ofNat 32 (merged x 0xFFFFFFFF (v.setWidth 64)).toNat = v :=
  BitVec.eq_of_toNat_eq merged_mod

theorem merged_testBit {x : W64} {v : W32} {i : Nat} (h : i < 32) :
    (merged x 0xFFFFFFFF (v.setWidth 64)).toNat.testBit i = v.getLsbD i := by
  rw [← Bool.true_and (Nat.testBit _ i), ← decide_eq_true h, ← Nat.testBit_mod_two_pow, merged_mod, BitVec.testBit_toNat]

theorem setWidth_masked (v : W32) : v.setWidth 64 &&& 0xFFFFFFFF = v.setWidth 64 := by
  rw [show (0xFFFFFFFF : W64) = (BitVec.allOnes 32).setWidth 64 from rfl, ← BitVec.setWidth_and, BitVec.and_allOnes]

theorem low32_setWidth (v : W32) : low32 (v.setWidth 64) = v := by
  unfold low32
  rw [BitVec.extractLsb'_setWidth_of_le (by decide), BitVec.extractLsb'_eq_self]

theorem low32_masked (v : W32) : low32 (v.setWidth 64 &&& 0xFFFFFFFF) = v := by
  rw [setWidth_masked, low32_setWidth]
theorem merged_all (x v : W64) : merged x 0xFFFFFFFFFFFFFFFF v = v := by
  have h : v &&& 0xFFFFFFFFFFFFFFFF#64 = v := BitVec.and_allOnes
  simp [merged, h]

/-- A setter that takes the low word takes what was written. -/
theorem rw_put (g : Mod → Nat) (f : W32 → Mod → Mod) (v : W32) (m : Mod) :
    (rw g (fun n m => f (BitVec.ofNat 32 n) m)).put 0xFFFFFFFF (v.setWidth 64) m = f v m :=
  congrArg (f · m) ofNat_merged

/-- An action on the bits written takes them all. -/
theorem wo_put (f : W64 → Mod → Mod) (v : W32) (m : Mod) :
    (wo f).put 0xFFFFFFFF (v.setWidth 64) m = f (v.setWidth 64) m :=
  congrArg (f · m) (setWidth_masked v)

theorem w1c_put (g : Mod → Nat) (f : W32 → Mod → Mod) (v : W32) (m : Mod) :
    (w1c g (fun x m => f (low32 x) m)).put 0xFFFFFFFF (v.setWidth 64) m = f v m :=
  congrArg (f · m) (low32_masked v)

/-! ### The control word -/

theorem blkRegs_head (e : RegEnv) (b : Blk) (off : Nat) : blkRegs e b 0 off = headRegs b off := by cases b <;> rfl

/-- A granted write of a block's control word is `ctlWrite`, of the word as the row makes it. -/
theorem ctl_written {t : Nat} {s : State} {ini : Initiator} {b : Blk} {f : W32 → W32}
    (h : WritesReg (s.now t) ini b 0 0x08) :
    accesses t (rowBlkCtl ini b f) s = left t s (ctlWrite b (f (ctlRead (s.now t) b)) (s.now t)) :=
  (blk_write (row := rowBlkCtl ini b f) h rfl (by decide) (by decide) (by decide) (blkRegs_head _ b _)
    (congrArg (Option.filter _) (blkRegs_head _ b _)) (by simp)).trans (congrArg (left t s) (rw_put _ (ctlWrite b) _ _))

theorem updBlk_congr {m : Mod} {b : Blk} {f g : BlkHdr → BlkHdr} (h : f (blkOf m b) = g (blkOf m b)) :
    updBlk m b f = updBlk m b g := by
  unfold updBlk tblUpd
  rw [show f (tblGet BlkHdr.reset m.blk b.idx) = _ from h]
  rfl

/-- A control word that keeps ENABLE, or finds the block quiesced, is stored: of a block that cannot be stopped, its
two low bits are not (02 R37). -/
theorem ctlWrite_stored {m : Mod} {b : Blk} {w : W32} {g : BlkHdr → BlkHdr}
    (hgo : fixedBlk b = true ∨ w.getLsbD 0 = true ∨ quiesced m b = true)
    (hg : { blkOf m b with
      ctl := (w &&& 0xFF000000) ||| (if fixedBlk b then (blkOf m b).ctl &&& 3 else w &&& 3), testReq := w.getLsbD 2 } =
      g (blkOf m b)) : ctlWrite b w m = updBlk m b g := by
  have hno : ¬ (!fixedBlk b && !w.getLsbD 0 && !quiesced m b) = true := by
    rcases hgo with h | h | h <;>
      simp only [h, Bool.not_true, Bool.false_and, Bool.and_false, Bool.false_eq_true, not_false_eq_true]
  exact (if_neg hno).trans (updBlk_congr hg)

/-- What a control word becomes whose bits under `off` are cleared and whose bits `on` are set. -/
def ctlWord (c : W32) (req : Bool) (off on : W32) : W32 :=
  (((c &&& 0xFF000003) ||| (if req then 4 else 0)) &&& ~~~off) ||| on

/-- QUIESCE written keeps ENABLE and the request of a test. -/
theorem ctlWord_quiesce (c : W32) (req v : Bool) :
    let w := ctlWord c req 2 (if v then 2 else 0)
    w &&& 0xFF000000 = c &&& 0xFF000000 ∧ w &&& 3 = (c &&& 1) ||| (if v then 2 else 0) ∧ w.getLsbD 0 = c.getLsbD 0 ∧
      w.getLsbD 2 = req := by
  cases req <;> cases v <;> simp [ctlWord, BitVec.and_or_distrib_right, BitVec.and_assoc]

/-- ENABLE written keeps QUIESCE and the request of a test. -/
theorem ctlWord_enable (c : W32) (req v : Bool) :
    let w := ctlWord c req 1 (if v then 1 else 0)
    w &&& 0xFF000000 = c &&& 0xFF000000 ∧ w &&& 3 = (c &&& 2) ||| (if v then 1 else 0) ∧ w.getLsbD 0 = v ∧
      w.getLsbD 2 = req := by
  cases req <;> cases v <;> simp [ctlWord, BitVec.and_or_distrib_right, BitVec.and_assoc]

/-- A requested self-test keeps QUIESCE and ENABLE. -/
theorem ctlWord_request (c : W32) (req : Bool) :
    let w := ((c &&& 0xFF000003) ||| (if req then 4 else 0)) ||| 4
    w &&& 0xFF000000 = c &&& 0xFF000000 ∧ w &&& 3 = c &&& 3 ∧ w.getLsbD 0 = c.getLsbD 0 ∧ w.getLsbD 2 = true := by
  cases req <;> simp [BitVec.and_or_distrib_right, BitVec.and_assoc]

/-- The bits a write keeps, taken apart and put together again. -/
theorem keep_low (c low x : W32) : (c &&& 0xFF000000) ||| ((c &&& low) ||| x) = (c &&& (0xFF000000 ||| low)) ||| x := by
  rw [← BitVec.or_assoc, ← BitVec.and_or_distrib_left]

theorem keep_both (c : W32) : (c &&& 0xFF000000) ||| (c &&& 3) = c &&& 0xFF000003 := by
  rw [← BitVec.and_or_distrib_left]
  rfl

/-- A block that software can stop takes QUIESCE and ENABLE as written. -/
theorem ctlWrite_free {m : Mod} {b : Blk} {w low on : W32} (hf : fixedBlk b = false)
    (hgo : w.getLsbD 0 = true ∨ quiesced m b = true) (hhigh : w &&& 0xFF000000 = (blkOf m b).ctl &&& 0xFF000000)
    (hlow : w &&& 3 = ((blkOf m b).ctl &&& low) ||| on) (htest : w.getLsbD 2 = (blkOf m b).testReq) :
    ctlWrite b w m = updBlk m b (fun h => { h with ctl := (h.ctl &&& (0xFF000000 ||| low)) ||| on }) := by
  refine ctlWrite_stored (Or.inr hgo) ?_
  simp only [hf, Bool.false_eq_true, if_false, hhigh, hlow, htest, keep_low]

/-- A block that software cannot stop keeps both. -/
theorem ctlWrite_fixed {m : Mod} {b : Blk} {w : W32} (hf : fixedBlk b = true)
    (hhigh : w &&& 0xFF000000 = (blkOf m b).ctl &&& 0xFF000000) (htest : w.getLsbD 2 = (blkOf m b).testReq) :
    ctlWrite b w m = updBlk m b (fun h => { h with ctl := (h.ctl &&& 0xFF000003) ||| 0 }) := by
  refine ctlWrite_stored (Or.inl hf) ?_
  simp only [hf, if_true, hhigh, htest, keep_both, show ∀ x : W32, x ||| 0 = x from fun _ => BitVec.or_zero]

/-- A self-test requested is stored beside the bits the block holds. -/
theorem ctlWrite_request {m : Mod} {b : Blk}
    (hgo : fixedBlk b = true ∨ (blkOf m b).ctl.getLsbD 0 = true ∨ quiesced m b = true) :
    ctlWrite b (ctlRead m b ||| 4) m =
      updBlk m b (fun h => { h with ctl := h.ctl &&& 0xFF000003, testReq := true }) := by
  obtain ⟨hhigh, hlow, hen, htest⟩ := ctlWord_request (blkOf m b).ctl (blkOf m b).testReq
  refine ctlWrite_stored (hgo.imp_right (Or.imp_left hen.trans)) ?_
  simp only [ctlRead, hhigh, hlow, htest, ite_self, keep_both]

/-! ### The rows of the control word -/

theorem blkQuiesce_leaves {t : Nat} {s : State} {ini : Initiator} {b : Blk} {v : Bool} {m1 : Mod}
    (h : WritesReg (s.now t) ini b 0 0x08)
    (hw : let x := blkOf (s.now t) b
      ctlWrite b (ctlWord x.ctl x.testReq 2 (if v then 2 else 0)) (s.now t) = m1) :
    Leaves (.blkQuiesce t ini b v) t s m1 :=
  (ctl_written h).trans (congrArg (left t s) hw)

theorem blkEnable_leaves {t : Nat} {s : State} {ini : Initiator} {b : Blk} {v : Bool} {m1 : Mod}
    (h : WritesReg (s.now t) ini b 0 0x08)
    (hw : let x := blkOf (s.now t) b
      ctlWrite b (ctlWord x.ctl x.testReq 1 (if v then 1 else 0)) (s.now t) = m1) :
    Leaves (.blkEnable t ini b v) t s m1 :=
  (ctl_written h).trans (congrArg (left t s) hw)

theorem selftestReq_leaves {t : Nat} {s : State} {ini : Initiator} {b : Blk} {m1 : Mod}
    (h : WritesReg (s.now t) ini b 0 0x08) (hw : ctlWrite b (ctlRead (s.now t) b ||| 4) (s.now t) = m1) :
    Leaves (.selftestReq t ini b) t s m1 :=
  (ctl_written (f := fun x => x ||| 4) h).trans (congrArg (left t s) hw)

/-! ### Interrupt status -/

theorem heldBits_eq (m : Mod) (b : Blk) :
    heldBits m b =
      if (b = .ssv ∧ m.ssv.latch ≠ 0) ∨ (b = .sch ∧ m.sch.overflow.isEmpty = false) then 1
      else if b = .khs ∧ kstHigh m = true then 8
      else if b = .kch then stashBits m.kch.stash.length &&& 3
      else 0 := by
  simp only [heldBits, Bool.not_eq_true']

/-- Settles O37: a control word is stored by its bits; the status registers' writes are `clearInt` and `testInt`. -/
theorem blockHeadersComplete : Obligations.BlockHeadersComplete := by
  constructor
  · intro t s ini b m h set
    have hq := ctlWord_quiesce (blkOf m b).ctl (blkOf m b).testReq
    have he := ctlWord_enable (blkOf m b).ctl (blkOf m b).testReq
    constructor
    · intro hf
      refine ⟨?_, ?_, ?_, ?_, ?_⟩
      · intro v hgo
        obtain ⟨hhigh, hlow, hen, htest⟩ := hq v
        exact blkQuiesce_leaves h (ctlWrite_free (low := 1) hf (hgo.imp_left hen.trans) hhigh hlow htest)
      · obtain ⟨hhigh, hlow, hen, htest⟩ := he true
        exact blkEnable_leaves h (ctlWrite_free (low := 2) (on := 1) hf (Or.inl hen) hhigh hlow htest)
      · intro hqs
        obtain ⟨hhigh, hlow, hen, htest⟩ := he false
        exact blkEnable_leaves h (ctlWrite_free (low := 2) (on := 0) hf (Or.inr hqs) hhigh hlow htest)
      · intro hqs
        obtain ⟨-, -, hen, -⟩ := he false
        exact blkEnable_leaves h (if_pos (by rw [hf, hqs, hen]; rfl))
      · intro hgo
        exact selftestReq_leaves h (ctlWrite_request (Or.inr hgo))
    · intro hf
      refine ⟨fun v => ⟨?_, ?_⟩, ?_⟩
      · obtain ⟨hhigh, -, -, htest⟩ := hq v
        exact blkQuiesce_leaves h (ctlWrite_fixed hf hhigh htest)
      · obtain ⟨hhigh, -, -, htest⟩ := he v
        exact blkEnable_leaves h (ctlWrite_fixed hf hhigh htest)
      · exact selftestReq_leaves h (ctlWrite_request (Or.inl hf))
  · intro t s ini b v m
    constructor
    · intro h x held m1
      refine (blk_write (row := rowIntStatClear ini b v) h rfl (by decide) (by decide) (by decide) (blkRegs_head _ b _)
        (congrArg (Option.filter _) (blkRegs_head _ b _)) (by simp)).trans (congrArg (left t s) ?_)
      refine (w1c_put _ (clearInt b) v m).trans ?_
      unfold clearInt
      rw [heldBits_eq]
    · intro h
      exact (blk_write (row := rowIntTest ini b v) h rfl (by decide) (by decide) (by decide) (blkRegs_head _ b _)
        (congrArg (Option.filter _) (blkRegs_head _ b _)) (by simp)).trans
          (congrArg (left t s) ((wo_put _ v m).trans (congrArg (testInt b · m) (low32_setWidth v))))

/-! ### REGISTER_WRITE -/

/-- A grant does not rest on the free choice drawn before an access. -/
theorem Granted.afterChoice {m : Mod} {a : Access} {sp : Space} {off : Nat} (h : Granted m a sp off) :
    Granted (afterChoice m) a sp off := h

/-- A granted 32-bit write to a reserved offset does nothing (02 R33). -/
theorem granted_reserved {m : Mod} {e : RegEnv} {ini : Initiator} {addr off : Nat} {v : W32} {sp : Space}
    (h : Granted m (write32 ini addr v) sp off) (h4 : off % 4 = 0) (hr : regAt e sp off = none)
    (hw : (regAt e sp (off / 8 * 8)).filter (fun r => r.wide) = none) : regAccess e (write32 ini addr v) m = m := by
  obtain ⟨ha, hs, hj⟩ := h
  have ha' : arrives m (write32 ini addr v).ini = true := ha
  unfold regAccess
  rw [ha']
  simp only [hs, hj]
  rw [dwords_word rfl rfl h4]
  simp only [perform, hw, hr]
  rfl

/-- A granted access of REGISTER_WRITE completes as its effect after the draw. -/
theorem registerWrite_granted {t : Nat} {s : State} {ini : Initiator} {addr off : Nat} {v : W32} {sp : Space} {m1 : Mod}
    (h : Granted (s.now t) (write32 ini addr v) sp off) (h4 : off % 4 = 0)
    (hn : sp = .inner → off ≠ 0x1E1020 ∧ off ≠ 0x1E1028)
    (hm : let n := choice (s.now t)
      regAccess (envOf ini (BitVec.ofNat 32 n) (n / 2 ^ 32 % 2 == 1) (n / 2 ^ 33 % 2 == 1)) (write32 ini addr v)
        (Machine.afterChoice (s.now t)) = m1) :
    Leaves (.registerWrite t (write32 ini addr v)) t s m1 := by
  refine (exec_registerWrite t _ s).trans (accessesFree_eq rfl hm (granted_acu h ?_))
  by_cases hsp : sp = .inner
  · rw [dwords_word rfl rfl h4]
    exact Or.inr (Or.inr (by simp [hn hsp]))
  · exact Or.inr (Or.inl hsp)

/-- Settles O44: a granted write of one doubleword is its register's, or nobody's. -/
theorem registerWriteCompletes : Obligations.RegisterWriteCompletes := by
  intro t s ini sp off addr v m n e hg h4 hn hw
  exact ⟨fun r hr => registerWrite_granted hg h4 hn (granted_write32 hg.afterChoice h4 hr hw),
    fun hr => registerWrite_granted hg h4 hn (granted_reserved hg.afterChoice h4 hr hw)⟩

end Sys2Proof.Machine

/-! SUPPORT. Registers of queue pairs, admin queues and direct FIFOs (chapter 3). -/

namespace Sys2Proof.Machine

/-! ### Queue pairs -/

theorem below_four {n : Nat} (h : n < 4) : n = 0 ∨ n = 1 ∨ n = 2 ∨ n = 3 := by omega

/-- A granted write to a register of a queue pair is that register's. -/
theorem qp_write {t : Nat} {s : State} {ini : Initiator} {ten q o : Nat} {v : W32} {r : Reg} (hq : q < 4)
    (h : WritesWindow (s.now t) ini ten (0x1000 + 0x100 * q + o)) (h4 : o % 4 = 0)
    (hr : regAt (envOf ini 0 true true) (.window ten) (0x1000 + 0x100 * q + o) = some r)
    (hw : (regAt (envOf ini 0 true true) (.window ten) ((0x1000 + 0x100 * q + o) / 8 * 8)).filter (fun r => r.wide) = none) :
    accesses t (qpWrite ini ten q o v) s = left t s (r.put 0xFFFFFFFF (v.setWidth 64) (s.now t)) := by
  unfold qpWrite
  rw [if_pos hq]
  exact window_write h (by omega) hr hw

theorem qpSqTail_written {t : Nat} {s : State} {ini : Initiator} {ten q : Nat} {v : W32} {m1 : Mod} (hq : q < 4)
    (h : WritesWindow (s.now t) ini ten (0x1000 + 0x100 * q + 0x0C)) (hm : qpSqTail ten q v (s.now t) = m1) :
    Leaves (.qpSqTailDoorbell t ini ten q v) t s m1 := by
  refine (qp_write (r := rw (fun m => (qpOf m ten q).sqTail) (fun n m => qpSqTail ten q (BitVec.ofNat 32 n) m)) hq h rfl
    ?_ ?_).trans (congrArg (left t s) ((rw_put _ (qpSqTail ten q) v _).trans hm)) <;> rcases below_four hq with rfl | rfl | rfl | rfl <;> rfl

theorem qpCqHead_written {t : Nat} {s : State} {ini : Initiator} {ten q : Nat} {v : W32} {m1 : Mod} (hq : q < 4)
    (h : WritesWindow (s.now t) ini ten (0x1000 + 0x100 * q + 0x1C)) (hm : qpCqHead ten q v (s.now t) = m1) :
    Leaves (.qpCqHeadDoorbell t ini ten q v) t s m1 := by
  refine (qp_write (r := rw (fun m => (qpOf m ten q).cqHead) (fun n m => qpCqHead ten q (BitVec.ofNat 32 n) m)) hq h rfl
    ?_ ?_).trans (congrArg (left t s) ((rw_put _ (qpCqHead ten q) v _).trans hm)) <;> rcases below_four hq with rfl | rfl | rfl | rfl <;> rfl

/-- The bits of QP_CTL as the rows write them: ENABLE, and INT_EN. -/
theorem qpCtl_on (intEn : Bool) :
    (if intEn then 3 else 1 : W32).getLsbD 0 = true ∧ (if intEn then 3 else 1 : W32).getLsbD 1 = intEn := by
  cases intEn <;> decide

theorem qpCtl_off (intEn : Bool) :
    (if intEn then 2 else 0 : W32).getLsbD 0 = false ∧ (if intEn then 2 else 0 : W32).getLsbD 1 = intEn := by
  cases intEn <;> decide

/-- A write of QP_CTL enables or disables by its bit 0, and takes INT_EN from its bit 1. -/
theorem qpCtl_written {t : Nat} {s : State} {ini : Initiator} {ten q : Nat} {v : W32} (hq : q < 4)
    (h : WritesWindow (s.now t) ini ten (0x1000 + 0x100 * q + 0x20)) :
    accesses t (qpWrite ini ten q 0x20 v) s =
      left t s (if v.getLsbD 0 then qpEnableEff ten q (v.getLsbD 1) (s.now t)
        else qpDisableEff ten q (v.getLsbD 1) (s.now t)) := by
  refine (qp_write (r := rw (fun m => bitAt 0 (qpOf m ten q).enable + bitAt 1 (qpOf m ten q).intEn)
    (fun n m => qpCtl ten q n m)) hq h rfl ?_ ?_).trans (congrArg (left t s) ?_)
  · rcases below_four hq with rfl | rfl | rfl | rfl <;> rfl
  · rcases below_four hq with rfl | rfl | rfl | rfl <;> rfl
  · simp only [rw, qpCtl]
    rw [merged_testBit (by decide), merged_testBit (by decide)]

theorem qpSqBase_written {t : Nat} {s : State} {ini : Initiator} {ten q : Nat} {v : W32} {m1 : Mod} (hi : Bool) (hq : q < 4)
    (h : WritesWindow (s.now t) ini ten (0x1000 + 0x100 * q + (if hi then 0x04 else 0)))
    (hm : qpSqBase ten q ((hostPort ini).getD .a) hi v (s.now t) = m1) :
    Leaves (.qpSqBaseWrite t ini ten q hi v) t s m1 := by
  cases hi with
  | false =>
    refine (qp_write (r := rw (fun m => (qpOf m ten q).sqBase.toNat % 2 ^ 32)
      (fun n m => qpSqBase ten q ((hostPort ini).getD .a) false (BitVec.ofNat 32 n) m)) hq h rfl ?_ ?_).trans
      (congrArg (left t s) ((rw_put _ (qpSqBase ten q _ false) v _).trans hm)) <;> rcases below_four hq with rfl | rfl | rfl | rfl <;> rfl
  | true =>
    refine (qp_write (r := rw (fun m => (qpOf m ten q).sqBase.toNat / 2 ^ 32)
      (fun n m => qpSqBase ten q ((hostPort ini).getD .a) true (BitVec.ofNat 32 n) m)) hq h rfl ?_ ?_).trans
      (congrArg (left t s) ((rw_put _ (qpSqBase ten q _ true) v _).trans hm)) <;> rcases below_four hq with rfl | rfl | rfl | rfl <;> rfl

/-- Settles O38: each register's write is its effect, which splits as the statement does. -/
theorem queuePairRegistersComplete : Obligations.QueuePairRegistersComplete := by
  intro t s ini ten q v m hq at' x n bad
  refine ⟨?_, ?_, ?_, ?_⟩
  · intro h
    exact ⟨fun hin => qpSqTail_written hq h (if_neg (Nat.not_le.mpr hin)), fun hout => qpSqTail_written hq h (if_pos hout)⟩
  · intro h
    exact ⟨fun hin => qpCqHead_written hq h (if_neg (Nat.not_le.mpr hin)), fun hout => qpCqHead_written hq h (if_pos hout)⟩
  · intro h intEn
    have henable : exec (.qpEnable t ini ten q intEn) s = left t s (qpEnableEff ten q intEn m) := by
      refine (qpCtl_written (v := if intEn then 3 else 1) hq h).trans (congrArg (left t s) ?_)
      rw [(qpCtl_on intEn).1, (qpCtl_on intEn).2, if_pos rfl]
    refine ⟨?_, ?_, ?_⟩
    · intro hoff
      exact henable.trans (congrArg (left t s) (if_neg (ne_true_of_eq_false hoff)))
    · intro hon
      exact henable.trans (congrArg (left t s) (if_pos hon))
    · refine (qpCtl_written (v := if intEn then 2 else 0) hq h).trans (congrArg (left t s) ?_)
      rw [(qpCtl_off intEn).1, (qpCtl_off intEn).2, if_neg Bool.false_ne_true]
      rfl
  · intro hi h hrest
    exact qpSqBase_written hi hq h (if_neg (ne_true_of_eq_false hrest))

/-! ### Admin queues -/

section

variable {t : Nat} {s : State} {p : Port} {v : W32} {m1 : Mod}

theorem admqSqTail_written (h : Granted (s.now t) (write32 (.pf p) 0x4C 0) .inner 0x4C)
    (hm : admqSqTailEff p v (s.now t) = m1) : Leaves (.admqSqTailDoorbell t p v) t s m1 :=
  (dev_write h rfl (by decide) rfl rfl).trans (congrArg (left t s) ((rw_put _ (admqSqTailEff p) v _).trans hm))

theorem admqCqHead_written (h : Granted (s.now t) (write32 (.pf p) 0x5C 0) .inner 0x5C)
    (hm : admqCqHeadEff p v (s.now t) = m1) : Leaves (.admqCqHeadDoorbell t p v) t s m1 :=
  (dev_write h rfl (by decide) rfl rfl).trans (congrArg (left t s) ((rw_put _ (admqCqHeadEff p) v _).trans hm))

theorem admqSqSize_written (h : Granted (s.now t) (write32 (.pf p) 0x48 0) .inner 0x48)
    (hm : admqSqSizeEff p v (s.now t) = m1) : Leaves (.admqSqSizeWrite t p v) t s m1 :=
  (dev_write h rfl (by decide) rfl rfl).trans (congrArg (left t s) ((rw_put _ (admqSqSizeEff p) v _).trans hm))

theorem admqCqSize_written (h : Granted (s.now t) (write32 (.pf p) 0x58 0) .inner 0x58)
    (hm : admqCqSizeEff p v (s.now t) = m1) : Leaves (.admqCqSizeWrite t p v) t s m1 :=
  (dev_write h rfl (by decide) rfl rfl).trans (congrArg (left t s) ((rw_put _ (admqCqSizeEff p) v _).trans hm))

end

/-- The sizes an admin queue accepts (03 R487). -/
theorem admqSizeOk_iff (n : Nat) : admqSizeOk n = true ↔ n = 0 ∨ 2 ≤ n ∧ n ≤ 4096 := by
  simp [admqSizeOk]

/-- Settles O39: each register's write is its effect, which splits as the statement does. -/
theorem adminQueueRegistersComplete : Obligations.AdminQueueRegistersComplete := by
  intro t s p v m grant x n size bad
  have hok : (size = 0 ∨ 2 ≤ size ∧ size ≤ 4096) → ¬ (!admqSizeOk size) = true := fun h => by
    simp [(admqSizeOk_iff size).mpr h]
  have hbad : (size = 1 ∨ 4096 < size) → (!admqSizeOk size) = true := fun h => by
    have hno : ¬ admqSizeOk size = true := fun hyes => by
      have := (admqSizeOk_iff size).mp hyes
      omega
    simp [hno]
  refine ⟨?_, ?_, ?_, ?_⟩
  · intro h
    exact ⟨fun hin => admqSqTail_written h (if_neg (Nat.not_le.mpr hin)), fun hout => admqSqTail_written h (if_pos hout)⟩
  · intro h
    exact ⟨fun hin => admqCqHead_written h (if_neg (Nat.not_le.mpr hin)), fun hout => admqCqHead_written h (if_pos hout)⟩
  · intro h
    exact ⟨fun hs => admqSqSize_written h (if_neg (hok hs)), fun hs => admqSqSize_written h (if_pos (hbad hs))⟩
  · intro h
    exact ⟨fun hs => admqCqSize_written h (if_neg (hok hs)), fun hs => admqCqSize_written h (if_pos (hbad hs))⟩

/-! ### Direct FIFOs -/

section

variable {t : Nat} {s : State} {ini : Initiator} {ten : Nat} {m1 : Mod}

theorem word_masked (v : W64) : v &&& 0xFFFFFFFFFFFFFFFF = v := BitVec.and_allOnes

theorem cmdPush_written {w : W64} (h : ReachesWindow (s.now t) ini ten 0x2000 (fun a => write64 ini a w))
    (hm : fifoPush ten w (s.now t) = m1) : Leaves (.cmdPush t ini ten w) t s m1 :=
  (window_write64 (r := wo64 (fifoPush ten)) h rfl rfl rfl).trans (congrArg (left t s)
    ((congrArg (fifoPush ten · (s.now t)) (word_masked w)).trans hm))

theorem cplPop_read {w : W64} (h : ReachesWindow (s.now t) ini ten 0x2010 (fun a => read64 ini a))
    (hm : cplPopEff ten (s.now t) = (w, m1)) :
    Leaves (.cplPop t ini ten) t s (emit m1 (.readData (natLe 8 w.toNat))) := by
  have hread := window_read64 (r := pop64 (cplPopEff ten)) h rfl rfl rfl
  rw [show (pop64 (cplPopEff ten)).read (s.now t) = (w, m1) from hm] at hread
  exact hread

theorem cplCtl_written {v : W32} (h : WritesWindow (s.now t) ini ten 0x2018)
    (hm : cplCtl ten (v.setWidth 64) (s.now t) = m1) : accesses t (windowWrite ini ten 0x2018 v) s = left t s m1 :=
  (window_write (r := wo (cplCtl ten)) h rfl rfl rfl).trans (congrArg (left t s) ((wo_put (cplCtl ten) v _).trans hm))

end

section

variable {ten : Nat} {w : W64} {m : Mod}

/-- A word of a torn command is counted off; one pushed into a full FIFO is reported again (03 R78). -/
theorem fifoPush_discards (hd : (tenOf m ten).fifo.discard ≠ 0) (hl : (tenOf m ten).fifo.push.length < 512) :
    fifoPush ten w m = updFifo m ten (fun x => { x with discard := x.discard - 1 }) := by
  have hroom : decide (512 ≤ (tenOf m ten).fifo.push.length) = false := decide_eq_false (Nat.not_le.mpr hl)
  unfold fifoPush
  rw [if_pos hd, hroom]
  simp only [discardWord, Bool.or_false, Bool.false_eq_true, if_false]

theorem fifoPush_discards_full (hd : (tenOf m ten).fifo.discard ≠ 0) (hl : 512 ≤ (tenOf m ten).fifo.push.length) :
    fifoPush ten w m =
      raiseTen (updFifo m ten (fun x => { x with discard := x.discard - 1, overrun := true })) ten 1 := by
  unfold fifoPush
  rw [if_pos hd, decide_eq_true hl]
  simp only [discardWord, Bool.or_true, if_true]

/-- A word joins the command being assembled, or begins one as its descriptor; another is reported. -/
theorem fifoPush_joins (hd : (tenOf m ten).fifo.discard = 0) (hl : (tenOf m ten).fifo.push.length < 512)
    (hok : partWords (tenOf m ten).fifo ≠ [] ∨ descOk w = true) :
    fifoPush ten w m = updFifo m ten (fun x => { x with push := x.push ++ [w], stamps := x.stamps ++ [stampNow m] }) := by
  have hgo : ¬ (partWords (tenOf m ten).fifo = [] ∧ (!descOk w) = true) := by
    rintro ⟨hpart, hbad⟩
    exact hok.elim (· hpart) (fun h => by simp [h] at hbad)
  unfold fifoPush
  rw [if_neg (not_not_intro hd), if_neg (Nat.not_le.mpr hl), if_neg hgo]

theorem fifoPush_misframed (hd : (tenOf m ten).fifo.discard = 0) (hl : (tenOf m ten).fifo.push.length < 512)
    (hpart : partWords (tenOf m ten).fifo = []) (hbad : descOk w = false) :
    fifoPush ten w m = raiseTen (updFifo m ten (fun x => { x with frameErr := true })) ten 1 := by
  unfold fifoPush
  rw [if_neg (not_not_intro hd), if_neg (Nat.not_le.mpr hl), if_pos ⟨hpart, by simp [hbad]⟩]

/-- The words still to come of the command that a word finds being assembled. -/
def tornRest (w : W64) : List W64 → Nat
  | [] => if descOk w then descWords w - 1 else 0
  | d :: r => descWords d - (r.length + 2)

/-- A word pushed into a full FIFO tears its command: what is held of it goes, and what is still to come is discarded. -/
theorem fifoPush_tears {part : List W64} (hpart : partWords (tenOf m ten).fifo = part)
    (hd : (tenOf m ten).fifo.discard = 0) (hl : 512 ≤ (tenOf m ten).fifo.push.length) :
    fifoPush ten w m = raiseTen (updFifo m ten (fun y => { cutPart y with
      discard := tornRest w part, overrun := true, frameErr := y.frameErr || (part == [] && !descOk w) })) ten 1 := by
  subst hpart
  exact (if_neg (not_not_intro hd)).trans (if_pos hl)

end

theorem cplCtl_flush (ten : Nat) (m : Mod) : cplCtl ten ((1 : W32).setWidth 64) m = cplFlushEff ten m := by
  have h0 : ((1 : W32).setWidth 64).getLsbD 0 = true := by decide
  have h1 : ((1 : W32).setWidth 64).getLsbD 1 = false := by decide
  simp only [cplCtl, h0, h1, if_true, Bool.false_eq_true, if_false]

theorem cplCtl_drop (ten : Nat) (m : Mod) : cplCtl ten ((2 : W32).setWidth 64) m = cmdDropEff ten m := by
  have h0 : ((2 : W32).setWidth 64).getLsbD 0 = false := by decide
  have h1 : ((2 : W32).setWidth 64).getLsbD 1 = true := by decide
  simp only [cplCtl, h0, h1, if_true, Bool.false_eq_true, if_false]

/-- Settles O40: each register's access is its effect, which splits as the statement does. -/
theorem fifoRegistersComplete : Obligations.FifoRegistersComplete := by
  intro t s ini ten m x
  subst x m
  refine ⟨?_, ?_, ?_⟩
  · intro w h
    refine ⟨?_, ?_, ?_, ?_, ?_⟩
    · intro hd hl
      exact cmdPush_written h (fifoPush_discards hd hl)
    · intro hd hl
      exact cmdPush_written h (fifoPush_discards_full hd hl)
    · intro hd hl hok
      exact cmdPush_written h (fifoPush_joins hd hl hok)
    · intro hd hl hpart hbad
      exact cmdPush_written h (fifoPush_misframed hd hl hpart hbad)
    · intro hd hl
      obtain ⟨part, hpart⟩ : ∃ part, partWords (tenOf (s.now t) ten).fifo = part := ⟨_, rfl⟩
      rw [hpart]
      intro rest
      have hrest : rest = tornRest w part := by cases part <;> rfl
      rw [hrest]
      exact cmdPush_written h (fifoPush_tears hpart hd hl)
  · intro h
    refine ⟨?_, ?_, ?_⟩
    · intro w r hleft
      refine cplPop_read h ?_
      simp only [cplPopEff, show (tenOf (s.now t) ten).fifo.left = w :: r from hleft]
    · intro c r hleft hcpl
      refine cplPop_read h ?_
      simp only [cplPopEff, show (tenOf (s.now t) ten).fifo.left = [] from hleft,
        show (tenOf (s.now t) ten).fifo.cpl = c :: r from hcpl]
    · intro hleft hcpl
      refine cplPop_read (w := 0) h ?_
      simp only [cplPopEff, show (tenOf (s.now t) ten).fifo.left = [] from hleft,
        show (tenOf (s.now t) ten).fifo.cpl = [] from hcpl]
  · intro h
    exact ⟨cplCtl_written h (cplCtl_flush ten _), cplCtl_written h (cplCtl_drop ten _)⟩

end Sys2Proof.Machine

/-! SUPPORT. Settings of the blocks, and the registers of the supervisor and of the life-cycle block (chapters 3, 4, 6, 12,
15 and 16). -/

namespace Sys2Proof.Machine

/-! ### Settings -/

section

variable {t : Nat} {s : State} {ini : Initiator} {v : W32} {m1 : Mod}

theorem schAge_written (h : WritesReg (s.now t) ini .sch 1 0x120) (hm : schAgeWrite v (s.now t) = m1) :
    Leaves (.schAgeWrite t ini v) t s (noteSealed m1) :=
  (blk_write (row := rowSchAge ini v) h rfl (by decide) (by decide) (by decide) rfl rfl (by simp)).trans
    (congrArg (fun x => left t s (noteSealed x)) ((rw_put _ schAgeWrite v _).trans hm))

theorem rehashStart_written (h : WritesReg (s.now t) ini .kch 1 0x120) (hm : rehashStart (s.now t) = m1) :
    Leaves (.rehashStart t ini) t s m1 :=
  (blk_write (row := rowRehashStart ini) h rfl (by decide) (by decide) (by decide) rfl rfl (by simp)).trans
    (congrArg (left t s) ((wo_put (fun v m => if v.getLsbD 0 then rehashStart m else m) 1 _).trans hm))

theorem vfBind_written {p : Port} (h : WritesReg (s.now t) ini .cmq 1 (0x180 + 4 * p.idx))
    (hm : ∀ n : Nat, n % 2 ^ 32 = v.toNat → vfBind (s.now t).cmq.tsel p n (s.now t) = m1) :
    Leaves (.vfBindWrite t ini p v) t s (noteSealed m1) := by
  cases p
  · exact (blk_write (row := rowVfBind ini .a v) h rfl (by decide) (by decide) (by decide) rfl rfl (by simp)).trans
      (congrArg (fun x => left t s (noteSealed x)) (hm _ merged_mod))
  · exact (blk_write (row := rowVfBind ini .b v) h rfl (by decide) (by decide) (by decide) rfl rfl (by simp)).trans
      (congrArg (fun x => left t s (noteSealed x)) (hm _ merged_mod))

/-- A path configuration is taken by the bits of the word written. -/
theorem tcfg_written (h : WritesReg (s.now t) ini .cmq 1 0x110) :
    let m := s.now t
    Leaves (.cmqTcfgWrite t ini v) t s
      (noteSealed (noteFifoPort (updTen m m.cmq.tsel (fun h =>
        { h with attA := v.getLsbD 0, attB := v.getLsbD 1, attNet := v.getLsbD 2,
                 fifoPortNew := if h.fifoPort = portOfBit (v.getLsbD 4) then none else some (portOfBit (v.getLsbD 4)) }))
        m.cmq.tsel)) := by
  refine (blk_write (row := rowTcfg ini v) h rfl (by decide) (by decide) (by decide) rfl rfl (by simp)).trans
    (congrArg (fun x => left t s (noteSealed x)) ?_)
  simp only [rw, tcfgWrite]
  rw [merged_testBit (by decide), merged_testBit (by decide), merged_testBit (by decide), merged_testBit (by decide)]

theorem bsxWin_base_written {w : W64} (h : Granted (s.now t) (write64 ini (blkAddr .bsx 1 0x108) w) .inner (blkAddr .bsx 1 0x108)) :
    Leaves (.bsxWinWrite t ini .base w) t s (noteSealed (bsxWinWrite .base w (s.now t))) :=
  (blk_write64 h (by decide) (by decide) (by decide) rfl rfl (by simp)).trans
    (congrArg (fun x => left t s (noteSealed (bsxWinWrite .base x (s.now t)))) (merged_all _ w))

end

/-- A window's size and control word are judged by their low word alone. -/
theorem winWrite_low (m : Mod) (ten k : Nat) {reg : WinReg} {x y : W64} (hr : reg ≠ .base)
    (h : x.toNat % 2 ^ 32 = y.toNat % 2 ^ 32) : winWrite m ten k reg x = winWrite m ten k reg y := by
  have hbit : ∀ i < 32, x.getLsbD i = y.getLsbD i := fun i hi => by
    rw [← BitVec.testBit_toNat, ← BitVec.testBit_toNat, ← Bool.true_and (Nat.testBit x.toNat i),
      ← Bool.true_and (Nat.testBit y.toNat i), ← decide_eq_true hi, ← Nat.testBit_mod_two_pow, ← Nat.testBit_mod_two_pow, h]
  cases reg with
  | base => exact absurd rfl hr
  | size =>
    have hn : x.toNat % 2 ^ 21 = y.toNat % 2 ^ 21 := by omega
    simp only [winWrite, hn]
  | ctl => simp only [winWrite, hbit 0 (by decide), hbit 8 (by decide)]

theorem bsxWinWrite_low {m : Mod} {reg : WinReg} {x y : W64} (hr : reg ≠ .base)
    (h : x.toNat % 2 ^ 32 = y.toNat % 2 ^ 32) : bsxWinWrite reg x m = bsxWinWrite reg y m := by
  simp only [bsxWinWrite, winWrite_low m _ _ hr h]

/-- A write that a window takes, and one it refuses (06 R169). -/
theorem bsxWinWrite_takes {m : Mod} {reg : WinReg} {v : W64} {x : Window}
    (hw : winWrite m m.bsx.tsel m.bsx.wsel reg v = some x) :
    bsxWinWrite reg v m = { m with bsx := { m.bsx with
      win := tblSet m.bsx.win (m.bsx.tsel * 8 + m.bsx.wsel) { x with refused := false } } } := by
  simp only [bsxWinWrite, hw]

theorem bsxWinWrite_refuses {m : Mod} {reg : WinReg} {v : W64} (hw : winWrite m m.bsx.tsel m.bsx.wsel reg v = none) :
    bsxWinWrite reg v m = raiseInt { m with bsx := { m.bsx with
      win := tblSet m.bsx.win (m.bsx.tsel * 8 + m.bsx.wsel) { winOf m m.bsx.tsel m.bsx.wsel with refused := true } } } .bsx 1 := by
  simp only [bsxWinWrite, hw]

theorem bsxWin_word_written {t : Nat} {s : State} {ini : Initiator} {reg : WinReg} {w : W64} (hr : reg ≠ .base)
    (h : WritesReg (s.now t) ini .bsx 1 (if reg = .size then 0x110 else 0x114)) :
    Leaves (.bsxWinWrite t ini reg w) t s (noteSealed (bsxWinWrite reg ((low32 w).setWidth 64) (s.now t))) := by
  have hlow : ∀ x : W64, (BitVec.ofNat 64 (merged x 0xFFFFFFFF ((low32 w).setWidth 64)).toNat).toNat % 2 ^ 32 =
      ((low32 w).setWidth 64).toNat % 2 ^ 32 := fun x => by
    rw [BitVec.ofNat_toNat, BitVec.setWidth_eq, merged_mod, BitVec.toNat_setWidth]
    have := (low32 w).isLt
    omega
  cases reg with
  | base => exact absurd rfl hr
  | size =>
    exact (blk_write (row := rowBsxWin ini .size w) h rfl (by decide) (by decide) (by decide) rfl rfl (by simp)).trans
      (congrArg (fun x => left t s (noteSealed x)) (bsxWinWrite_low hr (hlow _)))
  | ctl =>
    exact (blk_write (row := rowBsxWin ini .ctl w) h rfl (by decide) (by decide) (by decide) rfl rfl (by simp)).trans
      (congrArg (fun x => left t s (noteSealed x)) (bsxWinWrite_low hr (hlow _)))

/-- Settles O41: each register's write is its effect, which splits as the statement does. -/
theorem settingsWritesComplete : Obligations.SettingsWritesComplete := by
  intro t s ini v m
  refine ⟨?_, ?_, ?_, ?_, ?_, ?_⟩
  · intro h n
    refine ⟨fun hlo hhi => schAge_written h (if_pos ⟨hlo, hhi⟩), fun hout => schAge_written h (if_neg ?_)⟩
    rintro ⟨hlo, hhi⟩
    exact hout.elim (Nat.not_lt.mpr hlo) (Nat.not_lt.mpr hhi)
  · intro h
    exact ⟨fun hb => rehashStart_written h (if_pos hb), fun hb => rehashStart_written h (if_neg (ne_true_of_eq_false hb))⟩
  · intro w h x y
    exact bsxWin_base_written h
  · intro reg w hr h k
    have hrun := bsxWin_word_written (w := w) hr h
    cases hw : winWrite m m.bsx.tsel m.bsx.wsel reg ((low32 w).setWidth 64) with
    | some x => exact hrun.trans (congrArg (fun x => left t s (noteSealed x)) (bsxWinWrite_takes hw))
    | none => exact hrun.trans (congrArg (fun x => left t s (noteSealed x)) (bsxWinWrite_refuses hw))
  · intro p h ten n old taken
    have hn : ∀ k : Nat, k % 2 ^ 32 = v.toNat → k % 8192 = n := fun k hk => by
      show k % 8192 = v.toNat % 8192
      omega
    constructor
    · intro hle htaken hfree
      refine vfBind_written h (fun k hk => ?_)
      simp only [vfBind, hn k hk]
      refine if_neg ?_
      rintro (hbig | ht | ⟨h0, hne, hact⟩)
      · omega
      · exact absurd (htaken.symm.trans ht) (by decide)
      · exact hfree.elim h0 (fun hx => hx.elim hne (fun hx => hx hact))
    · intro hbad
      refine vfBind_written h (fun k hk => ?_)
      simp only [vfBind, hn k hk]
      exact if_pos hbad
  · intro h p
    exact tcfg_written h

/-! ### The supervisor -/

section

variable {t : Nat} {s : State} {ini : Initiator}

theorem recClear_written {v : W32} (h : WritesReg (s.now t) ini .ssv 1 0x158) :
    Leaves (.ssvRecClear t ini v) t s (recClear v (s.now t)) :=
  (blk_write (row := rowRecClear ini v) h rfl (by decide) (by decide) (by decide) rfl rfl (by simp)).trans
    (congrArg (left t s) ((wo_put (fun v m => recClear (low32 v) m) v _).trans
      (congrArg (recClear · (s.now t)) (low32_setWidth v))))

theorem latchClear_written {word : Nat} {v still : W32} (hw : word < 4)
    (h : WritesReg (s.now t) ini .ssv 1 (0x110 + 4 * word)) :
    Leaves (.ssvLatchClear t ini word v still) t s (latchClear word v still (s.now t)) := by
  refine (blk_write (row := rowLatchClear ini word v still) (e := envOf ini still true true)
    (r := w1c (fun m => srcWord m.ssv.latch word) (fun v m => latchClear word (low32 v) still m)) h (if_pos hw) (by decide)
    (by omega) (by omega) ?_ ?_ (by simp)).trans (congrArg (left t s) (w1c_put _ (latchClear word · still) v _)) <;>
    rcases below_four hw with rfl | rfl | rfl | rfl <;> rfl

/-! ### The life-cycle block -/

/-- A write of LCC_CMD while LCC is not busy is its operation (16 R426). -/
theorem lccCmd_written {v : W32} {ok agree : Bool} {m1 : Mod} (h : WritesReg (s.now t) ini .lcc 1 0x108)
    (hb : lccBusy (s.now t) = false) (hm : lccCmd (envOf ini 0 ok agree) (v.setWidth 64) (s.now t) = m1) :
    accesses t (rowLccCmd ini v ok agree) s = left t s m1 :=
  (blk_write (row := rowLccCmd ini v ok agree) (e := envOf ini 0 ok agree) h rfl (by decide) (by decide) (by decide) rfl rfl
    (by simp)).trans (congrArg (left t s) ((wo_put (fun v => lccIdle (lccCmd (envOf ini 0 ok agree) v)) v _).trans
      ((if_neg (ne_true_of_eq_false hb)).trans hm)))

end

theorem lccBusy_of_live {m : Mod} (h : lccLive m = true) : lccBusy m = false := by
  unfold lccLive at h
  simp only [Bool.and_eq_true, Option.isNone_iff_eq_none] at h
  obtain ⟨⟨⟨-, -⟩, hs⟩, hh⟩ := h
  simp [lccBusy, hs, hh]

/-- The words of LCC_CMD's four operations. -/
theorem lccCmd_transition (e : RegEnv) (m : Mod) : lccCmd e ((1 : W32).setWidth 64) m = lcTransition e.ok e.agree m := by
  have h0 : ((1 : W32).setWidth 64).toNat % 4 = 1 := by decide
  have h8 : ((1 : W32).setWidth 64).getLsbD 8 = false := by decide
  simp only [lccCmd, h0, h8, Bool.false_eq_true, if_false]

theorem lccCmd_challenge (e : RegEnv) (m : Mod) : lccCmd e ((2 : W32).setWidth 64) m = makeChallenge m := by
  have h0 : ((2 : W32).setWidth 64).toNat % 4 = 2 := by decide
  have h8 : ((2 : W32).setWidth 64).getLsbD 8 = false := by decide
  simp only [lccCmd, h0, h8, Bool.false_eq_true, if_false]

theorem lccCmd_response (e : RegEnv) (m : Mod) : lccCmd e ((3 : W32).setWidth 64) m = debugResponse e.agree m := by
  have h0 : ((3 : W32).setWidth 64).toNat % 4 = 3 := by decide
  have h8 : ((3 : W32).setWidth 64).getLsbD 8 = false := by decide
  simp only [lccCmd, h0, h8, Bool.false_eq_true, if_false]

theorem lccCmd_close (e : RegEnv) (m : Mod) : lccCmd e ((0x100 : W32).setWidth 64) m = closeDebug m := by
  have h0 : ((0x100 : W32).setWidth 64).toNat % 4 = 0 := by decide
  have h8 : ((0x100 : W32).setWidth 64).getLsbD 8 = true := by decide
  simp only [lccCmd, h0, h8, if_true]

/-- A transition out of any state but LOCKED is refused or carried out as the checks of its request say (16 R417). -/
theorem lcTransition_refused {m : Mod} {ok agree : Bool} {st : W16} (hl : lccLive m = true) (h7 : lcState m ≠ 7)
    (hck : transitionCheck m (mboxBytes m 272) (nowT m) agree = .error (.status st)) :
    lcTransition ok agree m = lccRefuse m st agree 1 := by
  unfold lcTransition lcTransitionAt
  rw [if_neg (by simp [hl])]
  refine (if_neg h7).trans ?_
  rw [hck]

theorem lcTransition_passed {m : Mod} {ok agree : Bool} {q : List Effect} (hl : lccLive m = true) (h7 : lcState m ≠ 7)
    (hck : transitionCheck m (mboxBytes m 272) (nowT m) agree = .ok q) :
    lcTransition ok agree m =
      let r := mboxBytes m 272
      let m1 := if q.isEmpty then m else issueOwn m q
      let m2 := stopAdmission { m1 with lcc := { m1.lcc with intent := some (sha384 (r.take 272)), nonceUsed := true } }
      let x := leaveEarly m2 (getNat8 r 2)
      if x.2 then progEnd (progWords x.1 (getNat8 r 2) (getNat8 r 3) ok) ok else progEnd x.1 false := by
  unfold lcTransition lcTransitionAt
  rw [if_neg (by simp [hl])]
  refine (if_neg h7).trans ?_
  rw [hck]

/-- A response whose checks hold opens its scope (16 R422). -/
theorem debugResponse_passed {m : Mod} {agree : Bool} {q : List Effect} (hl : lccLive m = true)
    (hck : debugCheck m (mboxBytes m 272) (nowT m) agree = .ok q) :
    debugResponse agree m =
      let r := mboxBytes m 272
      let m1 := if q.isEmpty then m else issueOwn m q
      let f := getNat8 r 4
      let m2 := { m1 with lcc := { m1.lcc with
        chal := none, dbgOpen := true, scope := sliceOf r 0x70 64, readOnly := f.testBit 1, bscan := f.testBit 0 } }
      raiseInt (lccResult m2 stOk) .lcc 2 := by
  unfold debugResponse debugResponseAt
  rw [if_neg (by simp [hl])]
  dsimp only
  rw [hck]

/-- Settles O42: each register's write is its effect, which splits as the statement does. -/
theorem guardRegistersComplete : Obligations.GuardRegistersComplete := by
  intro t s ini v m
  refine ⟨recClear_written, ?_, ?_, ?_⟩
  · intro word still hw h at' m1
    exact latchClear_written hw h
  · intro h hl r
    have hb := lccBusy_of_live hl
    have hgo : ¬ (!lccLive m) = true := by simp [hl]
    refine ⟨?_, ?_, ?_, ?_⟩
    · intro agree st h7 hck
      exact lccCmd_written h hb ((lccCmd_transition _ _).trans (lcTransition_refused hl h7 hck))
    · intro q h7 hck m1 m2 x
      exact lccCmd_written h hb ((lccCmd_transition _ _).trans (lcTransition_passed hl h7 hck))
    · intro hlock h7 hrng n m1 b
      refine lccCmd_written h hb ((lccCmd_challenge _ _).trans (show makeChallenge m = _ from ?_))
      unfold makeChallenge
      rw [if_neg hgo, if_neg (ne_true_of_eq_false hlock), if_neg h7, if_neg (ne_true_of_eq_false hrng)]
    · intro q hck m1 f m2
      exact lccCmd_written h hb ((lccCmd_response _ _).trans (debugResponse_passed hl hck))
  · intro h hb hopen
    exact lccCmd_written h hb ((lccCmd_close _ _).trans (if_neg (by simp [show (s.now t).lcc.dbgOpen = true from hopen])))

end Sys2Proof.Machine

/-! SUPPORT. The recorder's control word: where the clause of EVR_CTL.EN in `MeasurementRegistersComplete` fails. It leaves out
that a channel whose staged fields are out of range keeps its configuration and runs while EN is set (log 46): `evrSetEn`
opens that channel's epoch, after the staged fields of every channel were judged. -/

namespace Sys2Proof.Machine

/-- A unit in service, its time trusted, its ports up and its image loaded. The recorder is off; channel 0 is enabled, and
the fields staged for it since name no source. -/
def recorderOff : State :=
  { mod := { Mod.reset with
      powered := true
      port := [(0, { PortState.reset with linkUp := true }), (1, { PortState.reset with linkUp := true })]
      tim := { TimState.reset with trust := [(0, true)] }
      txp := { TxpState.reset with imageLoaded := true }
      jnl := { JnlState.reset with boot := 1, started := true, fit := true }
      lcc := { LccState.reset with decoded := some 3 }
      evr := { EvrState.reset with
        en := false
        chan := [(0, { EvrChan.reset with cfg := { EvrCfg.reset with source := 1, en := true } })] } }
    pending := [] }

/-- Whether channel 0 has an open epoch in what a command comes to. -/
def firstEpochOpen : Result → Bool
  | .next s => (evrChanOf s.mod 0).epoch.isSome
  | _ => false

theorem recorderOff_writes : WritesReg (recorderOff.now 0) (.pf .a) .evr 1 0x100 := by
  refine ⟨?_, ?_, ?_⟩ <;> decide +kernel

theorem recorderOff_en : (recorderOff.now 0).evr.en ≠ true := by decide +kernel

/-- The model's write of EN opens an epoch on channel 0. -/
theorem recorderOff_opens : firstEpochOpen (exec (.evrCtlEnWrite 0 (.pf .a) true) recorderOff) = true := by decide +kernel

/-- An EVR_CAPPLY on every channel, as the statement has it, opens none. -/
theorem recorderOff_stays :
    let m := recorderOff.now 0
    firstEpochOpen (left 0 recorderOff ((List.range 64).foldl applyChan { m with evr := { m.evr with en := true } })) =
      false := by decide +kernel

/-- Refutes O43: setting EVR_CTL.EN opens the epoch of an enabled channel whose staged fields are out of range, where the
statement leaves the channels as an EVR_CAPPLY on each leaves them. -/
theorem not_measurementRegistersComplete : ¬ Obligations.MeasurementRegistersComplete := by
  intro h
  obtain ⟨-, -, hen, -⟩ := h 0 recorderOff (.pf .a)
  have hleaves := (hen true recorderOff_writes).2 recorderOff_en
  have hopen := congrArg firstEpochOpen hleaves
  rw [recorderOff_opens] at hopen
  exact absurd (hopen.trans recorderOff_stays) (by decide)

end Sys2Proof.Machine
